-- ==== Sys2Proof/Word.lean ====
section
/-! DEFINITION. The machine words of R2, R3 and R100: bytes, 32-bit entries, and the 7-bit operand field of R118. -/

namespace Sys2Proof

/-- One byte (R3). -/
abbrev Byte := BitVec 8

/-- One lane or uniform entry, and one instruction word (R100, R117). -/
abbrev Word := BitVec 32

end Sys2Proof
end

