-- ==== Sys2Proof/Syntax.lean ====
section
/-! DEFINITION. The syntax: the registers firmware writes, the inputs an event carries, and the ONE inductive
`Instr`: the 191 instruction words of R124 and R125 and the 118 steps of the other agents that the table of
operations lists (spec/95_what_each_step_holds.md). A word's operand fields stand as the word carries them; a step's
arguments are the choices and inputs the step takes. -/

namespace Sys2Proof

/-- The four name classes a kernel's name table declares (R49, R136): their numbers are 0 to 3. -/
inductive NClass where
  | lane | uniform | perm | acc
deriving DecidableEq, Repr

/-- The registers that firmware reaches by the manual's name (R5), with their indices. -/
inductive Reg where
  | dpart (core slot : Nat) | domtab (core slot : Nat) | tframe (core slot : Nat) | sring (core slot : Nat)
  | sampctl (core : Nat) | ctrsel (core part n : Nat) | ctrval (core part n : Nat) | bindstat (core slot : Nat)
  | chkctl (core : Nat) | chkstat (core : Nat) | dbgctl (core slot : Nat) | brk (core slot n : Nat)
  | dbgcmd (core slot : Nat) | dbgstat (core slot : Nat) | dbgq (core : Nat) | dbgqr (core part : Nat) | cpwp (core ch : Nat)
  | asroot (die n : Nat) | tlbinv (die : Nat) | l2way (die n : Nat) | wintab (die n : Nat) | dvfs (die cl : Nat)
  | therm (die : Nat) | watch (die n : Nat) | aelog (die n : Nat) | telog (die n : Nat) | hbmlog (die : Nat)
  | lswap (die ch : Nat) | injseed (die : Nat) | injctl (die : Nat)
  | flash (link : Nat) | devnum | kjover | lrver | mboxin (w : Nat) | mboxout (w : Nat) | mboxdb
deriving DecidableEq, Repr

/-- The signed configuration image the boot ROM loads (R283): its bytes, the root public key and the signature that come with
it, and what it carries (the manual gives its bytes no layout: DESIGN CHOICE, log 79): the dies of test partitions (R368), the voltage floors
and ceiling in mV (R288), the key registry (KEYID, key), the firmware of the hub and of the die controllers. -/
structure BootImage where
  body : List Byte
  root : List Byte
  sig : List Byte
  tests : List Nat
  vt : List Nat
  vc : Nat
  keys : List (List Byte × List Byte)
  hubFw : List Byte
  dieFw : List (List Byte)
deriving DecidableEq, Repr

/-- A completed tagged request (R268, R269): its slot, partition, word and time name it; the queueing ticks are the
environment's, since R372 fixes no time. -/
structure SampleReq where
  slot : Nat
  part : Nat
  pc : Nat
  time : Nat
  ql1 : Nat
  qxb : Nat
  ql2 : Nat
  qlk : Nat
  qhb : Nat
deriving DecidableEq, Repr

/-- A put or get that an Ethernet peer's hub carries to this package (R242): the registration it names, on die
`die`, and for a put its bytes. -/
structure RemAccess where
  die : Nat
  win : Nat
  put : Bool
  toff : Nat
  len : Nat
  bytes : List Byte
deriving DecidableEq, Repr

/-- One step of the part: an instruction word, or a step of another agent. -/
inductive Instr where
  /-- `ia.add` (R152). Each thread writes A + B modulo 2^32 to its lane destination. -/
  | iaAdd (d : BitVec 7) (a : BitVec 7) (b : BitVec 7)
  /-- `ia.sub` (R152). Each thread writes A - B modulo 2^32. -/
  | iaSub (d : BitVec 7) (a : BitVec 7) (b : BitVec 7)
  /-- `ia.mul` (R152). Each thread writes the low 32 bits of A times B. -/
  | iaMul (d : BitVec 7) (a : BitVec 7) (b : BitVec 7)
  /-- `ia.mulh` (R152). Each thread writes the high 32 bits of the signed 64-bit product. -/
  | iaMulh (d : BitVec 7) (a : BitVec 7) (b : BitVec 7)
  /-- `ia.mulhn` (R152). Each thread writes the high 32 bits of the unsigned 64-bit product. -/
  | iaMulhn (d : BitVec 7) (a : BitVec 7) (b : BitVec 7)
  /-- `ia.min` (R152). Each thread writes the signed minimum of A and B. -/
  | iaMin (d : BitVec 7) (a : BitVec 7) (b : BitVec 7)
  /-- `ia.max` (R152). Each thread writes the signed maximum of A and B. -/
  | iaMax (d : BitVec 7) (a : BitVec 7) (b : BitVec 7)
  /-- `ia.minn` (R152). Each thread writes the unsigned minimum of A and B. -/
  | iaMinn (d : BitVec 7) (a : BitVec 7) (b : BitVec 7)
  /-- `ia.maxn` (R152). Each thread writes the unsigned maximum of A and B. -/
  | iaMaxn (d : BitVec 7) (a : BitVec 7) (b : BitVec 7)
  /-- `ia.and` (R152). Each thread writes the bitwise AND of A and B. -/
  | iaAnd (d : BitVec 7) (a : BitVec 7) (b : BitVec 7)
  /-- `ia.or` (R152). Each thread writes the bitwise OR of A and B. -/
  | iaOr (d : BitVec 7) (a : BitVec 7) (b : BitVec 7)
  /-- `ia.xor` (R152). Each thread writes the bitwise XOR of A and B. -/
  | iaXor (d : BitVec 7) (a : BitVec 7) (b : BitVec 7)
  /-- `ia.shl` (R152). Each thread shifts A left by u(B), giving 0 for amounts of 32 or more. -/
  | iaShl (d : BitVec 7) (a : BitVec 7) (b : BitVec 7)
  /-- `ia.shr` (R152). Each thread shifts A right logically by u(B), giving 0 for amounts of 32 or more. -/
  | iaShr (d : BitVec 7) (a : BitVec 7) (b : BitVec 7)
  /-- `ia.sar` (R152). Each thread shifts A right arithmetically by u(B), giving the sign fill for amounts of 32 or more. -/
  | iaSar (d : BitVec 7) (a : BitVec 7) (b : BitVec 7)
  /-- `ia.rot` (R152). Each thread rotates A left by B[4:0]. -/
  | iaRot (d : BitVec 7) (a : BitVec 7) (b : BitVec 7)
  /-- `ic.eq` (R153). Each thread writes 1 if A equals B, else 0. -/
  | icEq (d : BitVec 7) (a : BitVec 7) (b : BitVec 7)
  /-- `ic.ne` (R153). Each thread writes 1 if A differs from B, else 0. -/
  | icNe (d : BitVec 7) (a : BitVec 7) (b : BitVec 7)
  /-- `ic.lt` (R153). Each thread writes 1 if s(A) < s(B), else 0. -/
  | icLt (d : BitVec 7) (a : BitVec 7) (b : BitVec 7)
  /-- `ic.le` (R153). Each thread writes 1 if s(A) <= s(B), else 0. -/
  | icLe (d : BitVec 7) (a : BitVec 7) (b : BitVec 7)
  /-- `ic.ltn` (R153). Each thread writes 1 if u(A) < u(B), else 0. -/
  | icLtn (d : BitVec 7) (a : BitVec 7) (b : BitVec 7)
  /-- `ic.len` (R153). Each thread writes 1 if u(A) <= u(B), else 0. -/
  | icLen (d : BitVec 7) (a : BitVec 7) (b : BitVec 7)
  /-- `iai` (R154). Each thread writes A plus the sign-extended 11-bit immediate. -/
  | iai (d : BitVec 7) (a : BitVec 7) (imm : BitVec 11)
  /-- `ish.shl` (R155). Each thread shifts A left by a literal amount. -/
  | ishShl (d : BitVec 7) (a : BitVec 7) (b : BitVec 7)
  /-- `ish.shr` (R155). Each thread shifts A right logically by a literal amount. -/
  | ishShr (d : BitVec 7) (a : BitVec 7) (b : BitVec 7)
  /-- `ish.sar` (R155). Each thread shifts A right arithmetically by a literal amount. -/
  | ishSar (d : BitVec 7) (a : BitVec 7) (b : BitVec 7)
  /-- `ish.rot` (R155). Each thread rotates A left by a literal amount. -/
  | ishRot (d : BitVec 7) (a : BitVec 7) (b : BitVec 7)
  /-- `lim` (R156). Each thread writes the sign-extended 18-bit immediate. -/
  | lim (d : BitVec 7) (imm : BitVec 18)
  /-- `lih` (R156). Each thread replaces bits [31:14] of its destination with the immediate and keeps bits [13:0]. -/
  | lih (d : BitVec 7) (imm : BitVec 18)
  /-- `fa.add` (R157). Each thread writes the rounded f32 sum of A and B. -/
  | faAdd (d : BitVec 7) (a : BitVec 7) (b : BitVec 7)
  /-- `fa.sub` (R157). Each thread writes the rounded f32 difference A - B. -/
  | faSub (d : BitVec 7) (a : BitVec 7) (b : BitVec 7)
  /-- `fa.mul` (R157). Each thread writes the rounded f32 product of A and B. -/
  | faMul (d : BitVec 7) (a : BitVec 7) (b : BitVec 7)
  /-- `fa.fma` (R157). Each thread writes D + A*B rounded once. -/
  | faFma (d : BitVec 7) (a : BitVec 7) (b : BitVec 7)
  /-- `fa.fms` (R157). Each thread writes D - A*B rounded once. -/
  | faFms (d : BitVec 7) (a : BitVec 7) (b : BitVec 7)
  /-- `fa.min` (R157). Each thread writes the f32 minimum by R106. -/
  | faMin (d : BitVec 7) (a : BitVec 7) (b : BitVec 7)
  /-- `fa.max` (R157). Each thread writes the f32 maximum by R106. -/
  | faMax (d : BitVec 7) (a : BitVec 7) (b : BitVec 7)
  /-- `fa.abs` (R157). Each thread writes A with its sign bit cleared. -/
  | faAbs (d : BitVec 7) (a : BitVec 7)
  /-- `fa.neg` (R157). Each thread writes A with its sign bit inverted. -/
  | faNeg (d : BitVec 7) (a : BitVec 7)
  /-- `fa.eq` (R157). Each thread writes 1 if A equals B as f32, else 0. -/
  | faEq (d : BitVec 7) (a : BitVec 7) (b : BitVec 7)
  /-- `fa.lt` (R157). Each thread writes 1 if A < B as f32, else 0. -/
  | faLt (d : BitVec 7) (a : BitVec 7) (b : BitVec 7)
  /-- `fa.le` (R157). Each thread writes 1 if A <= B as f32, else 0. -/
  | faLe (d : BitVec 7) (a : BitVec 7) (b : BitVec 7)
  /-- `fh.hadd` (R158). Each thread adds two packed f16 element pairs. -/
  | fhHadd (d : BitVec 7) (a : BitVec 7) (b : BitVec 7)
  /-- `fh.hmul` (R158). Each thread multiplies two packed f16 element pairs. -/
  | fhHmul (d : BitVec 7) (a : BitVec 7) (b : BitVec 7)
  /-- `fh.hfma` (R158). Each thread performs a fused multiply-add on packed f16 elements. -/
  | fhHfma (d : BitVec 7) (a : BitVec 7) (b : BitVec 7)
  /-- `fh.hmin` (R158). Each thread takes the packed f16 minima. -/
  | fhHmin (d : BitVec 7) (a : BitVec 7) (b : BitVec 7)
  /-- `fh.hmax` (R158). Each thread takes the packed f16 maxima. -/
  | fhHmax (d : BitVec 7) (a : BitVec 7) (b : BitVec 7)
  /-- `fh.badd` (R158). Each thread adds two packed bf16 element pairs. -/
  | fhBadd (d : BitVec 7) (a : BitVec 7) (b : BitVec 7)
  /-- `fh.bmul` (R158). Each thread multiplies two packed bf16 element pairs. -/
  | fhBmul (d : BitVec 7) (a : BitVec 7) (b : BitVec 7)
  /-- `fh.bfma` (R158). Each thread performs a fused multiply-add on packed bf16 elements. -/
  | fhBfma (d : BitVec 7) (a : BitVec 7) (b : BitVec 7)
  /-- `fh.bmin` (R158). Each thread takes the packed bf16 minima. -/
  | fhBmin (d : BitVec 7) (a : BitVec 7) (b : BitVec 7)
  /-- `fh.bmax` (R158). Each thread takes the packed bf16 maxima. -/
  | fhBmax (d : BitVec 7) (a : BitVec 7) (b : BitVec 7)
  /-- `fc.f32i` (R111). Each thread converts f32 to i32 with saturation. -/
  | fcF32i (d : BitVec 7) (a : BitVec 7)
  /-- `fc.f32n` (R111). Each thread converts f32 to n32 with saturation. -/
  | fcF32n (d : BitVec 7) (a : BitVec 7)
  /-- `fc.if32` (R111). Each thread converts i32 to f32. -/
  | fcIf32 (d : BitVec 7) (a : BitVec 7)
  /-- `fc.nf32` (R111). Each thread converts n32 to f32. -/
  | fcNf32 (d : BitVec 7) (a : BitVec 7)
  /-- `fc.h16f32` (R159). Each thread converts the selected f16 element of A to f32. -/
  | fcH16f32 (d : BitVec 7) (a : BitVec 7) (b : BitVec 7)
  /-- `fc.f32h16` (R159). Each thread converts A to f16 into the selected element of D, keeping the other. -/
  | fcF32h16 (d : BitVec 7) (a : BitVec 7) (b : BitVec 7)
  /-- `fc.bf16f32` (R159). Each thread converts the selected bf16 element of A to f32. -/
  | fcBf16f32 (d : BitVec 7) (a : BitVec 7) (b : BitVec 7)
  /-- `fc.f32bf16` (R159). Each thread converts A to bf16 into the selected element of D, keeping the other. -/
  | fcF32bf16 (d : BitVec 7) (a : BitVec 7) (b : BitVec 7)
  /-- `fc.lt8f32` (R159). Each thread converts the selected lt8 byte of A to f32. -/
  | fcLt8f32 (d : BitVec 7) (a : BitVec 7) (b : BitVec 7)
  /-- `fc.f32lt8` (R159). Each thread converts A to lt8 into the selected byte of D, keeping the other bytes. -/
  | fcF32lt8 (d : BitVec 7) (a : BitVec 7) (b : BitVec 7)
  /-- `fx.rcp` (R160). Each thread writes the correctly rounded reciprocal of A. -/
  | fxRcp (d : BitVec 7) (a : BitVec 7)
  /-- `fx.rsqrt` (R160). Each thread writes the correctly rounded reciprocal square root of A. -/
  | fxRsqrt (d : BitVec 7) (a : BitVec 7)
  /-- `fx.sqrt` (R160). Each thread writes the correctly rounded square root of A. -/
  | fxSqrt (d : BitVec 7) (a : BitVec 7)
  /-- `fx.exp2` (R160). Each thread writes the correctly rounded 2^A. -/
  | fxExp2 (d : BitVec 7) (a : BitVec 7)
  /-- `fx.log2` (R160). Each thread writes the correctly rounded log2 A. -/
  | fxLog2 (d : BitVec 7) (a : BitVec 7)
  /-- `fx.sinpi` (R160). Each thread writes the correctly rounded sin(pi A). -/
  | fxSinpi (d : BitVec 7) (a : BitVec 7)
  /-- `fx.cospi` (R160). Each thread writes the correctly rounded cos(pi A). -/
  | fxCospi (d : BitVec 7) (a : BitVec 7)
  /-- `fx.tanh` (R160). Each thread writes the correctly rounded tanh A. -/
  | fxTanh (d : BitVec 7) (a : BitVec 7)
  /-- `fx.ceil` (R160). Each thread writes the integral f32 value at or above A. -/
  | fxCeil (d : BitVec 7) (a : BitVec 7)
  /-- `fx.floor` (R160). Each thread writes the integral f32 value at or below A. -/
  | fxFloor (d : BitVec 7) (a : BitVec 7)
  /-- `fx.xexp` (R160). Each thread writes floor(log2 |A|) as an i32. -/
  | fxXexp (d : BitVec 7) (a : BitVec 7)
  /-- `fx.ldexp` (R114). Each thread writes A times 2^s(B), rounded once if not exact. -/
  | fxLdexp (d : BitVec 7) (a : BitVec 7) (b : BitVec 7)
  /-- `xl.shfl` (R163). Each present thread reads the value of the thread indexed by its B. -/
  | xlShfl (d : BitVec 7) (a : BitVec 7) (b : BitVec 7)
  /-- `xl.shflx` (R163). Each present thread reads the value of thread t XOR B. -/
  | xlShflx (d : BitVec 7) (a : BitVec 7) (b : BitVec 7)
  /-- `xl.any` (R163). Each present thread receives 1 if any group value is nonzero. -/
  | xlAny (d : BitVec 7) (a : BitVec 7)
  /-- `xl.all` (R163). Each present thread receives 1 if every group value is nonzero. -/
  | xlAll (d : BitVec 7) (a : BitVec 7)
  /-- `xl.ballotl` (R163). Each present thread receives the nonzero mask of threads 0-31. -/
  | xlBallotl (d : BitVec 7) (a : BitVec 7)
  /-- `xl.ballh` (R163). Each present thread receives the nonzero mask of threads 32-63. -/
  | xlBallh (d : BitVec 7) (a : BitVec 7)
  /-- `xl.scan` (R163). Each present thread receives the exclusive sum of lower threads' values. -/
  | xlScan (d : BitVec 7) (a : BitVec 7)
  /-- `xl.red` (R163). Each present thread receives the integer sum over the group. -/
  | xlRed (d : BitVec 7) (a : BitVec 7)
  /-- `xl.redmax` (R163). Each present thread receives the signed maximum over the group. -/
  | xlRedmax (d : BitVec 7) (a : BitVec 7)
  /-- `xl.fred` (R113). Each present thread receives the fixed-tree f32 sum over the group. -/
  | xlFred (d : BitVec 7) (a : BitVec 7)
  /-- `xl.fredmax` (R113). Each present thread receives the fixed-tree f32 maximum over the group. -/
  | xlFredmax (d : BitVec 7) (a : BitVec 7)
  /-- `xl.match` (R164). Each present thread receives the lowest thread index holding the same key. -/
  | xlMatch (d : BitVec 7) (a : BitVec 7)
  /-- `xl.popc` (R163). Each present thread receives the count of nonzero group values. -/
  | xlPopc (d : BitVec 7) (a : BitVec 7)
  /-- `brz` (R165). Each thread branches to the target when A is zero. -/
  | brz (a : BitVec 7) (off : BitVec 18)
  /-- `brnz` (R165). Each thread branches to the target when A is nonzero. -/
  | brnz (a : BitVec 7) (off : BitVec 18)
  /-- `jmp` (R166). Each thread jumps to the target without writing a link. -/
  | jmp (off : BitVec 18)
  /-- `jmp` (R166). Each thread jumps to the target and writes the kernel offset of the next word to the link name. -/
  | jmpLink (a : BitVec 7) (off : BitVec 18)
  /-- `ctl.jr` (R167). Each thread jumps to kernel entry plus A. -/
  | ctlJr (a : BitVec 7)
  /-- `ctl.exit` (R168). The thread exits, dropping unmetered entries and counting as arrived at every group-set word. -/
  | ctlExit
  /-- `ld.n8` (R170). Each thread loads a zero-extended byte through its TQ. -/
  | ldN8 (d : BitVec 7) (a : BitVec 7) (off : BitVec 7)
  /-- `ld.i8` (R170). Each thread loads a sign-extended byte. -/
  | ldI8 (d : BitVec 7) (a : BitVec 7) (off : BitVec 7)
  /-- `ld.n16` (R170). Each thread loads a zero-extended halfword. -/
  | ldN16 (d : BitVec 7) (a : BitVec 7) (off : BitVec 7)
  /-- `ld.i16` (R170). Each thread loads a sign-extended halfword. -/
  | ldI16 (d : BitVec 7) (a : BitVec 7) (off : BitVec 7)
  /-- `ld.b32` (R170). Each thread loads a 32-bit word. -/
  | ldB32 (d : BitVec 7) (a : BitVec 7) (off : BitVec 7)
  /-- `ld.b64` (R170). Each thread loads 64 bits into a name pair, or reads a copy-channel write pointer. -/
  | ldB64 (d : BitVec 7) (a : BitVec 7) (off : BitVec 7)
  /-- `ld.b128` (R170). Each thread loads 128 bits into a run of four names. -/
  | ldB128 (d : BitVec 7) (a : BitVec 7) (off : BitVec 7)
  /-- `st.b8` (R172). Each thread stores the low byte of D through its TQ. -/
  | stB8 (d : BitVec 7) (a : BitVec 7) (off : BitVec 7)
  /-- `st.b16` (R172). Each thread stores the low halfword of D. -/
  | stB16 (d : BitVec 7) (a : BitVec 7) (off : BitVec 7)
  /-- `st.b32` (R172). Each thread stores the 32-bit D. -/
  | stB32 (d : BitVec 7) (a : BitVec 7) (off : BitVec 7)
  /-- `st.b64` (R172). Each thread stores the name pair D, D+1. -/
  | stB64 (d : BitVec 7) (a : BitVec 7) (off : BitVec 7)
  /-- `st.b128` (R172). Each thread stores the run D to D+3. -/
  | stB128 (d : BitVec 7) (a : BitVec 7) (off : BitVec 7)
  /-- `at.add` (R173). Each thread atomically adds B at EA and receives the old value. -/
  | atAdd (d : BitVec 7) (a : BitVec 7) (b : BitVec 7)
  /-- `at.min` (R173). Each thread atomically takes the signed minimum at EA. -/
  | atMin (d : BitVec 7) (a : BitVec 7) (b : BitVec 7)
  /-- `at.max` (R173). Each thread atomically takes the signed maximum at EA. -/
  | atMax (d : BitVec 7) (a : BitVec 7) (b : BitVec 7)
  /-- `at.minn` (R173). Each thread atomically takes the unsigned minimum at EA. -/
  | atMinn (d : BitVec 7) (a : BitVec 7) (b : BitVec 7)
  /-- `at.maxn` (R173). Each thread atomically takes the unsigned maximum at EA. -/
  | atMaxn (d : BitVec 7) (a : BitVec 7) (b : BitVec 7)
  /-- `at.and` (R173). Each thread atomically ANDs B into EA. -/
  | atAnd (d : BitVec 7) (a : BitVec 7) (b : BitVec 7)
  /-- `at.or` (R173). Each thread atomically ORs B into EA. -/
  | atOr (d : BitVec 7) (a : BitVec 7) (b : BitVec 7)
  /-- `at.xor` (R173). Each thread atomically XORs B into EA. -/
  | atXor (d : BitVec 7) (a : BitVec 7) (b : BitVec 7)
  /-- `at.xchg` (R173). Each thread atomically exchanges B with the word at EA. -/
  | atXchg (d : BitVec 7) (a : BitVec 7) (b : BitVec 7)
  /-- `at.cas` (R173). Each thread atomically writes B at EA if the old value equals D. -/
  | atCas (d : BitVec 7) (a : BitVec 7) (b : BitVec 7)
  /-- `at.fadd` (R173). Each thread atomically adds f32 B to the word at EA. -/
  | atFadd (d : BitVec 7) (a : BitVec 7) (b : BitVec 7)
  /-- `sel` (R175). Each thread writes A if D is nonzero, else B. -/
  | sel (d : BitVec 7) (a : BitVec 7) (b : BitVec 7)
  /-- `sr` (R176). Each thread writes the value of the selected identity or time selector. -/
  | sr (d : BitVec 7) (b : BitVec 7)
  /-- `ix.rd` (R177). Each thread reads the lane name indexed by bname + A. -/
  | ixRd (d : BitVec 7) (a : BitVec 7) (b : BitVec 7)
  /-- `ix.wr` (R177). Each thread writes D to the lane name indexed by bname + A. -/
  | ixWr (d : BitVec 7) (a : BitVec 7) (b : BitVec 7)
  /-- `pl.apply` (R230). Each present thread gathers X[s(t)] through a permutation register. -/
  | plApply (d : BitVec 7) (a : BitVec 7) (b : BitVec 4)
  /-- `pl.applyi` (R230). Each present thread gathers X[s^-1(t)] through a permutation register. -/
  | plApplyi (d : BitVec 7) (a : BitVec 7) (b : BitVec 4)
  /-- `pl.idx` (R230). Each present thread receives s(t). -/
  | plIdx (d : BitVec 7) (b : BitVec 4)
  /-- `pl.pos` (R230). Each present thread receives s^-1(t). -/
  | plPos (d : BitVec 7) (b : BitVec 4)
  /-- `pl.cyclen` (R230). Each present thread receives the length of its cycle of s. -/
  | plCyclen (d : BitVec 7) (b : BitVec 4)
  /-- `pl.cycmin` (R230). Each present thread receives the lowest index in its cycle of s. -/
  | plCycmin (d : BitVec 7) (b : BitVec 4)
  /-- `mx.mma` (R206). Queues a matrix step adding A rows from scratchpad times an operand-buffer panel into present tile rows. -/
  | mxMma (d : BitVec 7) (a : BitVec 7) (b : BitVec 7)
  /-- `mx.mmag` (R207). Queues a matrix step with a generated 0/1 left matrix. -/
  | mxMmag (d : BitVec 7) (a : BitVec 7) (b : BitVec 7)
  /-- `mx.mcv` (R208). Queues a matrix step whose left rows are unfolded from a convolution input tensor. -/
  | mxMcv (d : BitVec 7) (a : BitVec 7) (b : BitVec 7)
  /-- `mx.zero` (R209). Queues zeroing of present tile rows. -/
  | mxZero (d : BitVec 7)
  /-- `mx.get` (R209). Queues a read of one tile element into each present thread's lane name. -/
  | mxGet (d : BitVec 7) (a : BitVec 7) (b : BitVec 7)
  /-- `mx.put` (R209). Queues a write of each present thread's lane value into one tile element. -/
  | mxPut (d : BitVec 7) (a : BitVec 7) (b : BitVec 7)
  /-- `mx.sto` (R210). Queues a store of present tile rows to memory as f32, f16 or bf16. -/
  | mxSto (d : BitVec 7) (a : BitVec 7)
  /-- `mx.rmax` (R209). Queues reading the maximum of each present row into a lane name. -/
  | mxRmax (d : BitVec 7) (a : BitVec 7)
  /-- `mx.rscale` (R209). Queues scaling each present row by 2^s(A). -/
  | mxRscale (d : BitVec 7) (a : BitVec 7)
  /-- `sys.nop` (R178). Does nothing but counts as a word for liveness. -/
  | sysNop
  /-- `sys.brk` (R345). Stops the group for the debugger when breakpoints are enabled, else acts as nop. -/
  | sysBrk (b : BitVec 7)
  /-- `sys.trap` (R178). Enters the trap handler with a software cause and code. -/
  | sysTrap (b : BitVec 7)
  /-- `spar` (R120). Prefix word that extends names and adds count, trap bits, rounding, scope and order to the next word. -/
  | spar (cc : BitVec 4) (dx : BitVec 4) (ax : BitVec 4) (bx : BitVec 4) (ta : BitVec 1) (tb : BitVec 1) (q : BitVec 3) (o : BitVec 2)
  /-- `ua.add` (R180). The group writes A + B to a uniform name. -/
  | uaAdd (d : BitVec 7) (a : BitVec 7) (b : BitVec 7)
  /-- `ua.sub` (R180). The group writes A - B to a uniform name. -/
  | uaSub (d : BitVec 7) (a : BitVec 7) (b : BitVec 7)
  /-- `ua.mul` (R180). The group writes the low 32 bits of A times B. -/
  | uaMul (d : BitVec 7) (a : BitVec 7) (b : BitVec 7)
  /-- `ua.and` (R180). The group writes A AND B. -/
  | uaAnd (d : BitVec 7) (a : BitVec 7) (b : BitVec 7)
  /-- `ua.or` (R180). The group writes A OR B. -/
  | uaOr (d : BitVec 7) (a : BitVec 7) (b : BitVec 7)
  /-- `ua.xor` (R180). The group writes A XOR B. -/
  | uaXor (d : BitVec 7) (a : BitVec 7) (b : BitVec 7)
  /-- `ua.shl` (R180). The group writes A shifted left by u(B). -/
  | uaShl (d : BitVec 7) (a : BitVec 7) (b : BitVec 7)
  /-- `ua.shr` (R180). The group writes A shifted right logically by u(B). -/
  | uaShr (d : BitVec 7) (a : BitVec 7) (b : BitVec 7)
  /-- `ua.min` (R180). The group writes the signed minimum of A and B. -/
  | uaMin (d : BitVec 7) (a : BitVec 7) (b : BitVec 7)
  /-- `ua.max` (R180). The group writes the signed maximum of A and B. -/
  | uaMax (d : BitVec 7) (a : BitVec 7) (b : BitVec 7)
  /-- `ua.minn` (R180). The group writes the unsigned minimum of A and B. -/
  | uaMinn (d : BitVec 7) (a : BitVec 7) (b : BitVec 7)
  /-- `ua.maxn` (R180). The group writes the unsigned maximum of A and B. -/
  | uaMaxn (d : BitVec 7) (a : BitVec 7) (b : BitVec 7)
  /-- `uc.eq` (R181). The group writes 1 if A equals B, else 0. -/
  | ucEq (d : BitVec 7) (a : BitVec 7) (b : BitVec 7)
  /-- `uc.ne` (R181). The group writes 1 if A differs from B, else 0. -/
  | ucNe (d : BitVec 7) (a : BitVec 7) (b : BitVec 7)
  /-- `uc.lt` (R181). The group writes 1 if s(A) < s(B), else 0. -/
  | ucLt (d : BitVec 7) (a : BitVec 7) (b : BitVec 7)
  /-- `uc.ltn` (R181). The group writes 1 if u(A) < u(B), else 0. -/
  | ucLtn (d : BitVec 7) (a : BitVec 7) (b : BitVec 7)
  /-- `uai` (R182). The group writes A plus the sign-extended immediate to a uniform name. -/
  | uai (d : BitVec 7) (a : BitVec 7) (imm : BitVec 11)
  /-- `ulim` (R182). The group writes the sign-extended 18-bit immediate to a uniform name. -/
  | ulim (d : BitVec 7) (imm : BitVec 18)
  /-- `ulih` (R182). The group replaces bits [31:14] of a uniform name with the immediate. -/
  | ulih (d : BitVec 7) (imm : BitVec 18)
  /-- `ubrz` (R183). The whole group branches when the uniform A is zero. -/
  | ubrz (a : BitVec 7) (off : BitVec 18)
  /-- `ubrnz` (R183). The whole group branches when the uniform A is nonzero. -/
  | ubrnz (a : BitVec 7) (off : BitVec 18)
  /-- `sync.bar` (R185). The group places release fences, arrives at a barrier and waits for the phase to complete. -/
  | syncBar (d : BitVec 7)
  /-- `sync.arr` (R185). The group places release fences and arrives at a barrier without waiting. -/
  | syncArr (d : BitVec 7)
  /-- `sync.wt` (R185). The group waits for completion of the phase of its last arrival at a barrier. -/
  | syncWt (d : BitVec 7)
  /-- `sync.oc` (R98). The group waits until a class counter falls to the threshold, then raises its floors. -/
  | syncOc (d : BitVec 7) (a : BitVec 7)
  /-- `sync.fence` (R95). The group places a fence entry of the given scope and order in each thread's TQ. -/
  | syncFence (d : BitVec 7) (a : BitVec 7)
  /-- `sync.mwait` (R188). The group loads a word with acquire and waits until it differs from a comparand. -/
  | syncMwait (a : BitVec 7) (b : BitVec 7)
  /-- `sync.trig` (R189). The group places system release fences and is marked triggered when they are done. -/
  | syncTrig
  /-- `sync.dwait` (R189). The group waits until every producer launch has triggered. -/
  | syncDwait
  /-- `eng.copy` (R190). The group queues a command chain on a copy channel and counts it in oc.cp. -/
  | engCopy (d : BitVec 7) (a : BitVec 7)
  /-- `eng.quant` (R190). The group queues a command chain on the quantisation engine and counts it in oc.qz. -/
  | engQuant (a : BitVec 7)
  /-- `eng.put` (R190). The group queues a window put and counts it in oc.wn. -/
  | engPut (a : BitVec 7)
  /-- `eng.get` (R190). The group queues a window get and counts it in oc.wn. -/
  | engGet (a : BitVec 7)
  /-- `pm.load` (R223). The group sends a lane index vector to the route solver to build a permutation register. -/
  | pmLoad (d : BitVec 7) (a : BitVec 7)
  /-- `pm.ident` (R224). The group writes the identity permutation of the given size. -/
  | pmIdent (d : BitVec 7) (a : BitVec 7)
  /-- `pm.comp` (R225). The group sends a composition of two permutation registers to the route solver. -/
  | pmComp (d : BitVec 7) (a : BitVec 7) (b : BitVec 7)
  /-- `pm.inv` (R224). The group writes the inverse permutation by reversing the stages. -/
  | pmInv (d : BitVec 7) (a : BitVec 7)
  /-- `pm.rand` (R226). The group sends a xorshift-driven random permutation to the route solver. -/
  | pmRand (d : BitVec 7) (a : BitVec 7) (b : BitVec 7)
  /-- `pm.cyc` (R227). The group writes the number of cycles of a permutation to a uniform name. -/
  | pmCyc (d : BitVec 7) (a : BitVec 7)
  /-- `pm.save` (R228). The group sends a write of a register's 48-byte saved form to scratchpad to the solver. -/
  | pmSave (d : BitVec 7) (a : BitVec 7)
  /-- `pm.rest` (R228). The group sends a restore of a register from 48 scratchpad bytes to the solver. -/
  | pmRest (d : BitVec 7) (a : BitVec 7)
  /-- `ob.rsv` (R191). The group reserves a run of the operand buffer and receives a handle or 0 when busy. -/
  | obRsv (d : BitVec 7) (a : BitVec 7)
  /-- `ob.rel` (R191). The group waits for oc.mx to reach 0 and then frees a reservation. -/
  | obRel (a : BitVec 7)
  /-- `ob.rec` (R191). The group waits for oc.mx to reach 0 and then replaces a reservation's record word. -/
  | obRec (a : BitVec 7)
  /-- `mode.rd` (R192). The group reads GRP.FMODE into a uniform name. -/
  | modeRd (d : BitVec 7)
  /-- `mode.wr` (R192). The group writes GRP.FMODE for words issued after it. -/
  | modeWr (a : BitVec 7)
  /-- `gate.call` (R194). The group calls through a gable descriptor into a kernel of another domain. -/
  | gateCall (a : BitVec 7)
  /-- `gate.ret` (R195). The group returns from a gable call to the caller's domain. -/
  | gateRet
  /-- `ctr.rd` (R196). The group reads an event counter of its partition filtered to its domain. -/
  | ctrRd (d : BitVec 7) (a : BitVec 7)
  /-- `ctr.mark` (R272). The group writes a mark record into its domain's sample ring. -/
  | ctrMark (a : BitVec 7)
  /-- `uld.b32` (R197). The group loads a 32-bit word into a uniform name through one TQ entry. -/
  | uldB32 (d : BitVec 7) (a : BitVec 7) (off : BitVec 7)
  /-- `uld.b64` (R197). The group loads 64 bits into a uniform pair, or reads a write pointer. -/
  | uldB64 (d : BitVec 7) (a : BitVec 7) (off : BitVec 7)
  /-- `ust.b32` (R197). The group stores a uniform word through one TQ entry. -/
  | ustB32 (d : BitVec 7) (a : BitVec 7) (off : BitVec 7)
  /-- ILLEGAL_WORD (R126). A word whose op is unused in its set or whose fn is not listed reaches issue, executes nothing and traps with ILLEGAL. -/
  | illegalWord (w : Word)
  /-- QPORT_SUBMIT (R245). A 128-byte DMWr with PASID to the queue port is accepted into intake or answered Retry. -/
  | qportSubmit (pasid offset : Nat) (bytes : List Byte)
  /-- QPORT_UNSUPPORTED_DMWR (R310). A DMWr of wrong size, alignment or without PASID is answered Unsupported Request. -/
  | qportUnsupportedDmwr (pasid : Option Nat) (offset size : Nat)
  /-- QPORT_MEMORY_WRITE (R310). A Memory Write to the queue port is dropped and counted in the reject count. -/
  | qportMemoryWrite (pasid : Option Nat)
  /-- QPORT_MEMORY_READ (R310). A Memory Read of the queue port completes with Unsupported Request. -/
  | qportMemoryRead (pasid : Option Nat)
  /-- PROCESS_LAUNCH (R248). The hub processes a KIND 0 launch record, checking it and creating its launch entry. -/
  | processLaunch
  /-- PROCESS_GRAPH_NODE (R249). The hub processes a KIND 1 record, creating the launch and possibly its graph entry. -/
  | processGraphNode
  /-- PROCESS_PHASE_STEP (R249). The hub processes a KIND 2 record, creating the launch and possibly its phase entry. -/
  | processPhaseStep
  /-- CONTROL_CLOSE (R253). A close record sets an entry's closed flag and completion-word address. -/
  | controlClose
  /-- CONTROL_CANCEL (R33). A cancel record stops dispatch and ends every unit below the entry. -/
  | controlCancel
  /-- DISPATCH_TURN (R256). The dispatcher begins a turn offering the next unit of an eligible launch for placement. -/
  | dispatchTurn
  /-- UNIT_COMPLETE (R31). A unit whose threads exited, counters drained and stores performed completes and decrements its launch counter. -/
  | unitComplete (uid : Nat)
  /-- LAUNCH_TRIGGERED (R189). The hub records a launch as triggered and releases groups waiting in sync.dwait. -/
  | launchTriggered (dom lid : Nat)
  /-- MBOX_VERSION (R284). A TYPE 1 mailbox message agrees the mailbox version. -/
  | mboxVersion
  /-- MBOX_ATTESTATION (R286). A TYPE 2 mailbox message starts building and signing an attestation report. -/
  | mboxAttestation (busy : Bool)
  /-- ATTESTATION_REPORT_WRITTEN (R286). The signed report is written to host memory and the message answered accepted. -/
  | attestationReportWritten
  /-- MBOX_DEBUG_ACCESS (R287). A TYPE 3 mailbox message reads or writes one debug register under firmware policy. -/
  | mboxDebugAccess (allowed : Bool)
  /-- MBOX_REJECT_LOG (R312). A TYPE 4 mailbox message returns the reject log of a PASID. -/
  | mboxRejectLog
  /-- MBOX_UNKNOWN_TYPE (R285). A mailbox message of unknown TYPE is denied with DETAIL 2. -/
  | mboxUnknownType
  /-- POWER_ON (R282). At power-on each die self-tests and the hub loads and verifies the configuration image. -/
  | powerOn (img : BootImage) (codes : List Nat)
  /-- PACKAGE_RESET (R282). Package reset reruns self-tests and clears locks, swaps and safe states. -/
  | packageReset (img : BootImage) (codes : List Nat)
  /-- SIDEBAND_STATUS (R282). A sideband status request is answered with a 16-byte die status record. -/
  | sidebandStatus (die : Nat)
  /-- DOMTAB_RUN (R280). Writing RUN to an EMPTY domain slot starts it with the written fields. -/
  | domtabRun (core slot v : Nat)
  /-- DOMTAB_HALT (R46). Writing HALT to a running slot begins halt in place. -/
  | domtabHalt (core slot : Nat)
  /-- HALT_COMPLETE (R46). At cycle c+64 the halting slot reads HALT and its share may pass to another domain. -/
  | haltComplete (core slot : Nat)
  /-- DOMTAB_RESUME (R48). Writing RUN to a halted slot resumes it, rebinding written-out names. -/
  | domtabResume (core slot : Nat)
  /-- DOMTAB_EMPTY (R280). Writing EMPTY to a halted slot with no resident unit frees its rows. -/
  | domtabEmpty (core slot : Nat)
  /-- DPART_WRITE (R281). A 128-bit write of CORE.DPART sets a slot's quotas and weights in one clock. -/
  | dpartWrite (core slot v : Nat)
  /-- REBIND_WRITE_OUT (R64). A chosen resource is written to its spill slots and released, after any outstanding write completes. -/
  | rebindWriteOut (uid g : Nat)
  /-- REBIND_PAUSE_END (R64). At c+32+2n the paused group forms candidates again. -/
  | rebindPauseEnd (uid g : Nat)
  /-- TLB_INVALIDATE (R75). Writing GO to DIE.TLBINV starts invalidation of an ASID's entries. -/
  | tlbInvalidate (die v : Nat)
  /-- TLB_INVALIDATE_DONE (R75). All TLBs have dropped the entries and walks are discarded, so GO reads 0. -/
  | tlbInvalidateDone (die : Nat)
  /-- FLASH_WRITE (R277). A write of HUB.FLASH closes or locks a die-to-die link. -/
  | flashWrite (link v : Nat)
  /-- LINK_DRAINED (R277). Requests accepted before closing complete and DRAIN reads 0. -/
  | linkDrained (link : Nat)
  /-- DVFS_REQUEST (R288). Writing GO to DIE.DVFS requests a clock step and voltage, or is denied. -/
  | dvfsRequest (die cl v : Nat)
  /-- DVFS_DONE (R288). The voltage and clock change completes and ANS reads done. -/
  | dvfsDone (die cl : Nat)
  /-- SRING_WRITE (R263). Writing V=1 to a ring register loads the core's private copy of WR. -/
  | sringWrite (core slot v : Nat)
  /-- SAMPCTL_WRITE (R265). Writing CORE.SAMPCTL reseeds each partition's sampling generator. -/
  | sampctlWrite (core v : Nat)
  /-- CTRSEL_WRITE (R270). Writing a counter select register sets the counter to zero. -/
  | ctrselWrite (core part n v : Nat)
  /-- THERM_WRITE (R325). Writing DIE.THERM sets thresholds and resets PEAK to CURT. -/
  | thermWrite (die v : Nat)
  /-- WATCH_WRITE (R346). Writing DIE.WATCH sets a watchpoint and clears its HITS. -/
  | watchWrite (die n v : Nat)
  /-- DBG_RESUME (R355). A resume command lets every group of a stopped unit form candidates again. -/
  | dbgResume (core slot v : Nat)
  /-- DBG_STEP (R354). A step command runs one group of a stopped unit for a number of words. -/
  | dbgStep (core slot v : Nat)
  /-- DBG_STOP (R350). A stop command raises a stop broadcast to every group of the unit. -/
  | dbgStop (core slot v : Nat)
  /-- DBG_STEP_END (R354). The stepped group halts in place and writes a step-end frame. -/
  | dbgStepEnd (uid g : Nat)
  /-- DBG_QUERY (R357). Writing GO to CORE.DBGQ reads one name's binding and entries into CORE.DBGQR. -/
  | dbgQuery (core v : Nat)
  /-- HBMLOG_WRITE (R366). Writing DIE.HBMLOG sets the four error counts to zero. -/
  | hbmlogWrite (die v : Nat)
  /-- LSWAP_WRITE (R367). Setting a spare valid bit in DIE.LSWAP swaps the named lane. -/
  | lswapWrite (die ch v : Nat)
  /-- INJSEED_WRITE (R368). Writing DIE.INJSEED sets the injector generator state. -/
  | injseedWrite (die v : Nat)
  /-- INJCTL_WRITE (R368). Writing DIE.INJCTL removes stuck faults and, with ARM, drops the channel's L2 lines and arms the injector. -/
  | injctlWrite (die v : Nat)
  /-- BINDSTAT_READ (R317). A firmware read of CORE.BINDSTAT returns binder status and clears NOSLOT. -/
  | bindstatRead (core slot : Nat)
  /-- REGISTER_WRITE (R6). A firmware write to a register with no behaviour of its own stores its fields. -/
  | registerWrite (r : Reg) (v : Nat)
  /-- PC_SAMPLE (R265). Every 2^n partition clocks a random thread slot is sampled and a record written. -/
  | pcSample (core part : Nat)
  /-- RING_WR_ADVANCE (R263). Once a record has performed and WR equals its index, WR advances with system release. -/
  | ringWrAdvance (core slot : Nat)
  /-- MEMORY_REQUEST_SAMPLE (R268). A tagged memory request completes and its hop queueing record is written. -/
  | memoryRequestSample (core : Nat) (req : SampleReq)
  /-- THERMAL_SAMPLE (R325). Every 10 microseconds the die reads all temperature sensors. -/
  | thermalSample (die : Nat) (junction hbmTemps : List Nat)
  /-- THERMAL_HOLD (R326). A cluster reaching THOT is lowered to clock step 0 and held. -/
  | thermalHold (die cl : Nat)
  /-- THERMAL_HOLD_RELEASE (R326). After 1 ms at or below THOT-5 the cluster's hold bit clears. -/
  | thermalHoldRelease (die cl : Nat)
  /-- ORDERED_TRIP (R327). Hub firmware orders a die trip, as on loss of coolant conditions. -/
  | orderedTrip (die : Nat)
  /-- STORE_TO_POOL (R90). An eligible store or atomic moves from its TQ into its core's POOL (T1). -/
  | storeToPool (uid g t id : Nat)
  /-- LOAD_SATISFY (R90). An eligible load is satisfied from POOL or HOME and its destination written (T2). -/
  | loadSatisfy (uid g t id : Nat) (choices : List Nat)
  /-- POOL_TO_PATH (R90). A POOL entry moves onto the PATH toward its home (T3). -/
  | poolToPath (core id : Nat)
  /-- PERFORM_AT_HOME (R90). A PATH entry performs, appending to the coherence order (T4). -/
  | performAtHome (core id : Nat)
  /-- FENCE_REMOVE (R90). An eligible fence is removed and its acquire raises floors (T5). -/
  | fenceRemove (uid g t id : Nat)
  /-- LINE_REQUEST (R81). The coalescer emits one line request per clock for an issue set's memory word. -/
  | lineRequest (core part : Nat)
  /-- TRANSLATION_WALK (R75). A page-table walk completes with a translation or a fault. -/
  | translationWalk (core asid va : Nat)
  /-- LOAD_COMPLETE (R171). The destinations of a lane-set load or atomic are written and set full for the whole set. -/
  | loadComplete (core set : Nat)
  /-- RESULT_WRITE (R54). A lane or group word's destination is written and its full bit set at completion. -/
  | resultWrite (core id : Nat)
  /-- WATCH_HIT_REPORT (R347). A watch hit report reaches the issuing group's core and stops it if debug is enabled. -/
  | watchHitReport (id : Nat)
  /-- BARRIER_ARRIVAL (R185). After its release fences are done, a group's arrival counts at the barrier cell. -/
  | barrierArrival (uid g bar : Nat)
  /-- GROUP_TRIGGERED (R189). When a sync.trig group's fences are done the group is marked triggered. -/
  | groupTriggered (uid g : Nat)
  /-- DWAIT_RELEASE (R189). A group in sync.dwait is released with system acquire when its producers have triggered. -/
  | dwaitRelease (uid g : Nat)
  /-- MWAIT_WAKE (R188). A store to the watched word or a resume wakes a sync.mwait group to load again. -/
  | mwaitWake (uid g : Nat)
  /-- MWAIT_TIMEOUT (R188). 65,536 cycles after the last load a sync.mwait group wakes and loads again. -/
  | mwaitTimeout (uid g : Nat)
  /-- OC_WAIT_RELEASE (R98). When the counter falls to the threshold a sync.oc group is released with raised floors. -/
  | ocWaitRelease (uid g : Nat)
  /-- OB_RELEASE_FREE (R191). When oc.mx reaches 0 the reservation is freed and the group released. -/
  | obReleaseFree (uid g : Nat)
  /-- OB_RECORD_REPLACE (R191). When oc.mx reaches 0 the record word is replaced and the group released. -/
  | obRecordReplace (uid g : Nat)
  /-- GATE_CALL_ENTRY (R194). After its waits the gable call binds callee names and enters the callee kernel. -/
  | gateCallEntry (uid g : Nat)
  /-- GATE_RETURN (R195). After its waits the gable return drops callee names and continues in the caller. -/
  | gateReturn (uid g : Nat)
  /-- CHAIN_START (R190). A copy channel or the quantisation engine starts the oldest waiting chain of a running slot. -/
  | chainStart (core ch : Nat)
  /-- MOVE_PLAIN (R236). A mode 0 move entry copies rows in 64-byte steps. -/
  | movePlain (core ch : Nat)
  /-- MOVE_PERMUTE (R237). A mode 1 move entry copies rows reordered by a permutation register. -/
  | movePermute (core ch : Nat)
  /-- MOVE_TRANSPOSE_REQUANTISE (R215). A mode 2 move entry writes panels with scale blocks re-formed along K. -/
  | moveTransposeRequantise (core ch : Nat)
  /-- MOVE_QUANTISE (R238). A mode 3 move entry quantises rows to lt8 or lt4 with block scales. -/
  | moveQuantise (core ch : Nat)
  /-- LOOP_ENTRY (R234). A loop entry advances its counter and jumps back, or resets and passes on. -/
  | loopEntry (core ch : Nat)
  /-- SKIP_ENTRY (R239). A skip entry compares a scratch word or write pointer and skips or waits. -/
  | skipEntry (core ch : Nat)
  /-- SKIP_WAIT_SATISFIED (R239). A waiting skip entry finds its relation holds and the chain proceeds. -/
  | skipWaitSatisfied (core ch : Nat)
  /-- SKIP_WAIT_LIMIT (R324). A skip entry waiting 2^24 cycles ends its chain with CHAIN 10. -/
  | skipWaitLimit (core ch : Nat)
  /-- SIGNAL_ARRIVE (R240). A signal entry adds one arrival to a barrier cell after earlier bytes performed. -/
  | signalArrive (core ch : Nat)
  /-- SIGNAL_ADVANCE (R240). A signal entry adds ADV to its channel's write pointer. -/
  | signalAdvance (core ch : Nat)
  /-- END_ENTRY (R234). An end entry waits until every byte the chain wrote has performed. -/
  | endEntry (core ch : Nat)
  /-- CHAIN_FINISH (R96). A chain's written bytes have all performed and the chain finishes. -/
  | chainFinish (core ch : Nat)
  /-- EQ_RETIRE (R96). The finished head of a class EQ retires and its counter decrements. -/
  | eqRetire (uid g cls : Nat)
  /-- WINDOW_PUT (R243). The window port starts a put, reading the descriptor and writing the target bytes. -/
  | windowPut (uid g : Nat)
  /-- PUT_ARRIVED_ADVANCE (R99). After the put's bytes perform the target's arrived cell advances by its length. -/
  | putArrivedAdvance (uid g : Nat)
  /-- PUT_ACKED_ADVANCE (R99). The source's acked cell advances and the put finishes. -/
  | putAckedAdvance (uid g : Nat)
  /-- WINDOW_GET (R243). The window port starts a get, reading target bytes into LOC. -/
  | windowGet (uid g : Nat)
  /-- MX_START (R212). The matrix array starts the next queued mx word and occupies O clocks. -/
  | mxStart (core part : Nat)
  /-- MX_DONE (R212). At s+O+10 the mx word's rows and lane destinations are written and set full. -/
  | mxDone (core part : Nat)
  /-- SOLVER_START (R221). The route solver starts the next queued operation. -/
  | solverStart (core : Nat)
  /-- SOLVER_DONE (R221). At t+D the route-solver operation writes its destination and finishes. -/
  | solverDone (core : Nat)
  /-- PM_SAVE_PERFORMED (R228). The saved-form bytes of pm.save have performed and the operation finishes. -/
  | pmSavePerformed (uid g : Nat)
  /-- SPILL_FILL (R61). A staging fill of a spilled or written-out name completes and sets its full bit. -/
  | spillFill (uid g : Nat) (cls : NClass) (num : Nat)
  /-- SPILL_WRITE_THROUGH (R61). A write-through to a spilled name's slot completes and sets its full bit. -/
  | spillWriteThrough (uid g : Nat) (cls : NClass) (num : Nat)
  /-- TRAP_FRAME_WRITE (R298). After the group's issued words complete its 2,048-byte frame is written. -/
  | trapFrameWrite (uid g : Nat)
  /-- HANDLER_ENTRY (R303). After the frame performs the group enters the kernel's trap handler. -/
  | handlerEntry (uid g : Nat)
  /-- HELD_TRAP_TAKEN (R304). A held condition is taken as a new trap once the group leaves its handler. -/
  | heldTrapTaken (uid g : Nat)
  /-- STOP_BROADCAST_ARRIVAL (R306). A fatal stop broadcast reaches a group, which stops and writes a STOP frame. -/
  | stopBroadcastArrival (uid g : Nat)
  /-- FATAL_UNIT_END (R307). When every group has written its frame the unit ends and its launch is faulted. -/
  | fatalUnitEnd (uid : Nat)
  /-- FINAL_COMMIT (R332). When both twins' groups have ended the last interval commits or rolls back. -/
  | finalCommit (uid : Nat)
  /-- ROLLBACK_REPLAY (R336). After started operations end the journal is replayed and the commit buffer discarded. -/
  | rollbackReplay (uid : Nat)
  /-- ROLLBACK_RESUME (R336). 32 cycles after the replay groups run again from their checkpoint. -/
  | rollbackResume (uid : Nat)
  /-- HBM_TRANSFER (R361). A sector moves as two parity-checked beats on an HBM5 channel. -/
  | hbmTransfer (die sector : Nat) (write : Bool)
  /-- PARITY_RETRY (R362). 30 ns after a parity failure the transfer is attempted again. -/
  | parityRetry (die ch : Nat)
  /-- LANE_SWAP_DONE (R363). After the swap the transfer is attempted once more on the new lane map. -/
  | laneSwapDone (die ch : Nat)
  /-- MX_STO_ROWS_PERFORMED (R210). The row bytes of an mx.sto have all performed at HOME and the word finishes. -/
  | mxStoRowsPerformed (uid g : Nat)
  /-- GET_BYTES_PERFORMED (R99). The bytes of a window get have performed at LOC and the get finishes. -/
  | getBytesPerformed (uid g : Nat)
  /-- REM_WINDOW_ACCESS (R242). A put or get of a window on a remote device arrives from an Ethernet peer and is performed at die TDIE by its registration, advancing the arrived cell for a put. -/
  | remWindowAccess (acc : RemAccess)
deriving DecidableEq, Repr

end Sys2Proof
end

