-- ==== Sys2Proof/WellFormed.lean ====
section
/-! DEFINITION. Which terms of `Instr` are legal: the ranges of the field classes in R124 and R125 (a literal within
its range, a p, t or r field within its class, R126). A step of another agent (an event) is well formed with its device
indices in range (R12, R16). -/

namespace Sys2Proof

/-- A register's indices are those of the device (R12, R16 and its field map). -/
def Reg.wf : Reg → Bool
  | .dpart c s | .domtab c s | .tframe c s | .sring c s | .bindstat c s | .dbgctl c s | .dbgcmd c s | .dbgstat c s => decide (c < 224) && decide (s < 8)
  | .sampctl c | .chkctl c | .chkstat c | .dbgq c => decide (c < 224)
  | .ctrsel c p n | .ctrval c p n => decide (c < 224) && decide (p < 12) && decide (n < 16)
  | .brk c s n => decide (c < 224) && decide (s < 8) && decide (n < 4)
  | .dbgqr c p => decide (c < 224) && decide (p < 40)
  | .cpwp c n => decide (c < 224) && decide (n < 4)
  | .asroot d n => decide (d < 8) && decide (n < 64)
  | .l2way d n | .aelog d n | .telog d n => decide (d < 8) && decide (n < 32)
  | .wintab d n => decide (d < 8) && decide (n < 1024)
  | .tlbinv d | .therm d | .hbmlog d | .injseed d | .injctl d => decide (d < 8)
  | .dvfs d c => decide (d < 8) && decide (c < 7)
  | .watch d n => decide (d < 8) && decide (n < 8)
  | .lswap d c => decide (d < 8) && decide (c < 64)
  | .flash n => decide (n < 10)
  | .devnum | .kjover | .lrver | .mboxdb => true
  | .mboxin w | .mboxout w => decide (w < 8)

/-- The word's fields lie within the classes and literal ranges of R124 and R125. -/
def WellFormed : Instr → Bool
  | .ishShl _ _ b => decide (b.toNat ≤ 31)
  | .ishShr _ _ b => decide (b.toNat ≤ 31)
  | .ishSar _ _ b => decide (b.toNat ≤ 31)
  | .ishRot _ _ b => decide (b.toNat ≤ 31)
  | .fcH16f32 _ _ b => decide (b.toNat ≤ 1)
  | .fcF32h16 _ _ b => decide (b.toNat ≤ 1)
  | .fcBf16f32 _ _ b => decide (b.toNat ≤ 1)
  | .fcF32bf16 _ _ b => decide (b.toNat ≤ 1)
  | .fcLt8f32 _ _ b => decide (b.toNat ≤ 3)
  | .fcF32lt8 _ _ b => decide (b.toNat ≤ 3)
  | .jmpLink a _ => decide (a.toNat ≠ 0)
  | .sr _ b => decide (b.toNat ≤ 12)
  | .mxMma d _ _ => decide (d.toNat ≤ 7)
  | .mxMmag d _ _ => decide (d.toNat ≤ 7)
  | .mxMcv d _ _ => decide (d.toNat ≤ 7)
  | .mxZero d => decide (d.toNat ≤ 7)
  | .mxGet _ a _ => decide (a.toNat ≤ 7)
  | .mxPut d _ _ => decide (d.toNat ≤ 7)
  | .mxSto d _ => decide (d.toNat ≤ 7)
  | .mxRmax _ a => decide (a.toNat ≤ 7)
  | .mxRscale d _ => decide (d.toNat ≤ 7)
  | .syncBar d => decide (d.toNat ≤ 63)
  | .syncArr d => decide (d.toNat ≤ 63)
  | .syncWt d => decide (d.toNat ≤ 63)
  | .syncOc d _ => decide (d.toNat ≤ 4)
  | .syncFence d a => decide (d.toNat ≤ 5) && decide (1 ≤ a.toNat) && decide (a.toNat ≤ 3)
  | .engCopy d _ => decide (d.toNat ≤ 3)
  | .pmLoad d _ => decide (d.toNat ≤ 15)
  | .pmIdent d a => decide (d.toNat ≤ 15) && decide (a.toNat ≤ 3)
  | .pmComp d a b => decide (d.toNat ≤ 15) && decide (a.toNat ≤ 15) && decide (b.toNat ≤ 15)
  | .pmInv d a => decide (d.toNat ≤ 15) && decide (a.toNat ≤ 15)
  | .pmRand d _ b => decide (d.toNat ≤ 15) && decide (b.toNat ≤ 3)
  | .pmCyc _ a => decide (a.toNat ≤ 15)
  | .pmSave _ a => decide (a.toNat ≤ 15)
  | .pmRest d _ => decide (d.toNat ≤ 15)
  | .ctrRd _ a => decide (a.toNat ≤ 15)
  | .qportSubmit _ offset bytes => decide (offset < 4096) && decide (offset % 128 = 0) && decide (bytes.length = 128)
  | .domtabRun core slot _ | .domtabHalt core slot | .haltComplete core slot | .domtabResume core slot
  | .domtabEmpty core slot | .dpartWrite core slot _ | .sringWrite core slot _ | .bindstatRead core slot
  | .ringWrAdvance core slot | .dbgResume core slot _ | .dbgStep core slot _ | .dbgStop core slot _ =>
      decide (core < 224) && decide (slot < 8)
  | .pcSample core part | .lineRequest core part | .mxStart core part | .mxDone core part =>
      decide (core < 224) && decide (part < 12)
  | .dvfsRequest die cl _ | .dvfsDone die cl | .thermalHold die cl | .thermalHoldRelease die cl =>
      decide (die < 8) && decide (cl < 7)
  | .flashWrite link _ | .linkDrained link => decide (link < 10)
  | .tlbInvalidate die _ | .tlbInvalidateDone die | .sidebandStatus die | .thermWrite die _ | .hbmlogWrite die _ | .injseedWrite die _
  | .injctlWrite die _ | .thermalSample die _ _ | .orderedTrip die => decide (die < 8)
  | .watchWrite die n _ => decide (die < 8) && decide (n < 8)
  | .lswapWrite die ch _ | .parityRetry die ch | .laneSwapDone die ch => decide (die < 8) && decide (ch < 64)
  | .hbmTransfer die sector _ => decide (die < 8) && decide (sector < 3 * 2 ^ 30)
  | .sampctlWrite core _ | .dbgQuery core _ | .memoryRequestSample core _ | .poolToPath core _ | .performAtHome core _ | .loadComplete core _
  | .resultWrite core _ | .translationWalk core _ _ | .solverStart core | .solverDone core => decide (core < 224)
  | .chainStart core ch | .movePlain core ch | .movePermute core ch | .moveTransposeRequantise core ch | .moveQuantise core ch
  | .loopEntry core ch | .skipEntry core ch | .skipWaitSatisfied core ch | .skipWaitLimit core ch | .signalArrive core ch
  | .signalAdvance core ch | .endEntry core ch | .chainFinish core ch => decide (core < 224) && decide (ch < 5)
  | .ctrselWrite core part n _ => decide (core < 224) && decide (part < 12) && decide (n < 16)
  | .registerWrite r _ => r.wf
  | .remWindowAccess acc => decide (acc.die < 8) && decide (acc.win < 1024)
  | _ => true

end Sys2Proof
end

