-- ==== Sys2Proof/Decode.lean ====
section
/-! DEFINITION. Decoding and encoding of instruction words: the formats of R118, the maps of R124 and R125, and the
illegal words of R126, refused with the name of the condition that R293 gives. A step of another agent has no word. -/

namespace Sys2Proof

/-- Why a single word is no instruction, in the order of R293 (DETAIL 1 to 5, and 7 for a spar's bits [1:0]). -/
inductive DecodeErr where
  /-- DETAIL 1: the op is unused in its set. -/
  | opUnused
  /-- DETAIL 2: the fn is not listed for the op. -/
  | fnUnlisted
  /-- DETAIL 3: a field coded 0 is nonzero. -/
  | zeroField
  /-- DETAIL 4: a literal lies outside its range. -/
  | literal
  /-- DETAIL 5: a p, t or r field lies outside its class. -/
  | classRange
  /-- DETAIL 7: a spar whose bits [1:0] are nonzero. -/
  | sparBits
deriving DecidableEq, Repr

/-- The DETAIL of R293. -/
def DecodeErr.detail : DecodeErr → Nat
  | .opUnused => 1 | .fnUnlisted => 2 | .zeroField => 3 | .literal => 4 | .classRange => 5 | .sparBits => 7

/-- Bits [hi:lo] of a word (R2). -/
def fld (w hi lo : Nat) : Nat := w / 2 ^ lo % 2 ^ (hi + 1 - lo)

/-- Bits [hi:lo] as a bit string of `n` bits. -/
def fN (n w hi lo : Nat) : BitVec n := BitVec.ofNat n (fld w hi lo)

/-- The fields of the formats of R118. -/
def fFn (w : Nat) : Nat := fld w 24 21
def fD (w : Nat) : BitVec 7 := fN 7 w 20 14
def fA (w : Nat) : BitVec 7 := fN 7 w 13 7
def fB (w : Nat) : BitVec 7 := fN 7 w 6 0
def fP (w : Nat) : BitVec 4 := fN 4 w 3 0
def fDI (w : Nat) : BitVec 7 := fN 7 w 24 18
def fAI (w : Nat) : BitVec 7 := fN 7 w 17 11
def fImm11 (w : Nat) : BitVec 11 := fN 11 w 10 0
def fImm18 (w : Nat) : BitVec 18 := fN 18 w 17 0

/-- Goes on when the condition holds, and refuses by name otherwise. -/
def need (p : Prop) [Decidable p] (e : DecodeErr) (r : Except DecodeErr Instr) : Except DecodeErr Instr :=
  if p then r else .error e

/-- `ia`, lane op 0x00 (R124). -/
def decL_ia (w : Nat) : Except DecodeErr Instr :=
  match fFn w with
  | 0 => .ok (.iaAdd (fD w) (fA w) (fB w))
  | 1 => .ok (.iaSub (fD w) (fA w) (fB w))
  | 2 => .ok (.iaMul (fD w) (fA w) (fB w))
  | 3 => .ok (.iaMulh (fD w) (fA w) (fB w))
  | 4 => .ok (.iaMulhn (fD w) (fA w) (fB w))
  | 5 => .ok (.iaMin (fD w) (fA w) (fB w))
  | 6 => .ok (.iaMax (fD w) (fA w) (fB w))
  | 7 => .ok (.iaMinn (fD w) (fA w) (fB w))
  | 8 => .ok (.iaMaxn (fD w) (fA w) (fB w))
  | 9 => .ok (.iaAnd (fD w) (fA w) (fB w))
  | 10 => .ok (.iaOr (fD w) (fA w) (fB w))
  | 11 => .ok (.iaXor (fD w) (fA w) (fB w))
  | 12 => .ok (.iaShl (fD w) (fA w) (fB w))
  | 13 => .ok (.iaShr (fD w) (fA w) (fB w))
  | 14 => .ok (.iaSar (fD w) (fA w) (fB w))
  | 15 => .ok (.iaRot (fD w) (fA w) (fB w))
  | _ => .error .fnUnlisted

/-- `ic`, lane op 0x01 (R124). -/
def decL_ic (w : Nat) : Except DecodeErr Instr :=
  match fFn w with
  | 0 => .ok (.icEq (fD w) (fA w) (fB w))
  | 1 => .ok (.icNe (fD w) (fA w) (fB w))
  | 2 => .ok (.icLt (fD w) (fA w) (fB w))
  | 3 => .ok (.icLe (fD w) (fA w) (fB w))
  | 4 => .ok (.icLtn (fD w) (fA w) (fB w))
  | 5 => .ok (.icLen (fD w) (fA w) (fB w))
  | _ => .error .fnUnlisted

/-- `ish`, lane op 0x03 (R124). -/
def decL_ish (w : Nat) : Except DecodeErr Instr :=
  match fFn w with
  | 0 => need (fld w 6 0 ≤ 31) .literal (.ok (.ishShl (fD w) (fA w) (fB w)))
  | 1 => need (fld w 6 0 ≤ 31) .literal (.ok (.ishShr (fD w) (fA w) (fB w)))
  | 2 => need (fld w 6 0 ≤ 31) .literal (.ok (.ishSar (fD w) (fA w) (fB w)))
  | 3 => need (fld w 6 0 ≤ 31) .literal (.ok (.ishRot (fD w) (fA w) (fB w)))
  | _ => .error .fnUnlisted

/-- `fa`, lane op 0x06 (R124). -/
def decL_fa (w : Nat) : Except DecodeErr Instr :=
  match fFn w with
  | 0 => .ok (.faAdd (fD w) (fA w) (fB w))
  | 1 => .ok (.faSub (fD w) (fA w) (fB w))
  | 2 => .ok (.faMul (fD w) (fA w) (fB w))
  | 3 => .ok (.faFma (fD w) (fA w) (fB w))
  | 4 => .ok (.faFms (fD w) (fA w) (fB w))
  | 5 => .ok (.faMin (fD w) (fA w) (fB w))
  | 6 => .ok (.faMax (fD w) (fA w) (fB w))
  | 7 => need (fld w 6 0 = 0) .zeroField (.ok (.faAbs (fD w) (fA w)))
  | 8 => need (fld w 6 0 = 0) .zeroField (.ok (.faNeg (fD w) (fA w)))
  | 9 => .ok (.faEq (fD w) (fA w) (fB w))
  | 10 => .ok (.faLt (fD w) (fA w) (fB w))
  | 11 => .ok (.faLe (fD w) (fA w) (fB w))
  | _ => .error .fnUnlisted

/-- `fh`, lane op 0x07 (R124). -/
def decL_fh (w : Nat) : Except DecodeErr Instr :=
  match fFn w with
  | 0 => .ok (.fhHadd (fD w) (fA w) (fB w))
  | 1 => .ok (.fhHmul (fD w) (fA w) (fB w))
  | 2 => .ok (.fhHfma (fD w) (fA w) (fB w))
  | 3 => .ok (.fhHmin (fD w) (fA w) (fB w))
  | 4 => .ok (.fhHmax (fD w) (fA w) (fB w))
  | 5 => .ok (.fhBadd (fD w) (fA w) (fB w))
  | 6 => .ok (.fhBmul (fD w) (fA w) (fB w))
  | 7 => .ok (.fhBfma (fD w) (fA w) (fB w))
  | 8 => .ok (.fhBmin (fD w) (fA w) (fB w))
  | 9 => .ok (.fhBmax (fD w) (fA w) (fB w))
  | _ => .error .fnUnlisted

/-- `fc`, lane op 0x08 (R124). -/
def decL_fc (w : Nat) : Except DecodeErr Instr :=
  match fFn w with
  | 0 => need (fld w 6 0 = 0) .zeroField (.ok (.fcF32i (fD w) (fA w)))
  | 1 => need (fld w 6 0 = 0) .zeroField (.ok (.fcF32n (fD w) (fA w)))
  | 2 => need (fld w 6 0 = 0) .zeroField (.ok (.fcIf32 (fD w) (fA w)))
  | 3 => need (fld w 6 0 = 0) .zeroField (.ok (.fcNf32 (fD w) (fA w)))
  | 4 => need (fld w 6 0 ≤ 1) .literal (.ok (.fcH16f32 (fD w) (fA w) (fB w)))
  | 5 => need (fld w 6 0 ≤ 1) .literal (.ok (.fcF32h16 (fD w) (fA w) (fB w)))
  | 6 => need (fld w 6 0 ≤ 1) .literal (.ok (.fcBf16f32 (fD w) (fA w) (fB w)))
  | 7 => need (fld w 6 0 ≤ 1) .literal (.ok (.fcF32bf16 (fD w) (fA w) (fB w)))
  | 8 => need (fld w 6 0 ≤ 3) .literal (.ok (.fcLt8f32 (fD w) (fA w) (fB w)))
  | 9 => need (fld w 6 0 ≤ 3) .literal (.ok (.fcF32lt8 (fD w) (fA w) (fB w)))
  | _ => .error .fnUnlisted

/-- `fx`, lane op 0x09 (R124). -/
def decL_fx (w : Nat) : Except DecodeErr Instr :=
  match fFn w with
  | 0 => need (fld w 6 0 = 0) .zeroField (.ok (.fxRcp (fD w) (fA w)))
  | 1 => need (fld w 6 0 = 0) .zeroField (.ok (.fxRsqrt (fD w) (fA w)))
  | 2 => need (fld w 6 0 = 0) .zeroField (.ok (.fxSqrt (fD w) (fA w)))
  | 3 => need (fld w 6 0 = 0) .zeroField (.ok (.fxExp2 (fD w) (fA w)))
  | 4 => need (fld w 6 0 = 0) .zeroField (.ok (.fxLog2 (fD w) (fA w)))
  | 5 => need (fld w 6 0 = 0) .zeroField (.ok (.fxSinpi (fD w) (fA w)))
  | 6 => need (fld w 6 0 = 0) .zeroField (.ok (.fxCospi (fD w) (fA w)))
  | 7 => need (fld w 6 0 = 0) .zeroField (.ok (.fxTanh (fD w) (fA w)))
  | 8 => need (fld w 6 0 = 0) .zeroField (.ok (.fxCeil (fD w) (fA w)))
  | 9 => need (fld w 6 0 = 0) .zeroField (.ok (.fxFloor (fD w) (fA w)))
  | 10 => need (fld w 6 0 = 0) .zeroField (.ok (.fxXexp (fD w) (fA w)))
  | 11 => .ok (.fxLdexp (fD w) (fA w) (fB w))
  | _ => .error .fnUnlisted

/-- `xl`, lane op 0x0A (R124). -/
def decL_xl (w : Nat) : Except DecodeErr Instr :=
  match fFn w with
  | 0 => .ok (.xlShfl (fD w) (fA w) (fB w))
  | 1 => .ok (.xlShflx (fD w) (fA w) (fB w))
  | 2 => need (fld w 6 0 = 0) .zeroField (.ok (.xlAny (fD w) (fA w)))
  | 3 => need (fld w 6 0 = 0) .zeroField (.ok (.xlAll (fD w) (fA w)))
  | 4 => need (fld w 6 0 = 0) .zeroField (.ok (.xlBallotl (fD w) (fA w)))
  | 5 => need (fld w 6 0 = 0) .zeroField (.ok (.xlBallh (fD w) (fA w)))
  | 6 => need (fld w 6 0 = 0) .zeroField (.ok (.xlScan (fD w) (fA w)))
  | 7 => need (fld w 6 0 = 0) .zeroField (.ok (.xlRed (fD w) (fA w)))
  | 8 => need (fld w 6 0 = 0) .zeroField (.ok (.xlRedmax (fD w) (fA w)))
  | 9 => need (fld w 6 0 = 0) .zeroField (.ok (.xlFred (fD w) (fA w)))
  | 10 => need (fld w 6 0 = 0) .zeroField (.ok (.xlFredmax (fD w) (fA w)))
  | 11 => need (fld w 6 0 = 0) .zeroField (.ok (.xlMatch (fD w) (fA w)))
  | 12 => need (fld w 6 0 = 0) .zeroField (.ok (.xlPopc (fD w) (fA w)))
  | _ => .error .fnUnlisted

/-- `ctl`, lane op 0x0E (R124). -/
def decL_ctl (w : Nat) : Except DecodeErr Instr :=
  match fFn w with
  | 0 => need (fld w 20 14 = 0 ∧ fld w 6 0 = 0) .zeroField (.ok (.ctlJr (fA w)))
  | 1 => need (fld w 20 14 = 0 ∧ fld w 13 7 = 0 ∧ fld w 6 0 = 0) .zeroField (.ok .ctlExit)
  | _ => .error .fnUnlisted

/-- `ld`, lane op 0x0F (R124). -/
def decL_ld (w : Nat) : Except DecodeErr Instr :=
  match fFn w with
  | 0 => .ok (.ldN8 (fD w) (fA w) (fB w))
  | 1 => .ok (.ldI8 (fD w) (fA w) (fB w))
  | 2 => .ok (.ldN16 (fD w) (fA w) (fB w))
  | 3 => .ok (.ldI16 (fD w) (fA w) (fB w))
  | 4 => .ok (.ldB32 (fD w) (fA w) (fB w))
  | 5 => .ok (.ldB64 (fD w) (fA w) (fB w))
  | 6 => .ok (.ldB128 (fD w) (fA w) (fB w))
  | _ => .error .fnUnlisted

/-- `st`, lane op 0x10 (R124). -/
def decL_st (w : Nat) : Except DecodeErr Instr :=
  match fFn w with
  | 0 => .ok (.stB8 (fD w) (fA w) (fB w))
  | 1 => .ok (.stB16 (fD w) (fA w) (fB w))
  | 2 => .ok (.stB32 (fD w) (fA w) (fB w))
  | 3 => .ok (.stB64 (fD w) (fA w) (fB w))
  | 4 => .ok (.stB128 (fD w) (fA w) (fB w))
  | _ => .error .fnUnlisted

/-- `at`, lane op 0x11 (R124). -/
def decL_at (w : Nat) : Except DecodeErr Instr :=
  match fFn w with
  | 0 => .ok (.atAdd (fD w) (fA w) (fB w))
  | 1 => .ok (.atMin (fD w) (fA w) (fB w))
  | 2 => .ok (.atMax (fD w) (fA w) (fB w))
  | 3 => .ok (.atMinn (fD w) (fA w) (fB w))
  | 4 => .ok (.atMaxn (fD w) (fA w) (fB w))
  | 5 => .ok (.atAnd (fD w) (fA w) (fB w))
  | 6 => .ok (.atOr (fD w) (fA w) (fB w))
  | 7 => .ok (.atXor (fD w) (fA w) (fB w))
  | 8 => .ok (.atXchg (fD w) (fA w) (fB w))
  | 9 => .ok (.atCas (fD w) (fA w) (fB w))
  | 10 => .ok (.atFadd (fD w) (fA w) (fB w))
  | _ => .error .fnUnlisted

/-- `sel`, lane op 0x12 (R124). -/
def decL_sel (w : Nat) : Except DecodeErr Instr :=
  match fFn w with
  | 0 => .ok (.sel (fD w) (fA w) (fB w))
  | _ => .error .fnUnlisted

/-- `sr`, lane op 0x13 (R124). -/
def decL_sr (w : Nat) : Except DecodeErr Instr :=
  match fFn w with
  | 0 => need (fld w 13 7 = 0) .zeroField <| need (fld w 6 0 ≤ 12) .literal (.ok (.sr (fD w) (fB w)))
  | _ => .error .fnUnlisted

/-- `ix`, lane op 0x14 (R124). -/
def decL_ix (w : Nat) : Except DecodeErr Instr :=
  match fFn w with
  | 0 => .ok (.ixRd (fD w) (fA w) (fB w))
  | 1 => .ok (.ixWr (fD w) (fA w) (fB w))
  | _ => .error .fnUnlisted

/-- `pl`, lane op 0x15 (R124). -/
def decL_pl (w : Nat) : Except DecodeErr Instr :=
  match fFn w with
  | 0 => need (fld w 6 0 ≤ 15) .classRange (.ok (.plApply (fD w) (fA w) (fP w)))
  | 1 => need (fld w 6 0 ≤ 15) .classRange (.ok (.plApplyi (fD w) (fA w) (fP w)))
  | 2 => need (fld w 13 7 = 0) .zeroField <| need (fld w 6 0 ≤ 15) .classRange (.ok (.plIdx (fD w) (fP w)))
  | 3 => need (fld w 13 7 = 0) .zeroField <| need (fld w 6 0 ≤ 15) .classRange (.ok (.plPos (fD w) (fP w)))
  | 4 => need (fld w 13 7 = 0) .zeroField <| need (fld w 6 0 ≤ 15) .classRange (.ok (.plCyclen (fD w) (fP w)))
  | 5 => need (fld w 13 7 = 0) .zeroField <| need (fld w 6 0 ≤ 15) .classRange (.ok (.plCycmin (fD w) (fP w)))
  | _ => .error .fnUnlisted

/-- `mx`, lane op 0x16 (R124). -/
def decL_mx (w : Nat) : Except DecodeErr Instr :=
  match fFn w with
  | 0 => need (fld w 20 14 ≤ 7) .classRange (.ok (.mxMma (fD w) (fA w) (fB w)))
  | 1 => need (fld w 20 14 ≤ 7) .classRange (.ok (.mxMmag (fD w) (fA w) (fB w)))
  | 2 => need (fld w 20 14 ≤ 7) .classRange (.ok (.mxMcv (fD w) (fA w) (fB w)))
  | 3 => need (fld w 13 7 = 0 ∧ fld w 6 0 = 0) .zeroField <| need (fld w 20 14 ≤ 7) .classRange (.ok (.mxZero (fD w)))
  | 4 => need (fld w 13 7 ≤ 7) .classRange (.ok (.mxGet (fD w) (fA w) (fB w)))
  | 5 => need (fld w 20 14 ≤ 7) .classRange (.ok (.mxPut (fD w) (fA w) (fB w)))
  | 6 => need (fld w 6 0 = 0) .zeroField <| need (fld w 20 14 ≤ 7) .classRange (.ok (.mxSto (fD w) (fA w)))
  | 7 => need (fld w 6 0 = 0) .zeroField <| need (fld w 13 7 ≤ 7) .classRange (.ok (.mxRmax (fD w) (fA w)))
  | 8 => need (fld w 6 0 = 0) .zeroField <| need (fld w 20 14 ≤ 7) .classRange (.ok (.mxRscale (fD w) (fA w)))
  | _ => .error .fnUnlisted

/-- `sys`, lane op 0x17 (R124). -/
def decL_sys (w : Nat) : Except DecodeErr Instr :=
  match fFn w with
  | 0 => need (fld w 20 14 = 0 ∧ fld w 13 7 = 0 ∧ fld w 6 0 = 0) .zeroField (.ok .sysNop)
  | 1 => need (fld w 20 14 = 0 ∧ fld w 13 7 = 0) .zeroField (.ok (.sysBrk (fB w)))
  | 2 => need (fld w 20 14 = 0 ∧ fld w 13 7 = 0) .zeroField (.ok (.sysTrap (fB w)))
  | _ => .error .fnUnlisted

/-- `ua`, group op 0x00 (R125). -/
def decG_ua (w : Nat) : Except DecodeErr Instr :=
  match fFn w with
  | 0 => .ok (.uaAdd (fD w) (fA w) (fB w))
  | 1 => .ok (.uaSub (fD w) (fA w) (fB w))
  | 2 => .ok (.uaMul (fD w) (fA w) (fB w))
  | 3 => .ok (.uaAnd (fD w) (fA w) (fB w))
  | 4 => .ok (.uaOr (fD w) (fA w) (fB w))
  | 5 => .ok (.uaXor (fD w) (fA w) (fB w))
  | 6 => .ok (.uaShl (fD w) (fA w) (fB w))
  | 7 => .ok (.uaShr (fD w) (fA w) (fB w))
  | 8 => .ok (.uaMin (fD w) (fA w) (fB w))
  | 9 => .ok (.uaMax (fD w) (fA w) (fB w))
  | 10 => .ok (.uaMinn (fD w) (fA w) (fB w))
  | 11 => .ok (.uaMaxn (fD w) (fA w) (fB w))
  | _ => .error .fnUnlisted

/-- `uc`, group op 0x01 (R125). -/
def decG_uc (w : Nat) : Except DecodeErr Instr :=
  match fFn w with
  | 0 => .ok (.ucEq (fD w) (fA w) (fB w))
  | 1 => .ok (.ucNe (fD w) (fA w) (fB w))
  | 2 => .ok (.ucLt (fD w) (fA w) (fB w))
  | 3 => .ok (.ucLtn (fD w) (fA w) (fB w))
  | _ => .error .fnUnlisted

/-- `sync`, group op 0x07 (R125). -/
def decG_sync (w : Nat) : Except DecodeErr Instr :=
  match fFn w with
  | 0 => need (fld w 13 7 = 0 ∧ fld w 6 0 = 0) .zeroField <| need (fld w 20 14 ≤ 63) .classRange (.ok (.syncBar (fD w)))
  | 1 => need (fld w 13 7 = 0 ∧ fld w 6 0 = 0) .zeroField <| need (fld w 20 14 ≤ 63) .classRange (.ok (.syncArr (fD w)))
  | 2 => need (fld w 13 7 = 0 ∧ fld w 6 0 = 0) .zeroField <| need (fld w 20 14 ≤ 63) .classRange (.ok (.syncWt (fD w)))
  | 3 => need (fld w 6 0 = 0) .zeroField <| need (fld w 20 14 ≤ 4) .literal (.ok (.syncOc (fD w) (fA w)))
  | 4 => need (fld w 6 0 = 0) .zeroField <| need (fld w 20 14 ≤ 5 ∧ fld w 13 7 ≤ 3 ∧ 1 ≤ fld w 13 7) .literal (.ok (.syncFence (fD w) (fA w)))
  | 5 => need (fld w 20 14 = 0) .zeroField (.ok (.syncMwait (fA w) (fB w)))
  | 6 => need (fld w 20 14 = 0 ∧ fld w 13 7 = 0 ∧ fld w 6 0 = 0) .zeroField (.ok .syncTrig)
  | 7 => need (fld w 20 14 = 0 ∧ fld w 13 7 = 0 ∧ fld w 6 0 = 0) .zeroField (.ok .syncDwait)
  | _ => .error .fnUnlisted

/-- `eng`, group op 0x08 (R125). -/
def decG_eng (w : Nat) : Except DecodeErr Instr :=
  match fFn w with
  | 0 => need (fld w 6 0 = 0) .zeroField <| need (fld w 20 14 ≤ 3) .literal (.ok (.engCopy (fD w) (fA w)))
  | 1 => need (fld w 20 14 = 0 ∧ fld w 6 0 = 0) .zeroField (.ok (.engQuant (fA w)))
  | 2 => need (fld w 20 14 = 0 ∧ fld w 6 0 = 0) .zeroField (.ok (.engPut (fA w)))
  | 3 => need (fld w 20 14 = 0 ∧ fld w 6 0 = 0) .zeroField (.ok (.engGet (fA w)))
  | _ => .error .fnUnlisted

/-- `pm`, group op 0x09 (R125). -/
def decG_pm (w : Nat) : Except DecodeErr Instr :=
  match fFn w with
  | 0 => need (fld w 6 0 = 0) .zeroField <| need (fld w 20 14 ≤ 15) .classRange (.ok (.pmLoad (fD w) (fA w)))
  | 1 => need (fld w 6 0 = 0) .zeroField <| need (fld w 13 7 ≤ 3) .literal <| need (fld w 20 14 ≤ 15) .classRange (.ok (.pmIdent (fD w) (fA w)))
  | 2 => need (fld w 20 14 ≤ 15 ∧ fld w 13 7 ≤ 15 ∧ fld w 6 0 ≤ 15) .classRange (.ok (.pmComp (fD w) (fA w) (fB w)))
  | 3 => need (fld w 6 0 = 0) .zeroField <| need (fld w 20 14 ≤ 15 ∧ fld w 13 7 ≤ 15) .classRange (.ok (.pmInv (fD w) (fA w)))
  | 4 => need (fld w 6 0 ≤ 3) .literal <| need (fld w 20 14 ≤ 15) .classRange (.ok (.pmRand (fD w) (fA w) (fB w)))
  | 5 => need (fld w 6 0 = 0) .zeroField <| need (fld w 13 7 ≤ 15) .classRange (.ok (.pmCyc (fD w) (fA w)))
  | 6 => need (fld w 6 0 = 0) .zeroField <| need (fld w 13 7 ≤ 15) .classRange (.ok (.pmSave (fD w) (fA w)))
  | 7 => need (fld w 6 0 = 0) .zeroField <| need (fld w 20 14 ≤ 15) .classRange (.ok (.pmRest (fD w) (fA w)))
  | _ => .error .fnUnlisted

/-- `ob`, group op 0x0A (R125). -/
def decG_ob (w : Nat) : Except DecodeErr Instr :=
  match fFn w with
  | 0 => need (fld w 6 0 = 0) .zeroField (.ok (.obRsv (fD w) (fA w)))
  | 1 => need (fld w 20 14 = 0 ∧ fld w 6 0 = 0) .zeroField (.ok (.obRel (fA w)))
  | 2 => need (fld w 20 14 = 0 ∧ fld w 6 0 = 0) .zeroField (.ok (.obRec (fA w)))
  | _ => .error .fnUnlisted

/-- `mode`, group op 0x0B (R125). -/
def decG_mode (w : Nat) : Except DecodeErr Instr :=
  match fFn w with
  | 0 => need (fld w 13 7 = 0) .zeroField <| need (fld w 6 0 ≤ 0) .literal (.ok (.modeRd (fD w)))
  | 1 => need (fld w 20 14 = 0) .zeroField <| need (fld w 6 0 ≤ 0) .literal (.ok (.modeWr (fA w)))
  | _ => .error .fnUnlisted

/-- `gate`, group op 0x0C (R125). -/
def decG_gate (w : Nat) : Except DecodeErr Instr :=
  match fFn w with
  | 0 => need (fld w 20 14 = 0 ∧ fld w 6 0 = 0) .zeroField (.ok (.gateCall (fA w)))
  | 1 => need (fld w 20 14 = 0 ∧ fld w 13 7 = 0 ∧ fld w 6 0 = 0) .zeroField (.ok .gateRet)
  | _ => .error .fnUnlisted

/-- `ctr`, group op 0x0D (R125). -/
def decG_ctr (w : Nat) : Except DecodeErr Instr :=
  match fFn w with
  | 0 => need (fld w 6 0 = 0) .zeroField <| need (fld w 13 7 ≤ 15) .literal (.ok (.ctrRd (fD w) (fA w)))
  | 1 => need (fld w 20 14 = 0 ∧ fld w 6 0 = 0) .zeroField (.ok (.ctrMark (fA w)))
  | _ => .error .fnUnlisted

/-- `uld`, group op 0x0E (R125). -/
def decG_uld (w : Nat) : Except DecodeErr Instr :=
  match fFn w with
  | 0 => .ok (.uldB32 (fD w) (fA w) (fB w))
  | 1 => .ok (.uldB64 (fD w) (fA w) (fB w))
  | _ => .error .fnUnlisted

/-- `ust`, group op 0x0F (R125). -/
def decG_ust (w : Nat) : Except DecodeErr Instr :=
  match fFn w with
  | 0 => .ok (.ustB32 (fD w) (fA w) (fB w))
  | _ => .error .fnUnlisted

/-- The spar (R120). -/
def decSpar (w : Nat) : Except DecodeErr Instr :=
  need (fld w 1 0 = 0) .sparBits (.ok (.spar (fN 4 w 24 21) (fN 4 w 20 17) (fN 4 w 16 13) (fN 4 w 12 9) (fN 1 w 8 8) (fN 1 w 7 7) (fN 3 w 6 4) (fN 2 w 3 2)))

/-- The lane-set map (R124). -/
def decodeLane (w : Nat) : Except DecodeErr Instr :=
  match fld w 30 25 with
  | 0 => decL_ia w
  | 1 => decL_ic w
  | 2 => .ok (.iai (fDI w) (fAI w) (fImm11 w))
  | 3 => decL_ish w
  | 4 => .ok (.lim (fDI w) (fImm18 w))
  | 5 => .ok (.lih (fDI w) (fImm18 w))
  | 6 => decL_fa w
  | 7 => decL_fh w
  | 8 => decL_fc w
  | 9 => decL_fx w
  | 10 => decL_xl w
  | 11 => .ok (.brz (fDI w) (fImm18 w))
  | 12 => .ok (.brnz (fDI w) (fImm18 w))
  | 13 => if fld w 24 18 = 0 then .ok (.jmp (fImm18 w)) else .ok (.jmpLink (fDI w) (fImm18 w))
  | 14 => decL_ctl w
  | 15 => decL_ld w
  | 16 => decL_st w
  | 17 => decL_at w
  | 18 => decL_sel w
  | 19 => decL_sr w
  | 20 => decL_ix w
  | 21 => decL_pl w
  | 22 => decL_mx w
  | 23 => decL_sys w
  | 63 => decSpar w
  | _ => .error .opUnused

/-- The group-set map (R125). -/
def decodeGroup (w : Nat) : Except DecodeErr Instr :=
  match fld w 30 25 with
  | 0 => decG_ua w
  | 1 => decG_uc w
  | 2 => .ok (.uai (fDI w) (fAI w) (fImm11 w))
  | 3 => .ok (.ulim (fDI w) (fImm18 w))
  | 4 => .ok (.ulih (fDI w) (fImm18 w))
  | 5 => .ok (.ubrz (fDI w) (fImm18 w))
  | 6 => .ok (.ubrnz (fDI w) (fImm18 w))
  | 7 => decG_sync w
  | 8 => decG_eng w
  | 9 => decG_pm w
  | 10 => decG_ob w
  | 11 => decG_mode w
  | 12 => decG_gate w
  | 13 => decG_ctr w
  | 14 => decG_uld w
  | 15 => decG_ust w
  | _ => .error .opUnused

/-- The instruction a 32-bit word stands for, or why it is none (R117, R126). -/
def decode (w : Nat) : Except DecodeErr Instr :=
  if fld w 31 31 = 0 then decodeLane w else decodeGroup w

/-- A word from its four bytes, lowest address first (R3). -/
def wordOfBytes : List Byte → Option Nat
  | b0 :: b1 :: b2 :: b3 :: _ => some (b0.toNat + 2 ^ 8 * b1.toNat + 2 ^ 16 * b2.toNat + 2 ^ 24 * b3.toNat)
  | _ => none

/-- A word's four bytes, lowest address first (R3). -/
def bytesOfWord (w : Nat) : List Byte :=
  [BitVec.ofNat 8 w, BitVec.ofNat 8 (w / 2 ^ 8), BitVec.ofNat 8 (w / 2 ^ 16), BitVec.ofNat 8 (w / 2 ^ 24)]

/-- The decoder over bytes as memory holds them: total; `none` when fewer than four bytes stand or the word is
illegal. -/
def decodeBytes (bs : List Byte) : Option Instr :=
  match wordOfBytes bs with
  | some w => (decode w).toOption
  | none => none

/-- The instruction the decoder reads from a word whose bits are `w` (bit 0 the least significant of the first word),
of which `nbits` are given and the rest are 0. -/
def decodeTableWord (nbits w : Nat) : Option Instr := decodeBytes (bytesOfWord (w % 2 ^ nbits))

/-- Formats R and M (R118). -/
def encR (s op fn d a b : Nat) : Nat := s * 2 ^ 31 + op * 2 ^ 25 + fn * 2 ^ 21 + d * 2 ^ 14 + a * 2 ^ 7 + b
/-- Format I (R118). -/
def encI (s op d a imm : Nat) : Nat := s * 2 ^ 31 + op * 2 ^ 25 + d * 2 ^ 18 + a * 2 ^ 11 + imm
/-- Formats L and J (R118). -/
def encL (s op d imm : Nat) : Nat := s * 2 ^ 31 + op * 2 ^ 25 + d * 2 ^ 18 + imm
/-- The spar (R120). -/
def encSpar (cc dx ax bx ta tb q o : Nat) : Nat :=
  0x3F * 2 ^ 25 + cc * 2 ^ 21 + dx * 2 ^ 17 + ax * 2 ^ 13 + bx * 2 ^ 9 + ta * 2 ^ 8 + tb * 2 ^ 7 + q * 2 ^ 4 + o * 2 ^ 2

/-- The word of an instruction, from the same tables; a step of another agent has none. -/
def encode : Instr → Option Nat
  | .iaAdd d a b => some (encR 0 0x00 0 d.toNat a.toNat b.toNat)
  | .iaSub d a b => some (encR 0 0x00 1 d.toNat a.toNat b.toNat)
  | .iaMul d a b => some (encR 0 0x00 2 d.toNat a.toNat b.toNat)
  | .iaMulh d a b => some (encR 0 0x00 3 d.toNat a.toNat b.toNat)
  | .iaMulhn d a b => some (encR 0 0x00 4 d.toNat a.toNat b.toNat)
  | .iaMin d a b => some (encR 0 0x00 5 d.toNat a.toNat b.toNat)
  | .iaMax d a b => some (encR 0 0x00 6 d.toNat a.toNat b.toNat)
  | .iaMinn d a b => some (encR 0 0x00 7 d.toNat a.toNat b.toNat)
  | .iaMaxn d a b => some (encR 0 0x00 8 d.toNat a.toNat b.toNat)
  | .iaAnd d a b => some (encR 0 0x00 9 d.toNat a.toNat b.toNat)
  | .iaOr d a b => some (encR 0 0x00 10 d.toNat a.toNat b.toNat)
  | .iaXor d a b => some (encR 0 0x00 11 d.toNat a.toNat b.toNat)
  | .iaShl d a b => some (encR 0 0x00 12 d.toNat a.toNat b.toNat)
  | .iaShr d a b => some (encR 0 0x00 13 d.toNat a.toNat b.toNat)
  | .iaSar d a b => some (encR 0 0x00 14 d.toNat a.toNat b.toNat)
  | .iaRot d a b => some (encR 0 0x00 15 d.toNat a.toNat b.toNat)
  | .icEq d a b => some (encR 0 0x01 0 d.toNat a.toNat b.toNat)
  | .icNe d a b => some (encR 0 0x01 1 d.toNat a.toNat b.toNat)
  | .icLt d a b => some (encR 0 0x01 2 d.toNat a.toNat b.toNat)
  | .icLe d a b => some (encR 0 0x01 3 d.toNat a.toNat b.toNat)
  | .icLtn d a b => some (encR 0 0x01 4 d.toNat a.toNat b.toNat)
  | .icLen d a b => some (encR 0 0x01 5 d.toNat a.toNat b.toNat)
  | .iai d a imm => some (encI 0 0x02 d.toNat a.toNat imm.toNat)
  | .ishShl d a b => some (encR 0 0x03 0 d.toNat a.toNat b.toNat)
  | .ishShr d a b => some (encR 0 0x03 1 d.toNat a.toNat b.toNat)
  | .ishSar d a b => some (encR 0 0x03 2 d.toNat a.toNat b.toNat)
  | .ishRot d a b => some (encR 0 0x03 3 d.toNat a.toNat b.toNat)
  | .lim d imm => some (encL 0 0x04 d.toNat imm.toNat)
  | .lih d imm => some (encL 0 0x05 d.toNat imm.toNat)
  | .faAdd d a b => some (encR 0 0x06 0 d.toNat a.toNat b.toNat)
  | .faSub d a b => some (encR 0 0x06 1 d.toNat a.toNat b.toNat)
  | .faMul d a b => some (encR 0 0x06 2 d.toNat a.toNat b.toNat)
  | .faFma d a b => some (encR 0 0x06 3 d.toNat a.toNat b.toNat)
  | .faFms d a b => some (encR 0 0x06 4 d.toNat a.toNat b.toNat)
  | .faMin d a b => some (encR 0 0x06 5 d.toNat a.toNat b.toNat)
  | .faMax d a b => some (encR 0 0x06 6 d.toNat a.toNat b.toNat)
  | .faAbs d a => some (encR 0 0x06 7 d.toNat a.toNat 0)
  | .faNeg d a => some (encR 0 0x06 8 d.toNat a.toNat 0)
  | .faEq d a b => some (encR 0 0x06 9 d.toNat a.toNat b.toNat)
  | .faLt d a b => some (encR 0 0x06 10 d.toNat a.toNat b.toNat)
  | .faLe d a b => some (encR 0 0x06 11 d.toNat a.toNat b.toNat)
  | .fhHadd d a b => some (encR 0 0x07 0 d.toNat a.toNat b.toNat)
  | .fhHmul d a b => some (encR 0 0x07 1 d.toNat a.toNat b.toNat)
  | .fhHfma d a b => some (encR 0 0x07 2 d.toNat a.toNat b.toNat)
  | .fhHmin d a b => some (encR 0 0x07 3 d.toNat a.toNat b.toNat)
  | .fhHmax d a b => some (encR 0 0x07 4 d.toNat a.toNat b.toNat)
  | .fhBadd d a b => some (encR 0 0x07 5 d.toNat a.toNat b.toNat)
  | .fhBmul d a b => some (encR 0 0x07 6 d.toNat a.toNat b.toNat)
  | .fhBfma d a b => some (encR 0 0x07 7 d.toNat a.toNat b.toNat)
  | .fhBmin d a b => some (encR 0 0x07 8 d.toNat a.toNat b.toNat)
  | .fhBmax d a b => some (encR 0 0x07 9 d.toNat a.toNat b.toNat)
  | .fcF32i d a => some (encR 0 0x08 0 d.toNat a.toNat 0)
  | .fcF32n d a => some (encR 0 0x08 1 d.toNat a.toNat 0)
  | .fcIf32 d a => some (encR 0 0x08 2 d.toNat a.toNat 0)
  | .fcNf32 d a => some (encR 0 0x08 3 d.toNat a.toNat 0)
  | .fcH16f32 d a b => some (encR 0 0x08 4 d.toNat a.toNat b.toNat)
  | .fcF32h16 d a b => some (encR 0 0x08 5 d.toNat a.toNat b.toNat)
  | .fcBf16f32 d a b => some (encR 0 0x08 6 d.toNat a.toNat b.toNat)
  | .fcF32bf16 d a b => some (encR 0 0x08 7 d.toNat a.toNat b.toNat)
  | .fcLt8f32 d a b => some (encR 0 0x08 8 d.toNat a.toNat b.toNat)
  | .fcF32lt8 d a b => some (encR 0 0x08 9 d.toNat a.toNat b.toNat)
  | .fxRcp d a => some (encR 0 0x09 0 d.toNat a.toNat 0)
  | .fxRsqrt d a => some (encR 0 0x09 1 d.toNat a.toNat 0)
  | .fxSqrt d a => some (encR 0 0x09 2 d.toNat a.toNat 0)
  | .fxExp2 d a => some (encR 0 0x09 3 d.toNat a.toNat 0)
  | .fxLog2 d a => some (encR 0 0x09 4 d.toNat a.toNat 0)
  | .fxSinpi d a => some (encR 0 0x09 5 d.toNat a.toNat 0)
  | .fxCospi d a => some (encR 0 0x09 6 d.toNat a.toNat 0)
  | .fxTanh d a => some (encR 0 0x09 7 d.toNat a.toNat 0)
  | .fxCeil d a => some (encR 0 0x09 8 d.toNat a.toNat 0)
  | .fxFloor d a => some (encR 0 0x09 9 d.toNat a.toNat 0)
  | .fxXexp d a => some (encR 0 0x09 10 d.toNat a.toNat 0)
  | .fxLdexp d a b => some (encR 0 0x09 11 d.toNat a.toNat b.toNat)
  | .xlShfl d a b => some (encR 0 0x0A 0 d.toNat a.toNat b.toNat)
  | .xlShflx d a b => some (encR 0 0x0A 1 d.toNat a.toNat b.toNat)
  | .xlAny d a => some (encR 0 0x0A 2 d.toNat a.toNat 0)
  | .xlAll d a => some (encR 0 0x0A 3 d.toNat a.toNat 0)
  | .xlBallotl d a => some (encR 0 0x0A 4 d.toNat a.toNat 0)
  | .xlBallh d a => some (encR 0 0x0A 5 d.toNat a.toNat 0)
  | .xlScan d a => some (encR 0 0x0A 6 d.toNat a.toNat 0)
  | .xlRed d a => some (encR 0 0x0A 7 d.toNat a.toNat 0)
  | .xlRedmax d a => some (encR 0 0x0A 8 d.toNat a.toNat 0)
  | .xlFred d a => some (encR 0 0x0A 9 d.toNat a.toNat 0)
  | .xlFredmax d a => some (encR 0 0x0A 10 d.toNat a.toNat 0)
  | .xlMatch d a => some (encR 0 0x0A 11 d.toNat a.toNat 0)
  | .xlPopc d a => some (encR 0 0x0A 12 d.toNat a.toNat 0)
  | .brz a off => some (encL 0 0x0B a.toNat off.toNat)
  | .brnz a off => some (encL 0 0x0C a.toNat off.toNat)
  | .jmp off => some (encL 0 0x0D 0 off.toNat)
  | .jmpLink a off => some (encL 0 0x0D a.toNat off.toNat)
  | .ctlJr a => some (encR 0 0x0E 0 0 a.toNat 0)
  | .ctlExit => some (encR 0 0x0E 1 0 0 0)
  | .ldN8 d a off => some (encR 0 0x0F 0 d.toNat a.toNat off.toNat)
  | .ldI8 d a off => some (encR 0 0x0F 1 d.toNat a.toNat off.toNat)
  | .ldN16 d a off => some (encR 0 0x0F 2 d.toNat a.toNat off.toNat)
  | .ldI16 d a off => some (encR 0 0x0F 3 d.toNat a.toNat off.toNat)
  | .ldB32 d a off => some (encR 0 0x0F 4 d.toNat a.toNat off.toNat)
  | .ldB64 d a off => some (encR 0 0x0F 5 d.toNat a.toNat off.toNat)
  | .ldB128 d a off => some (encR 0 0x0F 6 d.toNat a.toNat off.toNat)
  | .stB8 d a off => some (encR 0 0x10 0 d.toNat a.toNat off.toNat)
  | .stB16 d a off => some (encR 0 0x10 1 d.toNat a.toNat off.toNat)
  | .stB32 d a off => some (encR 0 0x10 2 d.toNat a.toNat off.toNat)
  | .stB64 d a off => some (encR 0 0x10 3 d.toNat a.toNat off.toNat)
  | .stB128 d a off => some (encR 0 0x10 4 d.toNat a.toNat off.toNat)
  | .atAdd d a b => some (encR 0 0x11 0 d.toNat a.toNat b.toNat)
  | .atMin d a b => some (encR 0 0x11 1 d.toNat a.toNat b.toNat)
  | .atMax d a b => some (encR 0 0x11 2 d.toNat a.toNat b.toNat)
  | .atMinn d a b => some (encR 0 0x11 3 d.toNat a.toNat b.toNat)
  | .atMaxn d a b => some (encR 0 0x11 4 d.toNat a.toNat b.toNat)
  | .atAnd d a b => some (encR 0 0x11 5 d.toNat a.toNat b.toNat)
  | .atOr d a b => some (encR 0 0x11 6 d.toNat a.toNat b.toNat)
  | .atXor d a b => some (encR 0 0x11 7 d.toNat a.toNat b.toNat)
  | .atXchg d a b => some (encR 0 0x11 8 d.toNat a.toNat b.toNat)
  | .atCas d a b => some (encR 0 0x11 9 d.toNat a.toNat b.toNat)
  | .atFadd d a b => some (encR 0 0x11 10 d.toNat a.toNat b.toNat)
  | .sel d a b => some (encR 0 0x12 0 d.toNat a.toNat b.toNat)
  | .sr d b => some (encR 0 0x13 0 d.toNat 0 b.toNat)
  | .ixRd d a b => some (encR 0 0x14 0 d.toNat a.toNat b.toNat)
  | .ixWr d a b => some (encR 0 0x14 1 d.toNat a.toNat b.toNat)
  | .plApply d a b => some (encR 0 0x15 0 d.toNat a.toNat b.toNat)
  | .plApplyi d a b => some (encR 0 0x15 1 d.toNat a.toNat b.toNat)
  | .plIdx d b => some (encR 0 0x15 2 d.toNat 0 b.toNat)
  | .plPos d b => some (encR 0 0x15 3 d.toNat 0 b.toNat)
  | .plCyclen d b => some (encR 0 0x15 4 d.toNat 0 b.toNat)
  | .plCycmin d b => some (encR 0 0x15 5 d.toNat 0 b.toNat)
  | .mxMma d a b => some (encR 0 0x16 0 d.toNat a.toNat b.toNat)
  | .mxMmag d a b => some (encR 0 0x16 1 d.toNat a.toNat b.toNat)
  | .mxMcv d a b => some (encR 0 0x16 2 d.toNat a.toNat b.toNat)
  | .mxZero d => some (encR 0 0x16 3 d.toNat 0 0)
  | .mxGet d a b => some (encR 0 0x16 4 d.toNat a.toNat b.toNat)
  | .mxPut d a b => some (encR 0 0x16 5 d.toNat a.toNat b.toNat)
  | .mxSto d a => some (encR 0 0x16 6 d.toNat a.toNat 0)
  | .mxRmax d a => some (encR 0 0x16 7 d.toNat a.toNat 0)
  | .mxRscale d a => some (encR 0 0x16 8 d.toNat a.toNat 0)
  | .sysNop => some (encR 0 0x17 0 0 0 0)
  | .sysBrk b => some (encR 0 0x17 1 0 0 b.toNat)
  | .sysTrap b => some (encR 0 0x17 2 0 0 b.toNat)
  | .spar cc dx ax bx ta tb q o => some (encSpar cc.toNat dx.toNat ax.toNat bx.toNat ta.toNat tb.toNat q.toNat o.toNat)
  | .uaAdd d a b => some (encR 1 0x00 0 d.toNat a.toNat b.toNat)
  | .uaSub d a b => some (encR 1 0x00 1 d.toNat a.toNat b.toNat)
  | .uaMul d a b => some (encR 1 0x00 2 d.toNat a.toNat b.toNat)
  | .uaAnd d a b => some (encR 1 0x00 3 d.toNat a.toNat b.toNat)
  | .uaOr d a b => some (encR 1 0x00 4 d.toNat a.toNat b.toNat)
  | .uaXor d a b => some (encR 1 0x00 5 d.toNat a.toNat b.toNat)
  | .uaShl d a b => some (encR 1 0x00 6 d.toNat a.toNat b.toNat)
  | .uaShr d a b => some (encR 1 0x00 7 d.toNat a.toNat b.toNat)
  | .uaMin d a b => some (encR 1 0x00 8 d.toNat a.toNat b.toNat)
  | .uaMax d a b => some (encR 1 0x00 9 d.toNat a.toNat b.toNat)
  | .uaMinn d a b => some (encR 1 0x00 10 d.toNat a.toNat b.toNat)
  | .uaMaxn d a b => some (encR 1 0x00 11 d.toNat a.toNat b.toNat)
  | .ucEq d a b => some (encR 1 0x01 0 d.toNat a.toNat b.toNat)
  | .ucNe d a b => some (encR 1 0x01 1 d.toNat a.toNat b.toNat)
  | .ucLt d a b => some (encR 1 0x01 2 d.toNat a.toNat b.toNat)
  | .ucLtn d a b => some (encR 1 0x01 3 d.toNat a.toNat b.toNat)
  | .uai d a imm => some (encI 1 0x02 d.toNat a.toNat imm.toNat)
  | .ulim d imm => some (encL 1 0x03 d.toNat imm.toNat)
  | .ulih d imm => some (encL 1 0x04 d.toNat imm.toNat)
  | .ubrz a off => some (encL 1 0x05 a.toNat off.toNat)
  | .ubrnz a off => some (encL 1 0x06 a.toNat off.toNat)
  | .syncBar d => some (encR 1 0x07 0 d.toNat 0 0)
  | .syncArr d => some (encR 1 0x07 1 d.toNat 0 0)
  | .syncWt d => some (encR 1 0x07 2 d.toNat 0 0)
  | .syncOc d a => some (encR 1 0x07 3 d.toNat a.toNat 0)
  | .syncFence d a => some (encR 1 0x07 4 d.toNat a.toNat 0)
  | .syncMwait a b => some (encR 1 0x07 5 0 a.toNat b.toNat)
  | .syncTrig => some (encR 1 0x07 6 0 0 0)
  | .syncDwait => some (encR 1 0x07 7 0 0 0)
  | .engCopy d a => some (encR 1 0x08 0 d.toNat a.toNat 0)
  | .engQuant a => some (encR 1 0x08 1 0 a.toNat 0)
  | .engPut a => some (encR 1 0x08 2 0 a.toNat 0)
  | .engGet a => some (encR 1 0x08 3 0 a.toNat 0)
  | .pmLoad d a => some (encR 1 0x09 0 d.toNat a.toNat 0)
  | .pmIdent d a => some (encR 1 0x09 1 d.toNat a.toNat 0)
  | .pmComp d a b => some (encR 1 0x09 2 d.toNat a.toNat b.toNat)
  | .pmInv d a => some (encR 1 0x09 3 d.toNat a.toNat 0)
  | .pmRand d a b => some (encR 1 0x09 4 d.toNat a.toNat b.toNat)
  | .pmCyc d a => some (encR 1 0x09 5 d.toNat a.toNat 0)
  | .pmSave d a => some (encR 1 0x09 6 d.toNat a.toNat 0)
  | .pmRest d a => some (encR 1 0x09 7 d.toNat a.toNat 0)
  | .obRsv d a => some (encR 1 0x0A 0 d.toNat a.toNat 0)
  | .obRel a => some (encR 1 0x0A 1 0 a.toNat 0)
  | .obRec a => some (encR 1 0x0A 2 0 a.toNat 0)
  | .modeRd d => some (encR 1 0x0B 0 d.toNat 0 0)
  | .modeWr a => some (encR 1 0x0B 1 0 a.toNat 0)
  | .gateCall a => some (encR 1 0x0C 0 0 a.toNat 0)
  | .gateRet => some (encR 1 0x0C 1 0 0 0)
  | .ctrRd d a => some (encR 1 0x0D 0 d.toNat a.toNat 0)
  | .ctrMark a => some (encR 1 0x0D 1 0 a.toNat 0)
  | .uldB32 d a off => some (encR 1 0x0E 0 d.toNat a.toNat off.toNat)
  | .uldB64 d a off => some (encR 1 0x0E 1 d.toNat a.toNat off.toNat)
  | .ustB32 d a off => some (encR 1 0x0F 0 d.toNat a.toNat off.toNat)
  | _ => none

end Sys2Proof
end

