-- ==== Sys2Proof/Config.lean ====
section
/-! DEFINITION. What the implementation fixes and the manual leaves open: free values (opaque constants: nothing can
evaluate them) and the cryptographic functions that the manual takes from other standards. -/

namespace Sys2Proof.Machine

open Sys2Proof

/-- What moves next: a clock, an issue, time, or a step of another agent, with what comes from outside the part in its
arguments (DESIGN CHOICE, log 2). -/
inductive Choice where
  /-- the clock of a core advances by one -/
  | clock (core : Nat)
  /-- the issue logic of a partition takes its clock, or issues the pick it still owes -/
  | issue (core part : Nat)
  /-- the hub's cycle advances by one, its time by `ns` nanoseconds -/
  | hubTick (ns : Nat)
  /-- a die's time advances by `ns` nanoseconds -/
  | dieTime (die ns : Nat)
  /-- the hub's time is corrected backwards by some nanoseconds -/
  | correct (back : Nat)
  /-- the host reads the hub's register space, eight bytes at an offset -/
  | hostRead (off : Nat)
  /-- the host writes eight bytes there -/
  | hostWrite (off v : Nat)
  /-- a host read reaches eight bytes of device memory -/
  | hostFetch (pa : Nat)
  /-- a step of another agent -/
  | event (i : Instr)
deriving DecidableEq, Repr, Inhabited

end Sys2Proof.Machine

namespace Sys2Proof.Config

open Sys2Proof

/-- SHA3-512 (R142, R283, R286), 64 bytes. A standard outside the manual: its values are left open (DESIGN CHOICE, log 10). -/
opaque sha3 : List Byte → List Byte

/-- ML-DSA-87 verification of a signature of a digest under a key (R142), left open (DESIGN CHOICE, log 10). -/
opaque mldsaVerify : List Byte → List Byte → List Byte → Bool

/-- ML-DSA-87 signature of a digest with a private key (R286), left open (DESIGN CHOICE, log 10). -/
opaque mldsaSign : List Byte → List Byte → List Byte

/-- The ML-DSA-87 key pair of a seed, public key first (R283), left open (DESIGN CHOICE, log 10). -/
opaque mldsaKeys : List Byte → List Byte × List Byte

/-- The response of the on-die unclonable function (R283), left open (DESIGN CHOICE, log 10). -/
opaque unclonable : List Byte

/-- The digest of the root public key in the boot ROM (R283), left open (DESIGN CHOICE, log 10). -/
opaque rootDigest : List Byte

/-- The device identity key pair (R283): its seed is the first 32 bytes of the SHA3-512 of the function's response. -/
def identity : List Byte × List Byte := mldsaKeys ((sha3 unclonable).take 32)

/-- A free byte, by a count of the state, for a byte whose value the manual does not give (DESIGN CHOICE, log 11). -/
opaque freeByte : Nat → Byte

/-- A free word, by a count of the state, for a result whose value the manual does not give (DESIGN CHOICE, log 11). -/
opaque freeWord : Nat → Word

/-- The bounds of the mailbox versions that the hub's firmware supports (R284), which the manual does not give (DESIGN CHOICE, log 45). -/
opaque mboxLowest : BitVec 16

@[inherit_doc mboxLowest]
opaque mboxHighest : BitVec 16

/-- The lowest mailbox version that the hub supports: it is not 0.0, by which the state says that none is agreed (DESIGN CHOICE, log 45). -/
def mboxLow : BitVec 16 := if mboxLowest = 0 then 1 else mboxLowest

/-- The highest mailbox version that the hub supports: it supports at least one (DESIGN CHOICE, log 45). -/
def mboxHigh : BitVec 16 := if mboxHighest.toNat < mboxLow.toNat then mboxLow else mboxHighest

/-- What moves next where the schedule names nothing: the order of the agents and what comes from outside are left open
(DESIGN CHOICE, log 2). -/
opaque choice : Nat → Machine.Choice

end Sys2Proof.Config
end

