-- ==== Sys2Proof/Machine/State.lean ====
section
/-! DEFINITION. The state of the DB4: everything the manual gives the part, as plain data. Device parts that exist in
great numbers (224 cores, 2,688 partitions, units, groups, threads, registers) stand as lists of those that differ from
their state after reset. The fields the manual does not name are the model's own and marked so: the schedule `sched`,
the issue in progress `iss`, and the counters that number entries. -/

namespace Sys2Proof.Machine

open Sys2Proof

/-- A map from numbers, its keys strictly rising. -/
abbrev NMap (α : Type) := List (Nat × α)

/-- The fields of a spar (R120); all zero stands for no spar (R121), except the scope, which `present` tells apart. -/
structure Spar where
  present : Bool
  cc : Nat
  dx : Nat
  ax : Nat
  bx : Nat
  ta : Bool
  tb : Bool
  q : Nat
  o : Nat
deriving DecidableEq, Repr

/-- One entry of a bound or spilled name (R54): its value (1 word for lane and uniform, the 12 words of R219 for a
permutation register, 64 words for an accumulator row), full bit F, remaining count N, held flag H; `q` numbers its
writes in flight in issue order, `wt` a value still to be written to its slot (0 none, 1 a write-out, 2 a write-through
that then sets F, R61), `inSlot` a value that stands in the spill slot and must be filled before it is read (R48, R61),
`drop` an exited thread's entry whose write is still outstanding (R318),
`got` the bytes of a pinned register's saved form that engines have written, as a mask (R219). -/
structure Entry where
  words : List Word
  full : Bool
  cnt : Nat
  held : Bool
  q : List Nat
  wt : Nat
  inSlot : Bool
  drop : Bool
  got : Nat
deriving DecidableEq, Repr

/-- A group's state of one declared name (R49-R67): `res` lists the physical resource numbers bound (rows, entry,
register, blocks), empty when none; `spilled` (R59, R62, R64), `out` written out under R47 or R64 and not bound again,
`claimed` that a claim or a swap did it (R47, R66), `stuck` a resource whose write-out failed (R371), `slot` its first spill slot (R60), `staged` in a staging place (R61), `chosen` the order of the spill choice (R65),
`shared` a caller's entry reached in a gable call (R194), `depth`
the gable calls that were open where it was declared, `comm` that it counts in the committed demand (R59), `owner` the domain slot its resources are charged to. -/
structure NameSt where
  cls : NClass
  num : Nat
  res : List Nat
  spilled : Bool
  out : Bool
  claimed : Bool
  stuck : Bool
  slot : Option Nat
  staged : Bool
  chosen : Nat
  comm : Bool
  depth : Nat
  shared : Bool
  owner : Nat
  entries : List Entry
deriving DecidableEq, Repr

/-- A record of a kernel's name table (R136): pin, the uniform name that receives the address, the lifetime. -/
structure NameRec where
  cls : NClass
  num : Nat
  pin : Bool
  pink : Nat
  ints : List (Nat × Nat)
deriving DecidableEq, Repr

/-- A buffer record (R137). -/
structure BufRec where
  size : Nat
  offk : Nat
deriving DecidableEq, Repr

/-- A barrier record (R137). -/
structure BarRec where
  num : Nat
  count : Nat
deriving DecidableEq, Repr

/-- An argument record (R138). -/
structure ArgRec where
  kind : Nat
  cls : Nat
  name : Nat
  nw : Nat
  aval : Nat
deriving DecidableEq, Repr

/-- What the dispatcher and binder read of a kernel from its image (R131, R135-R138): `img` is the image base, `code`
the byte offset of word index 0 from it. -/
structure Kernel where
  img : Nat
  kidx : Nat
  code : Nat
  nwords : Nat
  hndl : Nat
  widths : Nat
  chk : Bool
  maxunit : Nat
  names : List NameRec
  bufs : List BufRec
  bars : List BarRec
  args : List ArgRec
deriving DecidableEq, Repr

/-- What kind a trap condition is (R291). -/
inductive CondKind where
  | sync | lane | async
deriving DecidableEq, Repr

/-- A trap condition met (R291-R296, R300, R373): the frame's CAUSE, DETAIL, WIDX, SPARW, WORD, ADDR, LMASK and PMASK
(as thread lists), the clock in which its word issued (R304), the time it was met, the threads' TADDR, the class of an
asynchronous one, and that a further one of its class was not reported. -/
structure Cond where
  cause : Nat
  detail : Nat
  kind : CondKind
  widx : Nat
  sparw : Word
  word : Word
  addr : Nat
  group : Bool
  fetch : Bool
  lmask : List Nat
  pmask : List Nat
  taddr : NMap Nat
  clk : Nat
  time : Nat
  cls : Nat
  more : Bool
deriving DecidableEq, Repr

/-- The kind of a memory entry (R85, R89): a load (`mwait` marks the loads of sync.mwait), a store, an atomic with its
fn, operand and expected value (R173), a fence. -/
inductive MemKind where
  | load (wp : Bool)
  | mwaitLoad
  | store
  | atomic (fn : Nat) (b expected : Word)
  | fence
deriving DecidableEq, Repr

/-- An entry of a thread's TQ (R85, R87): its order and scope (R88), its virtual address and size in bytes, store data,
the issue set it belongs to and its lane (R82), the destination names, the word that made it, its physical address once
translated, the condition it was parked with (R297), the POOL snapshot S of R91 once taken, and the tag of the arrival,
trigger or gate a fence belongs to, the threads of its group that issued the word with it (R300 PMASK), and that it is an
atomic which has entered POOL and is undone until it performs (R89). -/
structure TqEntry where
  id : Nat
  kind : MemKind
  ord : Nat
  scope : Nat
  va : Nat
  size : Nat
  data : List Byte
  set : Nat
  lane : Nat
  pa : Option Nat
  parked : Option (Nat × Nat)
  snap : Option (List Nat)
  tag : Nat
  widx : Nat
  sparw : Word
  word : Word
  group : Bool
  clk : Nat
  pmask : List Nat
  pooled : Bool
deriving DecidableEq, Repr

/-- An entry of a core's POOL (R85): a store or atomic that has left its TQ; `onPath` once it has moved toward its
home (T3), `buffered` while the commit buffer of a checked unit holds it (R94), `dom`, `widx` and `word` for a watch hit
(R346, R351), `after` once it is committed: the entries that perform before it (R187, R337). -/
structure PoolEntry where
  id : Nat
  uid : Nat
  g : Nat
  t : Nat
  kind : MemKind
  va : Nat
  pa : Nat
  data : List Byte
  size : Nat
  ord : Nat
  scope : Nat
  set : Nat
  onPath : Bool
  buffered : Bool
  host : Bool
  dom : Nat
  widx : Nat
  word : Word
  after : Option (List Nat)
deriving DecidableEq, Repr

/-- The destinations of one issued load or atomic word (R171), written together: `mem` holds each thread's result once
its access is satisfied or performed, or that it was parked; `last` the clock of the latest of these. -/
structure LoadSet where
  id : Nat
  uid : Nat
  uniform : Bool
  fn : Nat
  dsts : List Nat
  mem : List ((Nat × Nat) × Option (List Word) × Bool)
  watched : Bool
  last : Nat
deriving DecidableEq, Repr

/-- A result on its way to its destination (R54, R151, R179): for each thread the names and values, due no earlier
than clock `due`. -/
structure Pend where
  id : Nat
  uid : Nat
  g : Nat
  cls : NClass
  vals : List (Nat × Nat × List Word)
  due : Nat
deriving DecidableEq, Repr

/-- One outstanding operation of a group's class (R96): `deps` the older stores and atomics that must have performed
before it starts (R97), `started`, `fin` finished; `stage` and `data` serve the window operations (R99). -/
structure EqEntry where
  id : Nat
  started : Bool
  fin : Bool
  deps : List Nat
  stage : Nat
  arg : Nat
  dep : Bool
  widx : Nat
  sparw : Word
  word : Word
  clk : Nat
deriving DecidableEq, Repr

/-- What a group-set word waits for (R179, R185, R188, R189, R98, R191, R194, R195). -/
inductive WaitKind where
  | none
  | bar (n : Nat) (phase : Option Nat)
  | wt (n : Nat)
  | oc (cls thr : Nat)
  | mwait (x : Nat) (cmp : Word) (loading : Bool)
  | dwait
  | obRel (slot : Nat)
  | obRec (slot : Nat) (record : Word)
  | gateCall (idx : Nat) (tag : Nat)
  | gateRet (tag : Nat)
deriving DecidableEq, Repr

/-- A wait in progress: `next` is where the threads continue, `since` the clock of the last load, `woken` a wake or
completion kept for the group (R198). -/
structure Wait where
  kind : WaitKind
  next : Nat
  since : Nat
  woken : Bool
deriving DecidableEq, Repr

/-- An arrival issued by sync.bar or sync.arr and not yet counted (R185): the tag of its fences, and once they are done the
clock, with the core that counts it (R4), at which it counts at the cell. -/
structure Arrival where
  bar : Nat
  tag : Nat
  due : Option (Nat × Nat)
deriving DecidableEq, Repr

/-- A watch hit report on its way (R347). -/
structure Report where
  id : Nat
  uid : Nat
  g : Nat
  die : Nat
  reg : Nat
  addr : Nat
  size : Nat
  acc : Nat
  old : List Byte
  new : List Byte
  widx : Nat
  word : Word
  eq : Nat
deriving DecidableEq, Repr

/-- A trap being taken (R298): its condition, whether it is fatal (R305), whether the frame is written (`frame`: 0 not,
1 written, 2 could not be written), MORE, for a debug stop the DBGSRC byte, for a watch hit its report (R351), the clock d in
which the group met it, that the words waited for had completed at the end of a clock (R298), and that a stop broadcast is
in it (R319). -/
structure Trap where
  cond : Cond
  fatal : Bool
  frame : Nat
  more : Bool
  dbg : Nat
  frameClk : Nat
  rep : Option Report
  met : Nat
  ready : Bool
  bcast : Bool
deriving DecidableEq, Repr

/-- A debug stop of a group (R348, R349, R354): 0 running, 1 stopped and swapped out, 2 stopped in place, 3 stepping; `skip`
the threads and the PCs of the breakpoints that they pass once, `brk` the word of the breakpoint that stopped the group (R355). -/
structure Dbg where
  mode : Nat
  src : Nat
  step : Nat
  skip : List (Nat × Nat)
  swapped : Bool
  brk : Option Nat
deriving DecidableEq, Repr

/-- A pause of a group (R62, R64, R316): the clock it began, the resources still to be written out, their number and how many have
been, the first clock in which the group may form candidates again, and the written names that wait for a resource. -/
structure Pause where
  start : Nat
  moves : List (NClass × Nat)
  n : Nat
  done : Nat
  till : Nat
  wants : List (NClass × Nat)
deriving DecidableEq, Repr

/-- One thread (R26): lane, thread slot, program counter as a byte offset from the kernel's entry, exit (R31), ready
cycle and place in the PC table (R34, R35), TQ and the entries a handler set aside (R87, R303), floors F (R86),
the bytes of the items of its store stream in this interval, by the
word that issued them, of which its signature register is the CRC (R331), whether it is in the handler (R304), a condition it met that is not yet reported, with the clock in which it met it,
words issued after a stop broadcast (R301), the words left of a debug step, and of its last issue or release the clock, the
address of the word at which it then stood, and its stall code in that clock (R179, R266, R267). -/
structure Thread where
  tid : Nat
  lane : Nat
  tslot : Nat
  off : Nat
  exited : Bool
  ready : Option Nat
  joined : Bool
  tq : List TqEntry
  aside : List TqEntry
  floors : NMap Nat
  items : NMap (List Byte)
  inHandler : Bool
  cond : Option Cond
  condAt : Nat
  skid : Nat
  stepLeft : Nat
  last : Option (Nat × Nat × Nat)
deriving DecidableEq, Repr

/-- A frame of the gable stack (R194): the caller's slot, kernel, next word offset, mode word and unshared names, its threads in their
handler with the entries set aside, and its held conditions (R304, R309). -/
structure GableFrame where
  slot : Nat
  kernel : Kernel
  next : Nat
  fmode : Word
  names : List NameSt
  callOff : Nat
  spill : Nat
  spsz : Nat
  nslot : Nat
  dom : Nat
  asid : Nat
  inHand : List Nat
  aside : List (Nat × List TqEntry)
  held : List Cond
deriving DecidableEq, Repr

/-- A group (R28, R29): its place, mode word GRP.FMODE (R104), the five outstanding-operation counters and EQs in the
class order cp, mx, qz, rt, wn (R96, R98), its names, its gable stack, the records AR of its barriers (R185), pending
arrivals, what it waits for, the trap it takes, held asynchronous conditions (R304), pause, debug stop, trigger
(R189), the items of its engine signature by the chain's issue (R331), the kernel and domain it runs in now, whether it has
ended, and the clocks, with the cores that count them (R4), at which a stop broadcast and a barrier's release reach it. -/
structure Group where
  gidx : Nat
  core : Nat
  part : Nat
  tslot : Nat
  base : Nat
  width : Nat
  slot : Nat
  dom : Nat
  asid : Nat
  kernel : Kernel
  fmode : Word
  oc : List Nat
  eq : List (List EqEntry)
  names : List NameSt
  gstack : List GableFrame
  ar : NMap Nat
  arrs : List Arrival
  wait : Wait
  trap : Option Trap
  heldConds : List Cond
  pause : Option Pause
  dbg : Dbg
  trigger : Nat
  engItems : NMap (List Byte)
  spill : Nat
  spsz : Nat
  nslot : Nat
  placed : Nat
  stopAt : Option (Nat × Nat × Nat)
  relAt : Option (Nat × Nat)
  ended : Bool
  threads : List Thread
deriving DecidableEq, Repr

/-- A barrier cell (R184): its name, cell number on the home core, PH, CNT, TGT, ZERO, the groups whose arrival in the
current phase is counted, and those that ended and lower TGT when the phase completes. -/
structure BarCell where
  num : Nat
  cell : Nat
  ph : Nat
  cnt : Nat
  tgt : Nat
  zero : Bool
  arrived : List Nat
  lower : List Nat
deriving DecidableEq, Repr

/-- A buffer of a unit on one core (R63, R137): core, offset, size in bytes. -/
structure Buffer where
  core : Nat
  idx : Nat
  off : Nat
  size : Nat
deriving DecidableEq, Repr

/-- An operand-buffer reservation (R191): slot 1-32, start and size in KiB, the group, the record word (R203),
the domain slot charged (R63) and the domain identifier (R77). -/
structure Rsv where
  slot : Nat
  start : Nat
  size : Nat
  uid : Nat
  g : Nat
  record : Word
  owner : Nat
  dom : Nat
deriving DecidableEq, Repr

/-- The checkpoint of a checked unit (R333): what a rollback restores; `rsvs` its reservations, by core and partition. -/
structure Checkpoint where
  groups : List Group
  bars : List BarCell
  scratch : List (Nat × List Byte)
  rsvs : List (Nat × Nat × Rsv)
deriving DecidableEq, Repr

/-- A unit (R30): its launch, domain, size, image, spill area (R60), argument block, home core, unit tags (R39),
groups, barriers, buffers, producers (R189; the acceptance numbers of their launches); `cancel` 0 none, 1 cancelled, 2 faulted (R33, R307); for a checked unit
its twin, rollbacks of this interval, rollback phase (0 none, 1 stopping, 2 replayed, 3 finally committed), the clock, with the core that counts it (R4),
in which that phase may end, and checkpoint (R329-R336). -/
structure DUnit where
  uid : Nat
  lid : Nat
  dom : Nat
  asid : Nat
  pasid : Nat
  unitidx : Nat
  usize : Nat
  width : Nat
  argb : Nat
  spill : Nat
  spsz : Nat
  nslot : Nat
  die : Nat
  home : Nat
  tags : NMap Nat
  groups : List Group
  bars : List BarCell
  bufs : List Buffer
  prods : List Nat
  cancel : Nat
  fatalClk : Option (Nat × Nat)
  dbgSrc : Nat
  chk : Bool
  twin : Option Nat
  primary : Bool
  rolls : Nat
  rollPhase : Nat
  rollClk : Nat × Nat
  ckpt : Option Checkpoint
deriving DecidableEq, Repr

/-- The issue set in progress (R36, R42): the model's own field, set by the issue logic for the word being executed.
`off` is the kernel offset of the instruction (of the spar when one prefixes it), `sets` the groups and threads. -/
structure Issue where
  core : Nat
  part : Nat
  uid : Nat
  off : Nat
  spar : Spar
  sparw : Word
  word : Word
  sets : List (Nat × List Nat)
  clk : Nat
deriving DecidableEq, Repr

/-- A candidate issue set (R36, R37): its domain slot, unit, program counter (kernel offset and virtual address), threads by
group, octet mask, age, unit tag, whether it holds both halves of a width-64 group, its ports of R40 (0 memory, 1 matrix,
2 uniform, 3 cross-lane), and that it needs a port that takes no set in this clock. -/
structure Cand where
  slot : Nat
  uid : Nat
  off : Nat
  pc : Nat
  group : Bool
  sets : List (Nat × List Nat)
  octets : List Nat
  age : Nat
  tag : Nat
  wide : Bool
  ports : List Nat
  held : Bool
deriving DecidableEq, Repr

/-- What an `mx` word carries into the array queue (R199-R210): the values it read at issue. -/
inductive MxOp where
  | mma (desc : List Word) (handle panel : Word)
  | mmag (gen : Word) (handle panel : Word)
  | mcv (shape : List Word) (handle panel : Word)
  | zero
  | get (dst : Nat) (cols : List (Nat × Word))
  | put (vals : List (Nat × Word)) (cols : List (Nat × Word))
  | sto (desc : List Word)
  | rmax (dst : Nat)
  | rscale (exps : List (Nat × Word))
deriving DecidableEq, Repr

/-- An `mx` word in the array queue (R212). -/
structure MxEntry where
  uid : Nat
  g : Nat
  eq : Nat
  tile : Nat
  tids : List Nat
  op : MxOp
  clk : Nat
deriving DecidableEq, Repr

/-- The word the array runs (R212): start clock, occupancy, the operand bytes that it reads, by address, and the old rows,
as far as they are read (R201, R213), the reservation, the map of a generator, the number of its first free value, or the
condition it met (R211). -/
structure MxRun where
  ent : MxEntry
  start : Nat
  occ : Nat
  endClk : Nat
  reads : List (Nat × List Byte)
  olds : NMap (List Word)
  rsv : Option Rsv
  map : List Nat
  free : Nat
  cond : Option Cond
deriving DecidableEq, Repr

/-- A route-solver operation (R221) with the values it read at issue. -/
inductive RtOp where
  | load (vec : List (Nat × Word)) (exited : List Nat)
  | comp (a b : List Word)
  | rand (st : BitVec 64) (ka : Nat) (size : Nat)
  | save (off : Nat) (a : List Word)
  | rest (off : Nat)
deriving DecidableEq, Repr

/-- A queued or running route-solver operation (R221): `fresh` when its destination was bound at its issue (R296). -/
structure RtEntry where
  uid : Nat
  g : Nat
  eq : Nat
  dst : Nat
  fresh : Bool
  op : RtOp
  clk : Nat
  start : Nat
  cc : Nat
  bytes : List Byte
deriving DecidableEq, Repr

/-- A chain waiting for a channel (R190). -/
structure ChainReq where
  uid : Nat
  g : Nat
  eq : Nat
  head : Nat
  slot : Nat
  dom : Nat
deriving DecidableEq, Repr

/-- A chain that has started (R234): the entry reached, its bytes once read, each loop entry's counter with its BACK, SADV
and DADV, the destination bytes of the current move already delivered, the register a permuting move reads (R231), the
clock at which a waiting skip was first read (R324), the earliest clock of its next step, whether its end is reached. -/
structure ChainRun where
  req : ChainReq
  e : Nat
  ent : List Byte
  its : NMap (Nat × Nat × Nat × Nat)
  prog : Nat
  perm : List Word
  since : Option Nat
  due : Nat
  ended : Bool
deriving DecidableEq, Repr

/-- A copy channel or the quantisation engine (R190): waiting chains and the one that runs. -/
structure Channel where
  waiting : List ChainReq
  run : Option ChainRun
deriving DecidableEq, Repr

/-- A partition (R16, R17): credits C (R38; the octet pointer P of R39 is the core clock modulo 4), the picks of a clock not yet issued,
the clock last arbitrated, the second clock due of a width-64 set (R37), the coalescer's pending line requests (R81), what they are of (domain, slot, PC, flags), the first clock in which the memory port is free,
the array queue and the word it runs (R212), reservations (R191), counters and this clock's events (R270), sampling generators (R265),
staging places in use, least recently used first (R61, R214),
the set of the pending line requests, the settings that each permutation register holds (R219, R231), and that the coalescer held the
memory port when the clock was arbitrated (R266). -/
structure Part where
  credit : List Int
  picks : List Cand
  lastClk : Option Nat
  wide : Option Cand
  lines : List (Nat × Nat)
  lineOf : Nat × Nat × Nat × Nat
  portFree : Nat
  mxq : List MxEntry
  mxrun : List MxRun
  mxBusy : Nat
  rsvs : List Rsv
  counters : List Nat
  counting : List Nat
  gen : BitVec 64
  genClk : Nat
  staging : List (Nat × Nat × NClass × Nat)
  lineSet : Nat
  permRegs : NMap (List Word)
  held : Bool
deriving DecidableEq, Repr

/-- A TLB entry (R75): ASID, virtual page, page size in bits, physical page, W, X. -/
structure Tlb where
  asid : Nat
  vpage : Nat
  bits : Nat
  page : Nat
  w : Bool
  x : Bool
deriving DecidableEq, Repr

/-- A cache line (R79, R80): way, line address, the domain slot (L1) or identifier (L2) that allocated it, its sectors, and
those of an L2 line that the array does not hold yet. -/
structure CLine where
  way : Nat
  line : Nat
  owner : Nat
  sectors : Nat
  dirty : Nat
deriving DecidableEq, Repr

/-- A record of a sample ring on its way (R263): slot, index, bytes performed. -/
structure RingRec where
  slot : Nat
  idx : Nat
deriving DecidableEq, Repr

/-- A tagged memory request (R268, R269): the domain slot and identifier, the partition (255 an engine), the issuing word's
address, the time it was emitted, FLAGS, the issue set and line of a line request (its sample waits for their accesses),
and whether it is complete. -/
structure Tagged where
  slot : Nat
  dom : Nat
  part : Nat
  pc : Nat
  time : Nat
  flags : Nat
  set : Nat
  line : Nat
  fin : Bool
deriving DecidableEq, Repr

/-- Octet rows, blocks, an entry or a register that a claim took and that the spill engine still writes out, as the
entries they hold: the name (its kernel level by `depth`) and the row order (R47). -/
structure OutItem where
  uid : Nat
  g : Nat
  cls : NClass
  num : Nat
  depth : Nat
  ixs : List Nat
deriving DecidableEq, Repr

/-- A core: core clocks (R259), running clocks of each slot (R259), the clock each slot's halt began (R46), POOL (R85),
floors G (R86), issued loads (R171), results in flight (R54), channels 0-3 and the quantisation engine (4), window
operations in progress, solver queue and operation (R221), write pointers (R83), the private WR of each ring and
records not yet counted (R263), L1 sets (R79), TLB (R75), queued CORE.DPART writes (R281), partitions, the request
counter of R268 and the tagged requests, the L1's miss-status entries (slot, sector) (R81), unit tags given up and the clock
(R39), commit-buffer and journal use (R328, R334), the counts that CORE.BINDSTAT and CORE.CHKSTAT report
(R317, R328): NOSLOT of each slot, MISM, UCER, CBPEAK, and the claimed rows still to be written out, in order (R47). -/
structure Core where
  clk : Nat
  rtmr : List Nat
  haltClk : NMap Nat
  pool : List PoolEntry
  floors : NMap Nat
  loads : List LoadSet
  pend : List Pend
  chans : List Channel
  solverQ : List RtEntry
  solver : Option RtEntry
  cpwp : List Nat
  ringWr : List Nat
  ringRecs : List RingRec
  l1 : NMap (List CLine)
  tlb : List Tlb
  dpartQ : List (Nat × Nat)
  parts : NMap Part
  reqs : Nat
  tagged : List Tagged
  mshr : List (Nat × Nat)
  freed : List (Nat × Nat)
  cbuf : Nat
  journal : List (Nat × Nat)
  dbgqr : List Byte
  noslot : List Nat
  mism : Nat
  ucer : Nat
  cbpeak : Nat
  outQ : List OutItem
deriving DecidableEq, Repr

/-- A transfer in its retry sequence on an HBM5 channel (R362-R365): its sector (PA[51:6]), direction, attempts made, the
beats that failed in the first, the lanes that failed in every attempt and those of the last, whether the injector planted
what it met, the times of the first and of the latest failure, and whether it waits for its attempt after a swap. -/
structure Xfer where
  sector : Nat
  write : Bool
  attempts : Nat
  beats : Nat
  lanes : List Nat
  last : List Nat
  inj : Bool
  time : Nat
  tried : Nat
  swapping : Bool
deriving DecidableEq, Repr

/-- A compute die (R15): its time (R260), safe state and code (R282), TLB of the second level (R75), L2 sets (R80);
of its HBM5 the wrong bits of the array (sector, bit), the stuck lanes (channel, lane), the sectors with a planted fault,
the transfers in retry and the swaps in progress (channel, start) (R359-R369), the sectors that accesses of a domain wait for
in the L2 and the write-backs that wait (R361, R363), the sectors that hold the poison code (R359), and those delivered
to an access without a line (R80), the window-counter cells that have advanced (R85, R86); the junction and stack readings (R325), since
when a held cluster is cool (R326), and the clock changes in progress (R288). -/
structure Die where
  time : Nat
  safe : Bool
  code : Nat
  tlb : List Tlb
  l2 : NMap (List CLine)
  flips : List (Nat × Nat)
  stuck : List (Nat × Nat)
  injected : List Nat
  xfers : List Xfer
  swaps : NMap Nat
  wants : List (Nat × Nat)
  wb : List Nat
  coded : List Nat
  passed : List Nat
  cells : List Nat
  readings : List Nat
  hbmTemps : List Nat
  cool : NMap Nat
  dvfs : NMap Nat
deriving DecidableEq, Repr

/-- A level of the tables (R249). -/
inductive Level where
  | launch | graph | phase | job
deriving DecidableEq, Repr

/-- An entry of the level table (R249): key, counter, closed flag, parent, DONE, and the PASID whose record named
DONE (R252), and once it is completed or cancelled the hub cycle of that (R249, R250). -/
structure LevelEntry where
  dom : Nat
  level : Level
  ident : Nat
  count : Nat
  closed : Bool
  parent : Option (Level × Nat)
  done : Nat
  donePasid : Nat
  doneKind : Nat
  state : Nat
  freeing : Bool
  cycle : Nat
deriving DecidableEq, Repr

/-- A launch being dispatched (R246, R255, R256): its record's fields, its producers' acceptance numbers (R255), the next
unit, its acceptance number, whether its kernel is checked, whether it is passed over, whether it has triggered (R189),
how it ended early: 0 not, 2 cancelled, 3 faulted, and the dies whose controllers have its share request (R254). -/
structure Launch where
  dom : Nat
  lid : Nat
  pasid : Nat
  asid : Nat
  kind : Nat
  wcode : Nat
  prio : Nat
  kimg : Nat
  kidx : Nat
  usize : Nat
  ucnt : Nat
  spsz : Nat
  argb : Nat
  aff : Nat
  astr : Int
  spill : Nat
  shreq : Nat
  prods : List Nat
  nextUnit : Nat
  order : Nat
  checked : Bool
  held : Bool
  triggered : Bool
  ended : Nat
  told : List Nat
deriving DecidableEq, Repr

/-- An intake record (R245). -/
structure Intake where
  pasid : Nat
  bytes : List Byte
deriving DecidableEq, Repr

/-- The reject log of one PASID (R312): count and entries, newest first. -/
structure RejectLog where
  count : Nat
  entries : List Nat
deriving DecidableEq, Repr

/-- The hub (R15): its IEEE 1588 time (R23, R261), hub cycle, intake, rotations (R246, R256), launches, level table, reject logs, mailbox version, the
message being served and the report in progress (R284, R286), configuration image (R283), drained links (R277), answers given to the host, oldest
last, shares passed to die controllers (R254), sideband records (R282), its writes to host memory as (PASID, address) (R286), and reports to the die controllers' firmware as (die,
code): 1 a rise to TWARN (R325), 2 an array record, 3 a transfer record, 4 a failed channel (R364, R366), 5 a closed ring (R296). -/
structure Hub where
  time : Nat
  cycle : Nat
  procCycle : Nat
  dispCycle : Nat
  intake : List Intake
  lastPasid : Option Nat
  lastDom : Option Nat
  orderNext : Nat
  launches : List Launch
  levels : List LevelEntry
  rejects : NMap RejectLog
  mboxVer : Nat
  msg : List Byte
  report : Option (List Byte)
  img : BootImage
  answers : List Nat
  shares : List (Nat × Nat × Nat × Nat)
  sideband : List (List Byte)
  posted : List (Nat × Nat)
  reports : List (Nat × Nat)
deriving DecidableEq, Repr

/-- The state of the part. -/
structure State where
  /-- bytes at HOME, by physical address (R70): the latest value of each location -/
  mem : List Host.Cell
  /-- coherence orders (R85): for a location written at least once, its values with the number of the write, oldest
  first, the initial value at index 0 -/
  coh : NMap (List (Nat × Byte))
  /-- the number of the next write or entry -/
  seq : Nat
  /-- sectors marked poisoned (R360) -/
  poison : List Nat
  /-- firmware registers that differ from reset (R5) -/
  regs : NMap Nat
  units : List DUnit
  cores : NMap Core
  dies : NMap Die
  hub : Hub
  reports : List Report
  /-- the model's own: the next unit key, the schedule, the issue in progress, the free-value counter -/
  nextUid : Nat
  sched : List Choice
  iss : Issue
  free : Nat
deriving DecidableEq, Repr

/-- A machine stop. -/
inductive Fault where
  /-- Raised by `step` when the schedule names a core, partition, slot, die, cluster or link that the device does not
  have (R12, R16), or a word as another agent's step. Safe: no device makes such a step. -/
  | noSuchPart
deriving DecidableEq, Repr

/-- Why an instruction has no meaning. -/
inductive Refusal where
  /-- An instruction without its meaning yet. Safe: nothing can be proved of it. -/
  | notModelled (mnemonic : String)
deriving DecidableEq, Repr

/-- No spar (R121). -/
def noSpar : Spar := ⟨false, 0, 0, 0, 0, false, false, 0, 0⟩

/-- No issue in progress. -/
def noIssue : Issue := ⟨0, 0, 0, 0, noSpar, 0, 0, [], 0⟩

/-- A partition after reset (R38: credits 0). -/
def Part.reset : Part :=
  { credit := List.replicate 8 0, picks := [], lastClk := none, wide := none, lines := [], lineOf := (0, 0, 0, 0), portFree := 0, mxq := [],
    mxrun := [], mxBusy := 0, rsvs := [], counters := List.replicate 16 0, counting := List.replicate 16 0, gen := 0, genClk := 0, staging := [], lineSet := 0, permRegs := [], held := false }

/-- A core after reset. -/
def Core.reset : Core :=
  { clk := 0, rtmr := List.replicate 8 0, haltClk := [], pool := [], floors := [], loads := [], pend := [],
    chans := List.replicate 5 ⟨[], none⟩, solverQ := [], solver := none, cpwp := [0, 0, 0, 0],
    ringWr := List.replicate 8 0, ringRecs := [], l1 := [], tlb := [], dpartQ := [], parts := [], reqs := 0, tagged := [], mshr := [], freed := [],
    cbuf := 0, journal := [], dbgqr := [], noslot := List.replicate 8 0, mism := 0, ucer := 0, cbpeak := 0, outQ := [] }

/-- A die after reset. -/
def Die.reset : Die :=
  { time := 0, safe := false, code := 0, tlb := [], l2 := [], flips := [], stuck := [], injected := [], xfers := [], swaps := [],
    wants := [], wb := [], coded := [], passed := [], cells := [], readings := [], hbmTemps := [], cool := [], dvfs := [] }

/-- No configuration image is loaded (R283). -/
def BootImage.none : BootImage := ⟨[], [], [], [], [], 0, [], [], []⟩

/-- The hub after reset. -/
def Hub.reset : Hub :=
  { time := 0, cycle := 0, procCycle := 0, dispCycle := 0, intake := [], lastPasid := none, lastDom := none, orderNext := 0,
    launches := [], levels := [], rejects := [], mboxVer := 0, msg := [], report := none, img := BootImage.none, answers := [],
    shares := [], sideband := [], posted := [], reports := [] }

/-- The part right after reset: every register at the reset value of its field map (the operation that reads a register
gives it), nothing listed in memory, no unit, no launch. -/
def State.reset : State :=
  { mem := [], coh := [], seq := 1, poison := [], regs := [], units := [], cores := [], dies := [], hub := Hub.reset,
    reports := [], nextUid := 1, sched := [], iss := noIssue, free := 0 }

end Sys2Proof.Machine
end

