-- ==== Sys2Proof/Machine/Base.lean ====
section
/-! DEFINITION. Plain helpers: maps with rising keys, sorting by a numeric key, bit fields of registers, two's
complement, and the reading and replacing of one core, partition, die, unit, group, thread or name of the state. -/

namespace Sys2Proof.Machine

open Sys2Proof

/-- The value at a key. -/
def mget {α : Type} : NMap α → Nat → Option α
  | [], _ => none
  | (j, v) :: m, k => if j = k then some v else mget m k

/-- The map with the key's value replaced, keys rising. -/
def mset {α : Type} : NMap α → Nat → α → NMap α
  | [], k, v => [(k, v)]
  | (j, w) :: m, k, v => if k < j then (k, v) :: (j, w) :: m else if k = j then (k, v) :: m else (j, w) :: mset m k v

/-- The map without the key. -/
def mdel {α : Type} : NMap α → Nat → NMap α
  | [], _ => []
  | (j, w) :: m, k => if j = k then m else (j, w) :: mdel m k

/-- Puts an item in its place in a list sorted by `key`, after its equals. -/
def insertBy {α : Type} (key : α → Nat) (x : α) : List α → List α
  | [] => [x]
  | y :: l => if key x < key y then x :: y :: l else y :: insertBy key x l

/-- A list in ascending order of `key`, equals in their old order. -/
def sortBy {α : Type} (key : α → Nat) (l : List α) : List α := l.foldl (fun acc x => insertBy key x acc) []

/-- Puts an item in its place in a list sorted by `lt`, after its equals. -/
def insertLt {α : Type} (lt : α → α → Bool) (x : α) : List α → List α
  | [] => [x]
  | y :: l => if lt x y then x :: y :: l else y :: insertLt lt x l

/-- A list in ascending order of `lt`. -/
def sortLt {α : Type} (lt : α → α → Bool) (l : List α) : List α := l.foldl (fun acc x => insertLt lt x acc) []

/-- The list without repeats, first occurrences kept. -/
def nub (l : List Nat) : List Nat := l.foldl (fun acc x => if acc.contains x then acc else acc ++ [x]) []

/-- The smallest number of a list, if any. -/
def minOf : List Nat → Option Nat
  | [] => none
  | x :: l => match minOf l with
    | none => some x
    | some y => some (Nat.min x y)

/-- The largest number of a list, 0 for none. -/
def maxOf (l : List Nat) : Nat := l.foldl Nat.max 0

/-- The sum of a list. -/
def sumOf (l : List Nat) : Nat := l.foldl (· + ·) 0

/-- The list with its element at an index replaced by a function of it. -/
def modAt {α : Type} : List α → Nat → (α → α) → List α
  | [], _, _ => []
  | x :: l, 0, f => f x :: l
  | x :: l, n + 1, f => x :: modAt l n f

/-- The list with its element at an index replaced. -/
def setAt {α : Type} (l : List α) (n : Nat) (x : α) : List α := modAt l n (fun _ => x)

/-- Bit `n` of a number. -/
def bitN (w n : Nat) : Bool := w / 2 ^ n % 2 == 1

/-- A register value with the field [hi:lo] replaced (R5). -/
def setFld (w hi lo v : Nat) : Nat := w - fld w hi lo * 2 ^ lo + v % 2 ^ (hi + 1 - lo) * 2 ^ lo

/-- The two's complement value of the low `n` bits (R100). -/
def sextN (n w : Nat) : Int := if w % 2 ^ n < 2 ^ (n - 1) then Int.ofNat (w % 2 ^ n) else Int.ofNat (w % 2 ^ n) - 2 ^ n

/-- An integer modulo 2^n. -/
def wrapN (n : Nat) (x : Int) : Nat := (x % (2 ^ n : Int)).toNat

/-- Bit strings as numbers of bytes, little-endian (R3). -/
def natOfBytes : List Byte → Nat
  | [] => 0
  | b :: l => b.toNat + 256 * natOfBytes l

/-- The `n` low bytes of a number, little-endian (R3). -/
def bytesOfNat : Nat → Nat → List Byte
  | 0, _ => []
  | n + 1, w => BitVec.ofNat 8 w :: bytesOfNat n (w / 256)

/-- The word at a byte of a byte list (R3). -/
def wordAt (l : List Byte) (i : Nat) : Word := BitVec.ofNat 32 (natOfBytes ((l.drop i).take 4))

/-- The number of `n` bytes at a byte of a byte list (R3). -/
def numAt (l : List Byte) (i n : Nat) : Nat := natOfBytes ((l.drop i).take n)

/-- The bytes of entries in ascending order (R3, R100). -/
def bytesOfWords (l : List Word) : List Byte := l.flatMap (fun w => bytesOfNat 4 w.toNat)

/-- The entries that bytes hold, four to an entry. -/
def wordsOfBytes (l : List Byte) : List Word := (List.range (l.length / 4)).map (fun i => wordAt l (4 * i))

/-- The number of a class in NAME records and frames (R136, R302). -/
def clsCode : NClass → Nat
  | .lane => 0 | .uniform => 1 | .perm => 2 | .acc => 3

/-- The class of a number. -/
def classOf : Nat → NClass
  | 0 => .lane | 1 => .uniform | 2 => .perm | _ => .acc

/-- The registers' numbers in the map of those that differ from reset: kind, then device parts. -/
def regKey : Reg → Nat
  | .dpart c s => 2 ^ 32 * 1 + 2 ^ 16 * c + s
  | .domtab c s => 2 ^ 32 * 2 + 2 ^ 16 * c + s
  | .tframe c s => 2 ^ 32 * 3 + 2 ^ 16 * c + s
  | .sring c s => 2 ^ 32 * 4 + 2 ^ 16 * c + s
  | .sampctl c => 2 ^ 32 * 5 + 2 ^ 16 * c
  | .ctrsel c p n => 2 ^ 32 * 6 + 2 ^ 16 * c + 256 * p + n
  | .ctrval c p n => 2 ^ 32 * 7 + 2 ^ 16 * c + 256 * p + n
  | .bindstat c s => 2 ^ 32 * 8 + 2 ^ 16 * c + s
  | .chkctl c => 2 ^ 32 * 9 + 2 ^ 16 * c
  | .chkstat c => 2 ^ 32 * 10 + 2 ^ 16 * c
  | .dbgctl c s => 2 ^ 32 * 11 + 2 ^ 16 * c + s
  | .brk c s n => 2 ^ 32 * 12 + 2 ^ 16 * c + 256 * s + n
  | .dbgcmd c s => 2 ^ 32 * 13 + 2 ^ 16 * c + s
  | .dbgstat c s => 2 ^ 32 * 14 + 2 ^ 16 * c + s
  | .dbgq c => 2 ^ 32 * 15 + 2 ^ 16 * c
  | .dbgqr c p => 2 ^ 32 * 16 + 2 ^ 16 * c + p
  | .cpwp c n => 2 ^ 32 * 17 + 2 ^ 16 * c + n
  | .asroot d n => 2 ^ 32 * 18 + 2 ^ 16 * d + n
  | .tlbinv d => 2 ^ 32 * 19 + 2 ^ 16 * d
  | .l2way d n => 2 ^ 32 * 20 + 2 ^ 16 * d + n
  | .wintab d n => 2 ^ 32 * 21 + 2 ^ 16 * d + n
  | .dvfs d c => 2 ^ 32 * 22 + 2 ^ 16 * d + c
  | .therm d => 2 ^ 32 * 23 + 2 ^ 16 * d
  | .watch d n => 2 ^ 32 * 24 + 2 ^ 16 * d + n
  | .aelog d n => 2 ^ 32 * 25 + 2 ^ 16 * d + n
  | .telog d n => 2 ^ 32 * 26 + 2 ^ 16 * d + n
  | .hbmlog d => 2 ^ 32 * 27 + 2 ^ 16 * d
  | .lswap d c => 2 ^ 32 * 28 + 2 ^ 16 * d + c
  | .injseed d => 2 ^ 32 * 29 + 2 ^ 16 * d
  | .injctl d => 2 ^ 32 * 30 + 2 ^ 16 * d
  | .flash n => 2 ^ 32 * 31 + n
  | .devnum => 2 ^ 32 * 32
  | .kjover => 2 ^ 32 * 33
  | .lrver => 2 ^ 32 * 34
  | .mboxin w => 2 ^ 32 * 35 + w
  | .mboxout w => 2 ^ 32 * 36 + w
  | .mboxdb => 2 ^ 32 * 37

/-- The reset value of each register, from its field map: CHKCTL.RETRY 2 (R328), THERM.TWARN 90 and THOT 100 (R325),
DVFS.FSTEP and CURF 8 (R288), KJOVER.MAJ 1 (R144), LRVER.MAJ 1 (R247); every other field that has a reset value has 0,
and CURMV, which has none, is 0 (DESIGN CHOICE, log 5). -/
def regReset : Reg → Nat
  | .chkctl _ => 2 * 2 ^ 12
  | .therm _ => 90 * 2 ^ 48 + 100 * 2 ^ 40
  | .dvfs _ _ => 8 * 2 ^ 52 + 8 * 2 ^ 32
  | .kjover => 2 ^ 32
  | .lrver => 2 ^ 16
  | _ => 0

/-- The stored value of a register (R5). -/
def rdReg (s : State) (r : Reg) : Nat := (mget s.regs (regKey r)).getD (regReset r)

/-- The state with a register's value replaced. -/
def wrReg (s : State) (r : Reg) (v : Nat) : State := { s with regs := mset s.regs (regKey r) v }

/-- A core (R16). (DESIGN CHOICE, log 96) -/
def coreOf (s : State) (c : Nat) : Core := (mget s.cores c).getD Core.reset

/-- The state with a core replaced. -/
def setCore (s : State) (c : Nat) (x : Core) : State := { s with cores := mset s.cores c x }

/-- The state with a core changed. -/
def modCore (s : State) (c : Nat) (f : Core → Core) : State := setCore s c (f (coreOf s c))

/-- A partition of a core (R16). -/
def partOf (x : Core) (p : Nat) : Part := (mget x.parts p).getD Part.reset

/-- The state with a partition changed. -/
def modPart (s : State) (c p : Nat) (f : Part → Part) : State :=
  modCore s c (fun x => { x with parts := mset x.parts p (f (partOf x p)) })

/-- A die (R15). -/
def dieOf (s : State) (d : Nat) : Die := (mget s.dies d).getD Die.reset

/-- The state with a die changed. -/
def modDie (s : State) (d : Nat) (f : Die → Die) : State := { s with dies := mset s.dies d (f (dieOf s d)) }

/-- The die of a core (R27). -/
def dieOfCore (c : Nat) : Nat := c / 28

/-- A unit by its key. -/
def unitOf (s : State) (uid : Nat) : Option DUnit := s.units.find? (fun u => u.uid == uid)

/-- The state with a unit changed. -/
def modUnit (s : State) (uid : Nat) (f : DUnit → DUnit) : State :=
  { s with units := s.units.map (fun u => if u.uid == uid then f u else u) }

/-- A group of a unit by its index. -/
def groupIn (u : DUnit) (g : Nat) : Option Group := u.groups.find? (fun x => x.gidx == g)

/-- A group by its unit and index. -/
def groupOf (s : State) (uid g : Nat) : Option Group := (unitOf s uid).bind (fun u => groupIn u g)

/-- The state with a group changed. -/
def modGroup (s : State) (uid g : Nat) (f : Group → Group) : State :=
  modUnit s uid (fun u => { u with groups := u.groups.map (fun x => if x.gidx == g then f x else x) })

/-- The state with every group of a unit changed. -/
def modGroups (s : State) (uid : Nat) (f : Group → Group) : State :=
  modUnit s uid (fun u => { u with groups := u.groups.map f })

/-- A thread of a group. -/
def threadOf (x : Group) (t : Nat) : Option Thread := x.threads.find? (fun h => h.tid == t)

/-- The group with a thread changed. -/
def modThread (x : Group) (t : Nat) (f : Thread → Thread) : Group :=
  { x with threads := x.threads.map (fun h => if h.tid == t then f h else h) }

/-- The group with some threads changed. -/
def modThreads (x : Group) (ts : List Nat) (f : Thread → Thread) : Group :=
  { x with threads := x.threads.map (fun h => if ts.contains h.tid then f h else h) }

/-- The threads of a group that have not exited (R31). -/
def liveThreads (x : Group) : List Thread := x.threads.filter (fun h => !h.exited)

/-- Their indices. -/
def liveTids (x : Group) : List Nat := (liveThreads x).map (·.tid)

/-- A group's state of a declared name (R49). -/
def nameOf (x : Group) (c : NClass) (n : Nat) : Option NameSt := x.names.find? (fun m => m.cls == c && m.num == n)

/-- The group with a name changed. -/
def modName (x : Group) (c : NClass) (n : Nat) (f : NameSt → NameSt) : Group :=
  { x with names := x.names.map (fun m => if m.cls == c && m.num == n then f m else m) }

/-- The index of thread t's entry: one entry per thread for lane rows and accumulator rows, one per group otherwise (R54). -/
def entIx (c : NClass) (t : Nat) : Nat :=
  match c with
  | .lane => t
  | .acc => t
  | .uniform => 0
  | .perm => 0

/-- The entries of a name for a list of threads. -/
def entIxs (c : NClass) (ts : List Nat) : List Nat :=
  match c with
  | .lane => ts
  | .acc => ts
  | .uniform => [0]
  | .perm => [0]

/-- A name with one entry changed. -/
def modEntry (m : NameSt) (i : Nat) (f : Entry → Entry) : NameSt := { m with entries := modAt m.entries i f }

/-- An entry that nothing has written: not held (R54). -/
def noEntry (c : NClass) : Entry :=
  { words := List.replicate (match c with | .lane => 1 | .uniform => 1 | .perm => 12 | .acc => 64) 0, full := false, cnt := 0,
    held := false, q := [], wt := 0, inSlot := false, drop := false, got := 0 }

/-- Thread t's entry of a name. -/
def entryOf (x : Group) (c : NClass) (n t : Nat) : Entry :=
  match nameOf x c n with
  | none => noEntry c
  | some m => (m.entries[entIx c t]?).getD (noEntry c)

/-- The 32-bit value of thread t's entry of a lane or uniform name. -/
def valOf (x : Group) (c : NClass) (n t : Nat) : Word := ((entryOf x c n t).words[0]?).getD 0

/-- The record of a declared name (R136). -/
def recOf (k : Kernel) (c : NClass) (n : Nat) : Option NameRec := k.names.find? (fun r => r.cls == c && r.num == n)

/-- A name is live at a word index (R51); a pinned name's lifetime is the whole kernel (R136). -/
def liveAt (r : NameRec) (w : Nat) : Bool := r.pin || r.ints.any (fun iv => decide (iv.1 ≤ w) && decide (w ≤ iv.2))

/-- The next number, and the state that has given it out. -/
def fresh (s : State) : Nat × State := (s.seq, { s with seq := s.seq + 1 })

/-- Fields of CORE.DOMTAB (R279). -/
def domState (v : Nat) : Nat := fld v 127 125
def domDom (v : Nat) : Nat := fld v 123 112
def domAsid (v : Nat) : Nat := fld v 111 92
def domGbase (v : Nat) : Nat := fld v 91 42 * 64
def domGsize (v : Nat) : Nat := fld v 41 32

/-- The STATE of a core's domain slot: 0 EMPTY, 1 RUN, 2 HALT, 3 HALTING (R279). -/
def slotState (s : State) (c slot : Nat) : Nat := domState (rdReg s (.domtab c slot))

/-- The slot is running. -/
def slotRuns (s : State) (c slot : Nat) : Bool := slotState s c slot == 1

/-- Fields of CORE.DPART (R63). -/
def dpWt (v : Nat) : Nat := fld v 123 120
def dpCpch (v : Nat) : Nat := fld v 119 116
def dpL1way (v : Nat) : Nat := fld v 115 100
def dpSbank (v : Nat) : Nat := fld v 99 52
def dpBars (v : Nat) : Nat := fld v 51 43
def dpPerm (v : Nat) : Nat := fld v 42 36
def dpObuf (v : Nat) : Nat := fld v 35 28
def dpAcc (v : Nat) : Nat := fld v 27 24
def dpUreg (v : Nat) : Nat := fld v 23 10
def dpRows (v : Nat) : Nat := fld v 9 0

/-- A domain slot of the core with this identifier is halted (R46). -/
def haltedDom (s : State) (core dom : Nat) : Bool :=
  (List.range 8).any (fun k => slotState s core k == 2 && domDom (rdReg s (.domtab core k)) == dom)

/-- The hub changed. -/
def modHub (s : State) (f : Hub → Hub) : State := { s with hub := f s.hub }

/-- Events of a domain counted in a partition in this clock (R270, R271); none of a halted slot (R320). -/
def countEvent (s : State) (core part dom code n : Nat) : State :=
  if haltedDom s core dom then s
  else modPart s core part (fun p => { p with counting := (List.range 16).map (fun k =>
    let sel := rdReg s (.ctrsel core part k)
    let v := (p.counting[k]?).getD 0
    if bitN sel 31 && fld sel 29 24 == code && (bitN sel 30 || fld sel 23 12 == dom) then v + n else v) })

/-- Requests that a core counts while CORE.SAMPCTL.MRE is 1; every 2^m-th is tagged (R264, R268). -/
def countReq (s : State) (core : Nat) (t : Tagged) : Nat → State
  | 0 => s
  | n + 1 =>
    let v := rdReg s (.sampctl core)
    if !bitN v 58 then s
    else countReq (modCore s core (fun c =>
      { c with reqs := c.reqs + 1
               tagged := if (c.reqs + 1) % 2 ^ (fld v 57 54 + 8) = 0 then c.tagged ++ [{ t with time := (dieOf s (dieOfCore core)).time }] else c.tagged }))
      core t n

end Sys2Proof.Machine
end

