-- ==== Sys2Proof/Machine/Flags.lean ====
section
/-! DEFINITION. The integer results (R101, R152, R153, R155, R180, R181). The device keeps no status flags: no integer
operation sets one (R101) and no floating-point condition does (R106); a comparison writes 1 or 0 to its destination. -/

namespace Sys2Proof.Machine

open Sys2Proof

/-- A comparison's result (R153). -/
def ofBool (b : Bool) : Word := if b then 1 else 0

/-- The high 32 bits of the exact signed product (R152 mulh). -/
def mulhS (a b : Word) : Word := BitVec.ofInt 32 (a.toInt * b.toInt / 2 ^ 32)

/-- The high 32 bits of the exact unsigned product (R152 mulhn). -/
def mulhU (a b : Word) : Word := BitVec.ofNat 32 (a.toNat * b.toNat / 2 ^ 32)

/-- Signed and unsigned minima and maxima (R152). -/
def minS (a b : Word) : Word := if a.toInt < b.toInt then a else b
def maxS (a b : Word) : Word := if a.toInt > b.toInt then a else b
def minU (a b : Word) : Word := if a.toNat < b.toNat then a else b
def maxU (a b : Word) : Word := if a.toNat > b.toNat then a else b

/-- Shifts by the whole 32-bit amount (R152): 32 or more gives 0, or the sign fill. -/
def shlW (a b : Word) : Word := if b.toNat < 32 then a <<< b.toNat else 0
def shrW (a b : Word) : Word := if b.toNat < 32 then a >>> b.toNat else 0
def sarW (a b : Word) : Word := if b.toNat < 32 then a.sshiftRight b.toNat else if a.msb then BitVec.allOnes 32 else 0

/-- The rotate to the left by B[4:0] (R152). -/
def rotW (a b : Word) : Word :=
  let n := b.toNat % 32
  if n = 0 then a else (a <<< n) ||| (a >>> (32 - n))

/-- The high part of a constant (R156): bits [31:14] replaced. -/
def lihW (d : Word) (imm : BitVec 18) : Word := BitVec.ofNat 32 (imm.toNat * 2 ^ 14 + d.toNat % 2 ^ 14)

/-- One xorshift step of R226. -/
def xorshift (x : BitVec 64) : BitVec 64 :=
  let a := x ^^^ (x <<< 13)
  let b := a ^^^ (a >>> 7)
  b ^^^ (b <<< 17)

end Sys2Proof.Machine
end

