-- ==== Sys2Proof/Machine/Float.lean ====
section
/-! DEFINITION. Number formats and rounding (R102-R115): the IEEE formats over exact rationals, the tapered formats lt8
and lt4, block scales, conversions and the special functions of R160. Every value is computed exactly, or enclosed far
more closely than its format's neighbours, and rounded once. -/

namespace Sys2Proof.Machine

open Sys2Proof

/-- An IEEE format (R102): exponent and fraction bits. -/
structure Fmt where
  eb : Nat
  fb : Nat
deriving DecidableEq, Repr

def f32 : Fmt := ⟨8, 23⟩
def f16 : Fmt := ⟨5, 10⟩
def bf16 : Fmt := ⟨8, 7⟩

/-- A number: NaN, an infinity, or (-1)^s m 2^e. -/
inductive Fl where
  | nan
  | inf (s : Bool)
  | fin (s : Bool) (m : Nat) (e : Int)
deriving DecidableEq, Repr

/-- The exponent of the last place of a format's subnormals. -/
def Fmt.emin (f : Fmt) : Int := 2 - 2 ^ (f.eb - 1) - f.fb

/-- The sign bit's weight of a format. -/
def Fmt.top (f : Fmt) : Nat := 2 ^ (f.eb + f.fb)

/-- The canonical quiet NaN of a format (R106). -/
def Fmt.nan (f : Fmt) : Nat := (2 ^ f.eb - 1) * 2 ^ f.fb + 2 ^ (f.fb - 1)

/-- The bits of an infinity. -/
def Fmt.infBits (f : Fmt) (s : Bool) : Nat := (2 ^ f.eb - 1) * 2 ^ f.fb + (if s then f.top else 0)

/-- The sign of a format's bits. -/
def Fmt.sign (f : Fmt) (w : Nat) : Bool := bitN w (f.eb + f.fb)

/-- The number that a format's bits stand for (R102). -/
def Fmt.val (f : Fmt) (w : Nat) : Fl :=
  let s := f.sign w
  let e := w / 2 ^ f.fb % 2 ^ f.eb
  let m := w % 2 ^ f.fb
  if e = 2 ^ f.eb - 1 then (if m = 0 then .inf s else .nan)
  else if e = 0 then .fin s m f.emin else .fin s (m + 2 ^ f.fb) (f.emin + (Int.ofNat e - 1))

/-- The bits are a subnormal. -/
def Fmt.sub (f : Fmt) (w : Nat) : Bool := w / 2 ^ f.fb % 2 ^ f.eb == 0 && w % 2 ^ f.fb != 0

/-- The flush of an input or result (R105): a subnormal becomes a zero of its sign. -/
def Fmt.flush (f : Fmt) (ftz : Bool) (w : Nat) : Nat := if ftz && f.sub w then (if f.sign w then f.top else 0) else w

/-- The last place is rounded up in magnitude (R103): remainder `r` of `d`, quotient `m`. -/
def roundUp (mode : Nat) (s : Bool) (m r d : Nat) : Bool :=
  if r = 0 then false
  else if mode = 1 then decide (2 * r > d) || (decide (2 * r = d) && m % 2 == 1)
  else if mode = 3 then !s
  else if mode = 4 then s else false

/-- ⌊log2 (n / d)⌋ for n, d > 0. -/
def ilog2 (n d : Nat) : Int :=
  let k : Int := Int.ofNat n.log2 - Int.ofNat d.log2
  let up : Bool := if k ≥ 0 then decide (d * 2 ^ k.toNat ≤ n) else decide (d ≤ n * 2 ^ (-k).toNat)
  if up then k else k - 1

/-- n / d times 2^e as a pair of numbers. -/
def scaleQ (n d : Nat) (e : Int) : Nat × Nat := if e ≥ 0 then (n * 2 ^ e.toNat, d) else (n, d * 2 ^ (-e).toNat)

/-- The exact value (-1)^s n / d rounded once to a format (R103). -/
def roundQ (f : Fmt) (mode : Nat) (s : Bool) (n d : Nat) : Nat :=
  let sb := if s then f.top else 0
  if n = 0 then sb
  else
    let q : Int := max (ilog2 n d - f.fb) f.emin
    let p := scaleQ n d (-q)
    let m := p.1 / p.2
    let m' := if roundUp mode s m (p.1 % p.2) p.2 then m + 1 else m
    let bits := (q - f.emin).toNat * 2 ^ f.fb + m'
    let top := (2 ^ f.eb - 1) * 2 ^ f.fb
    if bits < top then sb + bits
    else if mode = 2 ∨ (mode = 3 ∧ s) ∨ (mode = 4 ∧ !s) then sb + (top - 1) else sb + top

/-- A number rounded to a format (R103, R106). -/
def roundFl (f : Fmt) (mode : Nat) (x : Fl) : Nat :=
  match x with
  | .nan => f.nan
  | .inf s => f.infBits s
  | .fin s m e => let p := scaleQ m 1 e; roundQ f mode s p.1 p.2

/-- The sum of two numbers; an exact zero takes the sign IEEE 754 gives for the mode (R157). -/
def addFl (mode : Nat) (x y : Fl) : Fl :=
  match x, y with
  | .nan, _ => .nan
  | _, .nan => .nan
  | .inf s, .inf t => if s == t then .inf s else .nan
  | .inf s, .fin _ _ _ => .inf s
  | .fin _ _ _, .inf t => .inf t
  | .fin s m e, .fin t n k =>
    if m = 0 ∧ n = 0 then .fin (if s == t then s else mode == 4) 0 0
    else
      let lo := min e k
      let a : Int := Int.ofNat (m * 2 ^ (e - lo).toNat)
      let b : Int := Int.ofNat (n * 2 ^ (k - lo).toNat)
      let v := (if s then -a else a) + (if t then -b else b)
      if v = 0 then .fin (mode == 4) 0 0 else .fin (decide (v < 0)) v.natAbs lo

/-- The product of two numbers. -/
def mulFl (x y : Fl) : Fl :=
  match x, y with
  | .nan, _ => .nan
  | _, .nan => .nan
  | .inf s, .inf t => .inf (s != t)
  | .inf s, .fin t n _ => if n = 0 then .nan else .inf (s != t)
  | .fin s m _, .inf t => if m = 0 then .nan else .inf (s != t)
  | .fin s m e, .fin t n k => .fin (s != t) (m * n) (e + k)

/-- A number with its sign changed. -/
def negFl : Fl → Fl
  | .nan => .nan
  | .inf s => .inf (!s)
  | .fin s m e => .fin (!s) m e

/-- An operation of a format: inputs flushed, one rounding, the result flushed (R103, R105). -/
def fAdd (f : Fmt) (mode : Nat) (ftz : Bool) (a b : Nat) : Nat :=
  f.flush ftz (roundFl f mode (addFl mode (f.val (f.flush ftz a)) (f.val (f.flush ftz b))))
def fSub (f : Fmt) (mode : Nat) (ftz : Bool) (a b : Nat) : Nat :=
  f.flush ftz (roundFl f mode (addFl mode (f.val (f.flush ftz a)) (negFl (f.val (f.flush ftz b)))))
def fMul (f : Fmt) (mode : Nat) (ftz : Bool) (a b : Nat) : Nat :=
  f.flush ftz (roundFl f mode (mulFl (f.val (f.flush ftz a)) (f.val (f.flush ftz b))))
def fFma (f : Fmt) (mode : Nat) (ftz : Bool) (d a b : Nat) : Nat :=
  f.flush ftz (roundFl f mode (addFl mode (f.val (f.flush ftz d)) (mulFl (f.val (f.flush ftz a)) (f.val (f.flush ftz b)))))
def fFms (f : Fmt) (mode : Nat) (ftz : Bool) (d a b : Nat) : Nat :=
  f.flush ftz (roundFl f mode (addFl mode (f.val (f.flush ftz d)) (negFl (mulFl (f.val (f.flush ftz a)) (f.val (f.flush ftz b))))))

/-- The order of two non-NaN bit strings of a format, −0 below +0 (R106). -/
def Fmt.key (f : Fmt) (w : Nat) : Int := if f.sign w then -1 - Int.ofNat (w % f.top) else Int.ofNat (w % f.top)

/-- The bits are a NaN. -/
def Fmt.isNan (f : Fmt) (w : Nat) : Bool := match f.val w with | .nan => true | .inf _ => false | .fin _ _ _ => false

/-- The minimum (`mx` false) or maximum of R106. -/
def fMinMax (f : Fmt) (mx : Bool) (a b : Nat) : Nat :=
  if f.isNan a && f.isNan b then f.nan
  else if f.isNan a then b else if f.isNan b then a
  else if (decide (f.key a < f.key b)) != mx then a else b

/-- The minimum or maximum of a lane word: inputs flushed (R105, R157). -/
def fLaneMinMax (f : Fmt) (mx : Bool) (ftz : Bool) (a b : Nat) : Nat := fMinMax f mx (f.flush ftz a) (f.flush ftz b)

/-- A comparison of two f32 values by their difference's sign (R157): a NaN operand gives 0. -/
def fCmp (le eq : Bool) (ftz : Bool) (a b : Nat) : Word :=
  match addFl 1 (f32.val (f32.flush ftz a)) (negFl (f32.val (f32.flush ftz b))), f32.val (f32.flush ftz a), f32.val (f32.flush ftz b) with
  | _, .nan, _ => 0
  | _, _, .nan => 0
  | .nan, _, _ => ofBool eq
  | .inf s, _, _ => ofBool (le && s)
  | .fin s m _, _, _ => if m = 0 then ofBool eq else ofBool (le && s)

/-- A number rounded to an integer by the mode. -/
def roundInt (mode : Nat) (s : Bool) (m : Nat) (e : Int) : Int :=
  let p := scaleQ m 1 e
  let q := p.1 / p.2
  let q' := if roundUp mode s q (p.1 % p.2) p.2 then q + 1 else q
  if s then -(Int.ofNat q') else Int.ofNat q'

/-- A value held within bounds. -/
def clampInt (lo hi x : Int) : Int := max lo (min hi x)

/-- `fc.f32i` and `fc.f32n` (R111). -/
def cvtInt (lo hi : Int) (mode : Nat) (ftz : Bool) (a : Word) : Word :=
  match f32.val (f32.flush ftz a.toNat) with
  | .nan => 0
  | .inf s => BitVec.ofInt 32 (if s then lo else hi)
  | .fin s m e => BitVec.ofInt 32 (clampInt lo hi (roundInt mode s m e))

/-- An integer to f32 (R111). -/
def cvtFromInt (mode : Nat) (x : Int) : Word := BitVec.ofNat 32 (roundQ f32 mode (decide (x < 0)) x.natAbs 1)

/-- A conversion between IEEE formats (R111): flushed, rounded once, flushed. -/
def cvtFmt (f g : Fmt) (mode : Nat) (ftz : Bool) (a : Nat) : Nat := g.flush ftz (roundFl g mode (f.val (f.flush ftz a)))

/-- The magnitude of an lt8 code's t in units of 2^-19 (R107). -/
def lt8Mag (t : Nat) : Nat :=
  if t ≥ 64 then 2 ^ ((t - 64) / 16 + 15) * (16 + t % 16)
  else if t ≥ 32 then 2 ^ ((t - 32) / 8 + 12) * (8 + t % 8)
  else if t ≥ 16 then 2 ^ ((t - 16) / 4 + 9) * (4 + t % 4)
  else if t ≥ 8 then 2 ^ ((t - 8) / 2 + 6) * (2 + t % 2)
  else if t ≥ 4 then 2 ^ (t - 4 + 3)
  else if t ≥ 2 then 2 ^ (t - 2 + 1)
  else t

/-- The magnitude of an lt4 code's t in units of 2^-2 (R109). -/
def lt4Mag (t : Nat) : Nat := ([0, 1, 2, 3, 4, 6, 8, 12][t]?).getD 12

/-- An lt8 byte's value (R107). -/
def lt8Val (c : Nat) : Fl := if c % 256 = 128 then .nan else .fin (bitN c 7) (lt8Mag (c % 128)) (-19)

/-- An lt4 code's value (R109). -/
def lt4Val (c : Nat) : Fl := if c % 16 = 8 then .nan else .fin (bitN c 3) (lt4Mag (c % 8)) (-2)

/-- The largest t, of `k + 1` codes, whose magnitude is at most n / d. -/
def gridFloor (mag : Nat → Nat) (n d : Nat) : Nat → Nat
  | 0 => 0
  | k + 1 => if mag (k + 1) * d ≤ n then k + 1 else gridFloor mag n d k

/-- A real (-1)^s n / d, in the grid's units, rounded to a code (R108): a tie goes to the even t under rne, a magnitude
above the last saturates, a zero result has no sign. -/
def gridRound (mag : Nat → Nat) (top signBit mode : Nat) (s : Bool) (n d : Nat) : Nat :=
  let t := gridFloor mag n d top
  let up := if t = top then false else
    let lo := mag t * d
    let gap := (mag (t + 1) - mag t) * d
    roundUp mode s t (n - lo) gap
  let t' := if up then t + 1 else t
  if t' = 0 then 0 else t' + (if s then signBit else 0)

/-- A number to lt8 (R108). -/
def toLt8 (mode : Nat) (x : Fl) : Nat :=
  match x with
  | .nan => 0x80
  | .inf _ => 0x80
  | .fin s m e => let p := scaleQ m 1 (e + 19); gridRound lt8Mag 127 128 mode s p.1 p.2

/-- A number to lt4 (R109). -/
def toLt4 (mode : Nat) (x : Fl) : Nat :=
  match x with
  | .nan => 8
  | .inf _ => 8
  | .fin s m e => let p := scaleQ m 1 (e + 2); gridRound lt4Mag 7 8 mode s p.1 p.2

/-- A value times 2^k, rounded once when not exact (R114); NaN, infinities and zeros as they are. -/
def fLdexp (mode : Nat) (ftz : Bool) (a : Nat) (k : Int) : Nat :=
  let w := f32.flush ftz a
  match f32.val w with
  | .nan => f32.nan
  | .inf _ => w
  | .fin s m e =>
    if m = 0 then w
    else f32.flush ftz (roundFl f32 mode (.fin s m (e + max (-1024) (min 1024 k))))

/-- The elements of a packed entry (R102). -/
def half (w : Word) (e : Nat) : Nat := w.toNat / 2 ^ (16 * e) % 65536

/-- Two packed 16-bit results. -/
def pack16 (lo hi : Nat) : Word := BitVec.ofNat 32 (lo % 65536 + hi % 65536 * 65536)

/-- A function of 16-bit elements over two entries. -/
def map16 (f : Nat → Nat → Nat) (a b : Word) : Word := pack16 (f (half a 0) (half b 0)) (f (half a 1) (half b 1))

/-- A part of an entry replaced (R159). -/
def putPart (d : Word) (bits k v : Nat) : Word := BitVec.ofNat 32 (setFld d.toNat (bits * k + bits - 1) (bits * k) v)

/-- The reduction tree of R113 over the values of ascending thread indices: one level combines neighbours. -/
def treeLevel (op : Nat → Nat → Nat) : List Nat → List Nat
  | a :: b :: l => op a b :: treeLevel op l
  | [a] => [a]
  | [] => []

/-- The tree of a power of two of values, level after level. -/
def treeFold (op : Nat → Nat → Nat) : Nat → List Nat → Nat
  | 0, l => l.headD 0
  | n + 1, l => treeFold op n (treeLevel op l)

/-! Special functions (R160, R161). Fixed point with 640 fraction bits; a value that is no exact dyadic is rounded from
the middle of its enclosing step. That no such value lies nearer than the enclosure to a rounding boundary is not proved
(UNVERIFIED, log 12). -/

/-- The fraction bits of the fixed-point work. -/
def fxBits : Nat := 640

/-- One in fixed point. -/
def fxOne : Nat := 2 ^ 640

/-- Σ_{k ≥ k0} of z^(2k+1)/(2k+1), with sign alternation when `alt`: `p` is z^(2k+1) and `z2` is z², in fixed point. -/
def oddSeries (alt : Bool) (z2 : Nat) : Nat → Nat → Nat → Bool → Int
  | 0, _, _, _ => 0
  | fuel + 1, k, p, neg =>
    let t : Int := Int.ofNat (p / (2 * k + 1))
    (if neg then -t else t) + oddSeries alt z2 fuel (k + 1) (p * z2 / fxOne) (alt && !neg)

/-- artanh(z) for z in fixed point, z ≤ 1/3. -/
def artanhFx (z : Nat) : Nat := (oddSeries false (z * z / fxOne) 210 0 z false).toNat

/-- arctan(1/n) for n ≥ 5. -/
def arctanInv (n : Nat) : Nat := (oddSeries true (fxOne / (n * n)) 145 0 (fxOne / n) false).toNat

/-- ln 2. -/
def ln2Fx : Nat := 2 * artanhFx (fxOne / 3)

/-- π (Machin). -/
def piFx : Nat := 16 * arctanInv 5 - 4 * arctanInv 239

/-- Σ_{k ≥ k0} of y^k/k! in fixed point, `p` the current term. -/
def expSeries (y : Nat) : Nat → Nat → Nat → Nat
  | 0, _, _ => 0
  | fuel + 1, k, p => p + expSeries y fuel (k + 1) (p * y / fxOne / (k + 1))

/-- e^y for y in fixed point, 0 ≤ y < 1. -/
def expFx (y : Nat) : Nat := expSeries y 150 0 fxOne

/-- sin y for y in fixed point, 0 ≤ y ≤ π/2: Σ of alternating y^(2k+1)/(2k+1)!. -/
def sinSeries (y2 : Nat) : Nat → Nat → Nat → Bool → Int
  | 0, _, _, _ => 0
  | fuel + 1, k, p, neg =>
    let t : Int := Int.ofNat p
    (if neg then -t else t) + sinSeries y2 fuel (k + 1) (p * y2 / fxOne / ((2 * k + 2) * (2 * k + 3))) (!neg)

/-- sin y. -/
def sinFx (y : Nat) : Nat := (sinSeries (y * y / fxOne) 90 0 y false).toNat

/-- The rounded value of a positive number that lies within the step of a fixed-point value, times 2^e. -/
def roundFx (mode : Nat) (s : Bool) (v : Nat) (e : Int) : Nat :=
  let p := scaleQ (2 * v + 1) (2 * fxOne) e
  roundQ f32 mode s p.1 p.2

/-- The integer square root of n by halving steps: `b` bits from the top. -/
def isqrt (n : Nat) : Nat → Nat → Nat
  | 0, r => r
  | b + 1, r => if (r + 2 ^ b) * (r + 2 ^ b) ≤ n then isqrt n b (r + 2 ^ b) else isqrt n b r

/-- √(n / d · 2^(2e)) rounded: exact when the root is. -/
def roundSqrt (mode : Nat) (n d : Nat) (e : Int) : Nat :=
  let y := n * 2 ^ 128 / d
  let r := isqrt y 180 0
  let exact := r * r * d == n * 2 ^ 128
  let p := if exact then scaleQ r 1 (e - 64) else scaleQ (2 * r + 1) 2 (e - 64)
  roundQ f32 mode false p.1 p.2

/-- `fx.rcp` (R161). -/
def fRcp (mode : Nat) (w : Nat) : Nat :=
  match f32.val w with
  | .nan => f32.nan
  | .inf s => if s then f32.top else 0
  | .fin s m e => if m = 0 then f32.infBits s else let p := scaleQ 1 m (-e); roundQ f32 mode s p.1 p.2

/-- `fx.sqrt` (R161). -/
def fSqrt (mode : Nat) (w : Nat) : Nat :=
  match f32.val w with
  | .nan => f32.nan
  | .inf s => if s then f32.nan else f32.infBits false
  | .fin s m e =>
    if m = 0 then w else if s then f32.nan
    else if e % 2 = 0 then roundSqrt mode m 1 (e / 2) else roundSqrt mode (2 * m) 1 ((e - 1) / 2)

/-- `fx.rsqrt` (R161). -/
def fRsqrt (mode : Nat) (w : Nat) : Nat :=
  match f32.val w with
  | .nan => f32.nan
  | .inf s => if s then f32.nan else 0
  | .fin s m e =>
    if m = 0 then f32.infBits s else if s then f32.nan
    else if e % 2 = 0 then roundSqrt mode 1 m (-(e / 2)) else roundSqrt mode 1 (2 * m) (-((e - 1) / 2))

/-- 2^x for x = (-1)^s m 2^e: the integer part scales, the fraction is computed; far out of range the sticky bound
stands for the value (R103 decides). -/
def fExp2 (mode : Nat) (w : Nat) : Nat :=
  match f32.val w with
  | .nan => f32.nan
  | .inf s => if s then 0 else f32.infBits false
  | .fin s m e =>
    let p := scaleQ m 1 e
    let k : Int := if s then -(Int.ofNat ((p.1 + p.2 - 1) / p.2)) else Int.ofNat (p.1 / p.2)
    let frac := if s then ((p.1 + p.2 - 1) / p.2) * p.2 - p.1 else p.1 % p.2
    let k' := max (-512) (min 512 k)
    if frac = 0 then (let q := scaleQ 1 1 k'; roundQ f32 mode false q.1 q.2)
    else roundFx mode false (expFx (frac * fxOne / p.2 * ln2Fx / fxOne)) k'

/-- `fx.log2` (R161). -/
def fLog2 (mode : Nat) (w : Nat) : Nat :=
  match f32.val w with
  | .nan => f32.nan
  | .inf s => if s then f32.nan else f32.infBits false
  | .fin s m e =>
    if m = 0 then f32.infBits true else if s then f32.nan
    else
      let b := m.log2
      let k : Int := e + b
      if m = 2 ^ b then roundQ f32 mode (decide (k < 0)) k.natAbs 1
      else
        let x := m * fxOne / 2 ^ b
        let l := 2 * artanhFx ((x - fxOne) * fxOne / (x + fxOne)) * fxOne / ln2Fx
        if k ≥ 0 then roundFx mode false (k.toNat * fxOne + l) 0 else roundFx mode true ((-k).toNat * fxOne - l - 1) 0

/-- sin(π n/d) for a dyadic n/d ≥ 0 and a sign, by reduction to the first quarter; `zero` is the sign of an exact 0. -/
def sinpiQ (mode : Nat) (s : Bool) (n d : Nat) (zero : Bool) : Nat :=
  let r := n % (2 * d)
  let s' := s != decide (d < r ∧ r < 2 * d)
  let r1 := r % d
  let r2 := if 2 * r1 ≤ d then r1 else d - r1
  if r2 = 0 then (if zero then f32.top else 0)
  else if 2 * r2 = d then roundQ f32 mode s' 1 1
  else roundFx mode s' (sinFx (r2 * piFx / d)) 0

/-- `fx.sinpi` (R161). -/
def fSinpi (mode : Nat) (w : Nat) : Nat :=
  match f32.val w with
  | .nan => f32.nan
  | .inf _ => f32.nan
  | .fin s m e => let p := scaleQ m 1 e; sinpiQ mode s p.1 p.2 s

/-- `fx.cospi` (R161): cos πx = sin π(|x| + 1/2). -/
def fCospi (mode : Nat) (w : Nat) : Nat :=
  match f32.val w with
  | .nan => f32.nan
  | .inf _ => f32.nan
  | .fin _ m e => let p := scaleQ m 1 e; sinpiQ mode false (2 * p.1 + p.2) (2 * p.2) false

/-- `fx.tanh` (R161): (E − 1)/(E + 1) with E = e^(2|x|); from 64 on the value lies just below 1. -/
def fTanh (mode : Nat) (w : Nat) : Nat :=
  match f32.val w with
  | .nan => f32.nan
  | .inf s => roundQ f32 mode s 1 1
  | .fin s m e =>
    if m = 0 then w
    else
      let p := scaleQ m 1 e
      if 64 * p.2 ≤ p.1 then roundQ f32 mode s (2 ^ 160 - 1) (2 ^ 160)
      else
        let y := 2 * p.1 * fxOne / p.2
        let k := y / ln2Fx
        let v := expFx (y - k * ln2Fx) * 2 ^ k
        roundQ f32 mode s (2 * (v - fxOne) + 1) (2 * (v + fxOne) + 1)

/-- `fx.ceil` (`up`) and `fx.floor` (R160, R161): exact, a zero keeps A's sign. -/
def fIntegral (up : Bool) (w : Nat) : Nat :=
  match f32.val w with
  | .nan => f32.nan
  | .inf _ => w
  | .fin s m e =>
    let v := roundInt (if up then 3 else 4) s m e
    roundQ f32 1 s v.natAbs 1

/-- `fx.xexp` (R160, R161). -/
def fXexp (w : Nat) : Word :=
  match f32.val w with
  | .nan => 0x7FFFFFFF
  | .inf _ => 0x7FFFFFFF
  | .fin _ m e => if m = 0 then 0x80000000 else BitVec.ofInt 32 (e + m.log2)

/-- The result of an `fx` word: input flushed, result flushed (R105, R160). -/
def fxWord (f : Nat → Nat) (ftz : Bool) (a : Word) : Word := BitVec.ofNat 32 (f32.flush ftz (f (f32.flush ftz a.toNat)))

end Sys2Proof.Machine
end

