-- ==== Sys2Proof/Machine/Memory.lean ====
section
/-! DEFINITION. Memory: the canonical list of bytes at HOME, the address maps of R69, R70, R71 and R76, coherence orders
and floors (R85, R86), the table walk (R72-R75), the check of a memory entry (R297) and the cache tags (R79, R80). -/

namespace Sys2Proof.Machine

open Sys2Proof

/-- What a byte of memory that nothing has written reads as (DESIGN CHOICE, log 4). -/
def Memory.unlisted : Byte := 0

/-- The canonical form: addresses strictly rising from `lo`, no entry equal to the unlisted byte. -/
def Memory.wfFrom : Nat → List Host.Cell → Bool
  | _, [] => true
  | lo, (a, b) :: m => decide (lo ≤ a) && decide (b ≠ Memory.unlisted) && Memory.wfFrom (a + 1) m

/-- The canonical form of memory. -/
def Memory.wf (m : List Host.Cell) : Bool := Memory.wfFrom 0 m

/-- The byte at an address. -/
def Memory.read : List Host.Cell → Nat → Byte
  | [], _ => Memory.unlisted
  | (a, b) :: m, k => match Nat.beq a k with | true => b | false => Memory.read m k

/-- Puts a listed byte in its place. -/
def Memory.insert : List Host.Cell → Nat → Byte → List Host.Cell
  | [], k, b => [(k, b)]
  | (a, c) :: m, k, b => if k < a then (k, b) :: (a, c) :: m else if k = a then (k, b) :: m else (a, c) :: Memory.insert m k b

/-- Takes an address out of the list. -/
def Memory.erase : List Host.Cell → Nat → List Host.Cell
  | [], _ => []
  | (a, c) :: m, k => if a = k then m else (a, c) :: Memory.erase m k

/-- Writes a byte; writing the unlisted byte removes the entry. -/
def Memory.write (m : List Host.Cell) (a : Nat) (b : Byte) : List Host.Cell :=
  if b = Memory.unlisted then Memory.erase m a else Memory.insert m a b

/-- Writes bytes at ascending addresses. -/
def Memory.writeAll : List Host.Cell → Nat → List Byte → List Host.Cell
  | m, _, [] => m
  | m, a, b :: l => Memory.writeAll (Memory.write m a b) (a + 1) l

/-- Reads `n` bytes at ascending addresses. -/
def Memory.readAll (m : List Host.Cell) (a n : Nat) : List Byte := (List.range n).map (fun i => Memory.read m (a + i))

/-- Where a physical address lies (R70). -/
inductive PLoc where
  | hbm (die : Nat)
  | host
  | chip (die h : Nat)
  | none
deriving DecidableEq, Repr

/-- The physical map (R70): 192 GiB of HBM5 for each die, host memory, the on-chip maps. -/
def plocOf (pa : Nat) : PLoc :=
  if pa < 2 ^ 41 then (if pa % 2 ^ 38 < 3 * 2 ^ 36 then .hbm (pa / 2 ^ 38) else .none)
  else if pa < 2 ^ 50 then .none
  else if pa < 2 ^ 51 then .host
  else if pa < 2 ^ 51 + 2 ^ 43 then (if pa % 2 ^ 40 < 2 ^ 32 then .chip ((pa - 2 ^ 51) / 2 ^ 40) (pa % 2 ^ 40) else .none)
  else .none

/-- The address is HBM5 of some die. -/
def isHbm (pa : Nat) : Bool := match plocOf pa with | .hbm _ => true | _ => false

/-- The address is host memory. -/
def isHost (pa : Nat) : Bool := match plocOf pa with | .host => true | _ => false

/-- The physical address of a die-local address of the on-chip map (R70, R76). -/
def chipPa (die h : Nat) : Nat := 2 ^ 51 + die * 2 ^ 40 + h

/-- The physical address of a core's scratchpad offset (R69, R76). -/
def scratchPa (core o : Nat) : Nat := chipPa (dieOfCore core) (core % 28 * 2 ^ 27 + o)

/-- The number of a core's write-pointer cell among locations: beyond the physical space, the model's own (R85). -/
def wptrPa (core ch : Nat) : Nat := 2 ^ 52 + core * 32 + 8 * ch

/-- What a virtual address names (R69). -/
inductive VLoc where
  | mapped
  | scratch (o : Nat)
  | wptr (ch : Nat)
  | chip (h : Nat)
  | none
deriving DecidableEq, Repr

/-- The virtual map (R69). (DEDUCED, log 38) -/
def vlocOf (va : Nat) : VLoc :=
  if va < 255 * 2 ^ 48 then .mapped
  else if va < 255 * 2 ^ 48 + 0x300000 then .scratch (va - 255 * 2 ^ 48)
  else if va < 255 * 2 ^ 48 + 0x300020 then .wptr ((va - (255 * 2 ^ 48 + 0x300000)) / 8)
  else if va < 255 * 2 ^ 48 + 2 ^ 47 then .none
  else if va < 255 * 2 ^ 48 + 2 ^ 47 + 2 ^ 32 then .chip (va - (255 * 2 ^ 48 + 2 ^ 47))
  else .none

/-- The latest byte at a location (R85); a write-pointer cell is read from its channel (R83). -/
def homeByte (s : State) (pa : Nat) : Byte :=
  if pa < 2 ^ 52 then Memory.read s.mem pa
  else BitVec.ofNat 8 ((((coreOf s ((pa - 2 ^ 52) / 32)).cpwp[(pa - 2 ^ 52) % 32 / 8]?).getD 0) / 256 ^ (pa % 8))

/-- The latest `n` bytes from a location on. -/
def homeRead (s : State) (pa n : Nat) : List Byte := (List.range n).map (fun i => homeByte s (pa + i))

/-- The coherence order of a location: numbers of the writes and their values, the initial value first (R85). -/
def cohOf (s : State) (pa : Nat) : List (Nat × Byte) := (mget s.coh pa).getD [(0, homeByte s pa)]

/-- The latest index of a location (R86). -/
def latestIx (s : State) (pa : Nat) : Nat := (cohOf s pa).length - 1

/-- Appends one byte of write number `n` to its location (R90 T4); only HBM5 locations keep their older values, since
the others have no floors (R86). -/
def putByte (n : Nat) (s : State) (pa : Nat) (b : Byte) : State :=
  { s with mem := Memory.write s.mem pa b
           coh := if isHbm pa then mset s.coh pa (cohOf s pa ++ [(n, b)]) else s.coh }

/-- Appends bytes at ascending locations as one write. -/
def putBytes (n : Nat) : State → Nat → List Byte → State
  | s, _, [] => s
  | s, pa, b :: l => putBytes n (putByte n s pa b) (pa + 1) l

/-- The sectors a range touches (R79). -/
def sectorsOf (pa n : Nat) : List Nat := if n = 0 then [] else (List.range ((pa + n - 1) / 64 + 1 - pa / 64)).map (fun i => pa / 64 + i)

/-- The range covers the whole sector. -/
def coversSector (pa n sec : Nat) : Bool := decide (pa ≤ sec * 64) && decide (sec * 64 + 64 ≤ pa + n)

/-- A write performs at HOME: one write of the bytes in every coherence order (R90 T4, R97). A write of all 64 bytes of
a poisoned sector clears its mark (R360). -/
def homeWrite (s : State) (pa : Nat) (bs : List Byte) : State :=
  let s1 := putBytes s.seq { s with seq := s.seq + 1 } pa bs
  { s1 with poison := s1.poison.filter (fun sec => !coversSector pa bs.length sec) }

/-- The range meets a poisoned sector (R360). -/
def poisoned (s : State) (pa n : Nat) : Option Nat := (sectorsOf pa n).find? (fun sec => s.poison.contains sec)

/-- Two byte ranges share a byte. -/
def overlap (a n b m : Nat) : Bool := decide (a < b + m) && decide (b < a + n)

/-- An acquire at home scope sets every floor to the latest index (R92). -/
def allFloors (s : State) : NMap Nat := s.coh.map (fun e => (e.1, e.2.length - 1))

/-- The valid root of an ASID on a die (R74). -/
def rootOf (s : State) (die asid : Nat) : Option Nat :=
  ((List.range 64).find? (fun n => bitN (rdReg s (.asroot die n)) 63 && fld (rdReg s (.asroot die n)) 60 41 == asid)).map
    (fun n => fld (rdReg s (.asroot die n)) 40 0 * 2 ^ 11)

/-- The index of a virtual address in the table of a level (R72). -/
def walkIndex (level va : Nat) : Nat :=
  match level with
  | 0 => fld va 55 48
  | 1 => fld va 47 39
  | 2 => fld va 38 30
  | 3 => fld va 29 21
  | _ => fld va 20 16

/-- The size of a leaf's page at a level, in bits (R72). -/
def leafBits (level : Nat) : Nat := if level = 2 then 30 else if level = 3 then 21 else 16

/-- One level of the walk and the levels below it (R72, R73): a TLB entry, or the DETAIL of XLATE (R292). -/
def walkFrom (s : State) (asid va : Nat) : Nat → Nat → Nat → Except (Nat × Nat) Tlb
  | 0, _, _ => .error (0x12, 3)
  | fuel + 1, level, base =>
    let e := natOfBytes (homeRead s (base + 8 * walkIndex level va) 8)
    let addr := fld e 51 8 * 256
    if !bitN e 0 then .error (0x12, 1)
    else if fld e 63 52 != 0 || fld e 7 5 != 0 || bitN e 2 then .error (0x12, 2)
    else if bitN e 1 then
      if level < 2 then .error (0x12, 3)
      else if addr % 2 ^ leafBits level != 0 then .error (0x12, 4)
      else .ok ⟨asid, va / 2 ^ leafBits level, leafBits level, addr, bitN e 3, bitN e 4⟩
    else if level ≥ 4 then .error (0x12, 3)
    else if level < 3 && addr % 2 ^ 12 != 0 then .error (0x12, 4)
    else walkFrom s asid va fuel (level + 1) addr

/-- A walk from an address space's root on a die (R72, R74); the range of the apertures is never walked. -/
def walk (s : State) (die asid va : Nat) : Except (Nat × Nat) Tlb :=
  match rootOf s die asid with
  | none => .error (0x12, 5)
  | some r => if va < 255 * 2 ^ 48 then walkFrom s asid va 5 0 r else .error (0x12, 1)

/-- The location is a window-counter cell (R85): it has advanced, or an entry of a window table names it as an arrived cell
of a die of this package (R242). -/
def isCell (s : State) (pa : Nat) : Bool :=
  (match plocOf pa with | .hbm d => (dieOf s d).cells.contains (pa / 8 * 8) | _ => false) ||
  s.regs.any (fun e => decide (e.1 / 2 ^ 32 = 21) && bitN e.2 255 && (match walk s (fld e.2 253 251) (fld e.2 207 188) (fld e.2 91 36) with
    | .ok t => decide (t.page + fld e.2 91 36 % 2 ^ t.bits ≤ pa) && decide (pa < t.page + fld e.2 91 36 % 2 ^ t.bits + 8)
    | .error _ => false))

/-- The TLB entry that covers a page of an address space (R75). -/
def tlbHit (l : List Tlb) (asid va : Nat) : Option Tlb := l.find? (fun e => e.asid == asid && e.vpage == va / 2 ^ e.bits)

/-- The translation that an access of a core meets: its core's TLB, its die's, or a walk (R75). -/
def xlat (s : State) (core asid va : Nat) : Except (Nat × Nat) Tlb :=
  match tlbHit (coreOf s core).tlb asid va with
  | some e => .ok e
  | none => match tlbHit (dieOf s (dieOfCore core)).tlb asid va with
    | some e => .ok e
    | none => walk s (dieOfCore core) asid va

/-- The physical address of a virtual one under a TLB entry. -/
def tlbPa (e : Tlb) (va : Nat) : Nat := e.page + va % 2 ^ e.bits

/-- Fills a TLB of a capacity; the oldest entry makes room (DESIGN CHOICE, log 20). -/
def tlbFill (cap : Nat) (l : List Tlb) (e : Tlb) : List Tlb :=
  if l.contains e then l else ((l.filter (fun x => !(x.asid == e.asid && x.vpage == e.vpage && x.bits == e.bits))) ++ [e]).drop
    ((l.filter (fun x => !(x.asid == e.asid && x.vpage == e.vpage && x.bits == e.bits))).length + 1 - cap)

/-- What an access is, for the check of R297: a load, a store, an atomic of an fn, the load of `sync.mwait`, an engine
read or write. -/
inductive AccKind where
  | load
  | store
  | atomic (fn : Nat)
  | mwait
  | engRead
  | engWrite
  | stoRow
deriving DecidableEq, Repr

/-- The access needs W = 1 (R73). -/
def AccKind.writes : AccKind → Bool
  | .load => false | .store => true | .atomic _ => true | .mwait => false | .engRead => false | .engWrite => true | .stoRow => true

/-- An engine's access. -/
def AccKind.engine : AccKind → Bool
  | .load => false | .store => false | .atomic _ => false | .mwait => false | .engRead => true | .engWrite => true | .stoRow => false

/-- The access may reach host memory (R174, R292 REACH 4). -/
def AccKind.hostOk : AccKind → Bool
  | .load => true | .store => true | .atomic fn => fn == 0 || fn == 8 || fn == 9 | .mwait => false | .engRead => true | .engWrite => true
  | .stoRow => false

/-- The physical part of the check (R297 step 7): homed on another die, in the on-chip map, host memory, in no range;
then REACH 6 of a checked unit (R335, log 21). -/
def checkPa (core : Nat) (k : AccKind) (chk : Bool) (pa : Nat) : Except (Nat × Nat) Nat :=
  match plocOf pa with
  | .hbm d => if d ≠ dieOfCore core then .error (0x14, 1)
      else match k, chk with
        | .atomic _, true => .error (0x14, 6)
        | .mwait, true => .error (0x14, 6)
        | _, _ => .ok pa
  | .chip _ _ => .error (0x14, 2)
  | .host => if !k.hostOk then .error (0x14, 4)
      else match k, chk with
        | .atomic _, true => .error (0x14, 6)
        | _, _ => .ok pa
  | .none => .error (0x11, 2)

/-- The check of a memory access before its step, in the order of R297: the physical address, or cause and DETAIL. -/
def memCheck (s : State) (core asid : Nat) (k : AccKind) (chk : Bool) (va size : Nat) : Except (Nat × Nat) Nat :=
  if va ≥ 2 ^ 56 then .error (0x11, 1)
  else if k ≠ .mwait ∧ !k.engine ∧ k ≠ .stoRow ∧ va % size ≠ 0 then .error (0x10, 1)
  else match vlocOf va with
  | .wptr ch =>
      if k.engine then .error (0x14, 5)
      else if va % 8 ≠ 0 then .error (0x10, 2)
      else if k = .load ∧ size = 8 then .ok (wptrPa core ch) else .error (0x14, 5)
  | .scratch o =>
      if k = .mwait ∧ va % 4 ≠ 0 then .error (0x10, 3)
      else if k = .mwait ∧ chk then .error (0x14, 6)
      else .ok (scratchPa core o)
  | .none => if k = .mwait ∧ va % 4 ≠ 0 then .error (0x10, 3) else .error (0x11, 2)
  | .chip _ => if k = .mwait ∧ va % 4 ≠ 0 then .error (0x10, 3) else .error (0x14, 3)
  | .mapped =>
      if k = .mwait ∧ va % 4 ≠ 0 then .error (0x10, 3)
      else match xlat s core asid va with
      | .error e => .error e
      | .ok e => if k.writes && !e.w then .error (0x13, 1) else checkPa core k chk (tlbPa e va)

/-- The word at a virtual address, for a fetch (R73, R131, R292): it needs X = 1. (DESIGN CHOICE, log 102) -/
def fetchWord (s : State) (core asid va : Nat) : Except (Nat × Nat) Word :=
  match xlat s core asid va with
  | .error e => .error e
  | .ok e => if !e.x then .error (0x13, 2) else .ok (BitVec.ofNat 32 (natOfBytes (homeRead s (tlbPa e va) 4)))

/-- Bytes read through an address space by the hub, from the root on the lowest-numbered die that holds it (R74). (DEDUCED, log 74) -/
def hubRoot (s : State) (asid : Nat) : Option Nat := (List.range 8).find? (fun d => (rootOf s d asid).isSome)

/-- The hub's translation (R74): physical address and W. -/
def hubXlat (s : State) (asid va : Nat) : Except (Nat × Nat) Tlb :=
  match hubRoot s asid with
  | none => .error (0x12, 5)
  | some d => walk s d asid va

/-- The way of the oldest line of a set among a mask of ways, an unused way first (R79, R80). -/
def victimWay (ways mask : Nat) (set : List CLine) : Option Nat :=
  match (List.range ways).find? (fun w => bitN mask w && !(set.any (fun c => c.way == w))) with
  | some w => some w
  | none => (set.find? (fun c => bitN mask c.way)).map (·.way)

/-- A set of lines after an access to a sector: a hit moves its line to the end (the most recently used), a miss
allocates among the mask's ways, replacing the least recently used (R79, R80). -/
def touchSet (ways mask owner line sector : Nat) (anyOwner : Bool) (set : List CLine) : List CLine :=
  match set.find? (fun c => c.line == line && (anyOwner || c.owner == owner)) with
  | some c => set.filter (fun x => !(x.line == line && (anyOwner || x.owner == owner))) ++
      [{ c with sectors := if bitN c.sectors sector then c.sectors else c.sectors + 2 ^ sector }]
  | none => match victimWay ways mask set with
    | none => set
    | some w => set.filter (fun x => x.way != w) ++ [⟨w, line, owner, 2 ^ sector, 0⟩]

/-- A watchpoint that matches reads covers the line (R346). -/
def watchedLine (s : State) (die line : Nat) : Bool :=
  (List.range 8).any (fun n => bitN (rdReg s (.watch die n)) 127 && bitN (rdReg s (.watch die n)) 126 && !bitN (rdReg s (.watch die n)) 123
    && fld (rdReg s (.watch die n)) 51 0 / 256 == line)

/-- A load's line enters the L1 of its core in the ways of its slot (R79). A store is no use of a line. (DEDUCED, log 94) (DESIGN CHOICE,
log 128) -/
def l1Touch (s : State) (core slot pa : Nat) : State :=
  if !isHbm pa && !isHost pa || watchedLine s (dieOfCore core) (pa / 256) then s
  else
    let c := coreOf s core
    let set := (mget c.l1 (pa / 256 % 64)).getD []
    let set' := touchSet 16 (dpL1way (rdReg s (.dpart core slot))) slot (pa / 256) (pa / 64 % 4) false set
    setCore s core { c with l1 := mset c.l1 (pa / 256 % 64) set' }

/-- The ways of a domain identifier in a die's L2 (R80). -/
def l2Mask (s : State) (die dom : Nat) : Nat :=
  let es := (List.range 32).map (fun n => rdReg s (.l2way die n))
  let valid := es.filter (fun e => bitN e 63)
  let own := valid.filter (fun e => fld e 35 24 == dom)
  let union := fun (l : List Nat) => l.foldl (fun m e => m ||| fld e 23 0) 0
  if own.isEmpty then (2 ^ 24 - 1) ^^^ union valid else union own

end Sys2Proof.Machine
end

