-- ==== Sys2Proof/Machine/Channel.lean ====
section
/-! DEFINITION. HBM5 channels and the L2 that asks them for sectors (R80, R359-R364): parity, the array code, the logs, the
error injector, and the lines of a die's L2. A sector is named by PA[51:6]. Faults come from the injector alone (DESIGN
CHOICE, log 46). -/

namespace Sys2Proof.Machine

open Sys2Proof

/-- The channel of a sector (R71). -/
def sectorChan (sec : Nat) : Nat := sec / 1024 % 64

/-- Lanes that a spare replaces (R367). -/
def swappedLanes (v : Nat) : List Nat := (if bitN v 7 then [fld v 5 0] else []) ++ (if bitN v 15 then [fld v 13 8] else [])

/-- The channel has failed (R364). -/
def chanFailed (s : State) (die ch : Nat) : Bool := bitN (rdReg s (.lswap die ch)) 63

/-- The array's wrong bits with one inverted. -/
def flipBit (fs : List (Nat × Nat)) (sec bit : Nat) : List (Nat × Nat) :=
  if fs.contains (sec, bit) then fs.filter (fun f => f != (sec, bit)) else fs ++ [(sec, bit)]

/-- What an attempt of a transfer has met: the lanes whose parity failed in each beat, and array bits planted on a write,
which are inverted after the write. -/
structure Attempt where
  beat0 : List Nat
  beat1 : List Nat
  planted : List Nat
deriving DecidableEq, Repr

/-- What the injector plants in a beat (R369): the class and the generator's value, and the state after its step. -/
def injectStep (s : State) (die ch : Nat) : Option (Nat × Nat) × State :=
  let v := rdReg s (.injctl die)
  if !bitN v 63 || !s.hub.img.tests.contains die || fld v 61 56 != ch then (none, s)
  else
    let x := (xorshift (BitVec.ofNat 64 (rdReg s (.injseed die)))).toNat
    let s1 := wrReg s (.injseed die) x
    let k := fld x 13 12
    if fld x 63 40 < fld v 23 0 ∧ bitN v (52 + k) then
      let hits := fld v 47 44 + 1
      let w := setFld v 47 44 (Nat.min 15 hits)
      (some (k, x), wrReg s1 (.injctl die) (if fld v 51 48 ≠ 0 ∧ hits = fld v 51 48 then setFld w 63 63 0 else w))
    else (none, s1)

/-- One beat of a transfer (R361, R369): the injector acts; the lanes of the beat whose parity fails, and the bits planted. -/
def beat (s : State) (die sec b : Nat) (write : Bool) : List Nat × List Nat × State :=
  let ch := sectorChan sec
  let r := injectStep s die ch
  let s1 := r.2
  let noted := fun (s : State) => modDie s die (fun d => { d with injected := nub (d.injected ++ [sec]) })
  let plant := fun (s : State) (bits : List Nat) =>
    if write then (bits.map (fun i => 256 * b + i), noted s)
    else ([], noted (modDie s die (fun d => { d with flips := bits.foldl (fun fs i => flipBit fs sec (256 * b + i)) d.flips })))
  let step : List Nat × List Nat × State := match r.1 with
    | none => ([], [], s1)
    | some (k, x) =>
      if k = 0 then ([fld x 21 16], [], s1)
      else if k = 1 then ([], [], modDie s1 die (fun d => { d with stuck := if d.stuck.contains (ch, fld x 21 16) then d.stuck else d.stuck ++ [(ch, fld x 21 16)] }))
      else if k = 2 then ([], plant s1 [fld x 23 16])
      else ([], plant s1 [fld x 23 16, (fld x 23 16 + 1) % 256])
  let s2 := step.2.2
  let out := swappedLanes (rdReg s2 (.lswap die ch))
  let stuck := ((dieOf s2 die).stuck.filter (fun f => f.1 == ch)).map (·.2)
  let bad := (step.1.filter (fun l => !stuck.contains l) ++ stuck.filter (fun l => !step.1.contains l)).filter (fun l => !out.contains l)
  (bad, step.2.1, s2)

/-- One attempt of a transfer: both beats. -/
def attempt (s : State) (die sec : Nat) (write : Bool) : Attempt × State :=
  let r0 := beat s die sec 0 write
  let r1 := beat r0.2.2 die sec 1 write
  (⟨r0.1, r1.1, r0.2.1 ++ r1.2.1⟩, r1.2.2)

/-- The attempt passes parity. -/
def Attempt.passes (a : Attempt) : Bool := a.beat0.isEmpty && a.beat1.isEmpty

/-- The lanes that failed. -/
def Attempt.lanes (a : Attempt) : List Nat := sortBy (fun l => l) (nub (a.beat0 ++ a.beat1))

/-- A count that saturates in a field of DIE.HBMLOG (R366). -/
def countLog (s : State) (die hi lo : Nat) : State :=
  let v := rdReg s (.hbmlog die)
  wrReg s (.hbmlog die) (setFld v hi lo (Nat.min (2 ^ (hi + 1 - lo) - 1) (fld v hi lo + 1)))

/-- The head of a log moves on (R366). -/
def moveHead (s : State) (die hi lo : Nat) : State :=
  let v := rdReg s (.hbmlog die)
  wrReg s (.hbmlog die) (setFld v hi lo ((fld v hi lo + 1) % 32))

/-- A report to the die controller's firmware. -/
def tellFirmware (s : State) (die code : Nat) : State := modHub s (fun h => { h with reports := h.reports ++ [(die, code)] })

/-- An array record (R359, R366). -/
def logArray (s : State) (die sec : Nat) (ue : Bool) (bit : Nat) : State :=
  let n := fld (rdReg s (.hbmlog die)) 23 19
  let inj := (dieOf s die).injected.contains sec
  let v := 2 ^ 127 + (if ue then 2 ^ 126 else 0) + (if inj then 2 ^ 125 else 0) + sectorChan sec / 32 * 2 ^ 119 + sectorChan sec % 32 * 2 ^ 114 +
    (dieOf s die).time % 2 ^ 48 * 2 ^ 56 + sec % 2 ^ 46 * 2 ^ 10 + (if ue then 0 else bit)
  let s1 := moveHead (wrReg s (.aelog die n) v) die 23 19
  tellFirmware (if ue then countLog s1 die 51 44 else countLog s1 die 63 52) die 2

/-- A transfer record (R362, R363, R366). -/
def logTransfer (s : State) (die : Nat) (x : Xfer) (res : Nat) : State :=
  let n := fld (rdReg s (.hbmlog die)) 18 14
  let v := 2 ^ 127 + (if x.write then 2 ^ 126 else 0) + (if x.inj then 2 ^ 125 else 0) + res * 2 ^ 122 + sectorChan x.sector / 32 * 2 ^ 119 +
    sectorChan x.sector % 32 * 2 ^ 114 + x.beats * 2 ^ 112 + x.attempts * 2 ^ 108 + x.time % 2 ^ 48 * 2 ^ 56 + x.sector % 2 ^ 46 * 2 ^ 10 +
    (if decide (1 < x.last.length) then 2 ^ 7 else 0) + (minOf x.last).getD 0
  let s1 := countLog (moveHead (wrReg s (.telog die n) v) die 18 14) die 43 32
  tellFirmware (if res = 2 then countLog s1 die 31 24 else s1) die 3

/-- A sector is delivered poisoned (R360). -/
def markPoison (s : State) (sec : Nat) : State := if s.poison.contains sec then s else { s with poison := s.poison ++ [sec] }

/-- A write transfer passes: the sector's wrong bits go, and those planted in it come after it (R369); a poisoned sector is
written with the poison code (R360). -/
def writePassed (s : State) (die sec : Nat) (planted : List Nat) : State :=
  modDie s die (fun d => { d with
    flips := d.flips.filter (fun f => f.1 != sec) ++ planted.map (fun b => (sec, b))
    coded := if s.poison.contains sec then nub (d.coded ++ [sec]) else d.coded.filter (fun i => i != sec)
    injected := if planted.isEmpty then d.injected.filter (fun i => i != sec) else nub (d.injected ++ [sec]) })

/-- A transfer whose attempt failed enters its retry sequence, or goes on in it (R362). -/
def failedXfer (s : State) (die sec : Nat) (write : Bool) (a : Attempt) : Xfer :=
  { sector := sec, write := write, attempts := 1, beats := (if a.beat0.isEmpty then 0 else 1) + (if a.beat1.isEmpty then 0 else 2)
    lanes := a.lanes, last := a.lanes, inj := true, time := (dieOf s die).time, tried := (dieOf s die).time, swapping := false }

/-- The transfers in retry with one more. -/
def pushXfer (s : State) (die : Nat) (x : Xfer) : State := modDie s die (fun d => { d with xfers := d.xfers ++ [x] })

/-- A write transfer starts (R361): a failed channel drops it (R364). -/
def writeTransfer (s : State) (die sec : Nat) : State :=
  if chanFailed s die (sectorChan sec) then s
  else
    let r := attempt s die sec true
    if r.1.passes then writePassed r.2 die sec r.1.planted else pushXfer r.2 die (failedXfer r.2 die sec true r.1)

/-- The data that a sector delivers with bits that the code does not find inverted (R359). -/
def corrupt (s : State) (sec : Nat) (bits : List Nat) : State :=
  let bs := homeRead s (64 * sec) 64
  homeWrite s (64 * sec) ((List.range 64).map (fun i =>
    ((bs[i]?).getD 0) ^^^ BitVec.ofNat 8 (sumOf ((bits.filter (fun b => b / 8 == i)).map (fun b => 2 ^ (b % 8))))))

/-- The array code of a read that passed parity (R359, R365): one bit corrected and scrubbed, two delivered poisoned; of more
it is not promised that they are found (DESIGN CHOICE, log 46: a free value decides). -/
def checkArray (s : State) (die sec : Nat) : State :=
  if (dieOf s die).coded.contains sec then markPoison s sec
  else match ((dieOf s die).flips.filter (fun f => f.1 == sec)).map (·.2) with
    | [] => s
    | [b] => writeTransfer (logArray s die sec false b) die sec
    | [_, _] => markPoison (logArray s die sec true 0) sec
    | bits =>
      let s1 := { s with free := s.free + 1 }
      if (Config.freeWord s.free).toNat % 2 = 0 then markPoison (logArray s1 die sec true 0) sec else corrupt s1 sec bits

/-- A sector that the L2 writes back waits while a lane of its channel is swapped (R363), or its transfer starts. -/
def writeBack (s : State) (die sec : Nat) : State :=
  if (mget (dieOf s die).swaps (sectorChan sec)).isSome then modDie s die (fun d => { d with wb := d.wb ++ [sec] }) else writeTransfer s die sec

/-- A line leaves the L2: what the array does not hold is written back, and a mark that the array does not hold goes (R359, R360). -/
def dropLine (die : Nat) (s : State) (c : CLine) : State :=
  (List.range 4).foldl (fun s k =>
    let sec := 4 * c.line + k
    if bitN c.dirty k then writeBack s die sec
    else if bitN c.sectors k && !(dieOf s die).coded.contains sec then { s with poison := s.poison.filter (fun p => p != sec) }
    else s) s

/-- The set of an L2 that holds a sector. -/
def l2Set (s : State) (die sec : Nat) : List CLine := (mget (dieOf s die).l2 (sec / 4 % 16384)).getD []

/-- The L2 of its home die holds a sector (R80). -/
def l2Has (s : State) (die sec : Nat) : Bool := (l2Set s die sec).any (fun c => c.line == sec / 4 && bitN c.sectors (sec % 4))

/-- A sector stands in the L2 of its die, most recently used, in the ways of the accessing domain (R80); `dirty` marks one
that the array does not hold, which is written to the array at once where no way may hold it. -/
def l2Fill (s : State) (die dom sec : Nat) (dirty : Bool) : State :=
  let set := l2Set s die sec
  let new := (touchSet 24 (l2Mask s die dom) dom (sec / 4) (sec % 4) true set).map (fun c =>
    if dirty && c.line == sec / 4 && !bitN c.dirty (sec % 4) then { c with dirty := c.dirty + 2 ^ (sec % 4) } else c)
  let s1 := modDie s die (fun d => { d with l2 := mset d.l2 (sec / 4 % 16384) new })
  let s2 := (set.filter (fun c => !(new.any (fun k => k.line == c.line)))).foldl (dropLine die) s1
  if dirty && !(new.any (fun k => k.line == sec / 4)) then writeBack s2 die sec else s2

/-- A read transfer has brought its sector: those that wait for it in the L2 find it there (R80, R363). -/
def deliverSector (s : State) (die sec : Nat) : State :=
  let ws := (dieOf s die).wants.filter (fun w => w.1 == sec)
  let s1 := modDie s die (fun d => { d with wants := d.wants.filter (fun w => w.1 != sec) })
  ws.foldl (fun s w =>
    let t := l2Fill s die w.2 sec false
    if l2Has t die sec then t else modDie t die (fun d => { d with passed := nub (d.passed ++ [sec]) })) s1

/-- An attempt of a transfer has passed. -/
def passedXfer (s : State) (die : Nat) (x : Xfer) (a : Attempt) (res : Nat) : State :=
  let s1 := logTransfer s die { x with attempts := x.attempts + 1 } res
  if x.write then writePassed s1 die x.sector a.planted else deliverSector (checkArray s1 die x.sector) die x.sector

/-- A transfer has failed, and its channel with it (R363, R364). -/
def failXfer (s : State) (die : Nat) (x : Xfer) : State :=
  let ch := sectorChan x.sector
  let s1 := logTransfer s die x 2
  let s2 := tellFirmware (wrReg s1 (.lswap die ch) (setFld (rdReg s1 (.lswap die ch)) 63 63 1)) die 4
  if x.write then s2 else deliverSector (markPoison s2 x.sector) die x.sector

/-- An access of a domain waits in the L2 for a sector (R363). -/
def wantSector (s : State) (die dom sec : Nat) : State :=
  modDie s die (fun d => { d with wants := if d.wants.contains (sec, dom) then d.wants else d.wants ++ [(sec, dom)] })

/-- A read transfer of a sector that misses starts (R361, R362, R364); those that wait for it get it when it passes. -/
def readTransfer (s : State) (die sec : Nat) : State :=
  if chanFailed s die (sectorChan sec) then deliverSector (markPoison s sec) die sec
  else
    let r := attempt s die sec false
    if r.1.passes then deliverSector (checkArray r.2 die sec) die sec else pushXfer r.2 die (failedXfer r.2 die sec false r.1)

/-- An access of a domain reads a sector through the L2 of its home die: `false` where it still waits for a transfer (R80,
R361-R363). -/
def fetchSector (s : State) (dom sec : Nat) : State × Bool :=
  match plocOf (64 * sec) with
  | .hbm d =>
    if l2Has s d sec then (l2Fill s d dom sec false, true)
    else if (dieOf s d).passed.contains sec then (modDie s d (fun e => { e with passed := e.passed.filter (fun k => k != sec) }), true)
    else
      let s1 := wantSector s d dom sec
      if (dieOf s d).xfers.any (fun x => x.sector == sec) || (mget (dieOf s d).swaps (sectorChan sec)).isSome then (s1, false)
      else
        let s2 := readTransfer s1 d sec
        if l2Has s2 d sec then (s2, true)
        else if (dieOf s2 d).passed.contains sec then (modDie s2 d (fun e => { e with passed := e.passed.filter (fun k => k != sec) }), true)
        else (s2, false)
  | .host => (s, true)
  | .chip _ _ => (s, true)
  | .none => (s, true)

/-- An access reads some bytes through the L2: `false` where a sector still waits. -/
def l2Read (s : State) (dom pa n : Nat) : State × Bool :=
  (sectorsOf pa n).foldl (fun q sec => let r := fetchSector q.1 dom sec
    (r.1, q.2 && r.2)) (s, true)

/-- An access that writes some bytes reads through the L2 each sector that it covers only in part (R80): `false` where one still waits
for its transfer (R361, R363). -/
def writeFetch (s : State) (dom pa n : Nat) : State × Bool :=
  (sectorsOf pa n).foldl (fun q sec => if coversSector pa n sec then q else
    let r := fetchSector q.1 dom sec
    (r.1, q.2 && r.2)) (s, true)

/-- The same of several ranges. -/
def writeFetchAll (s : State) (dom : Nat) (l : List (Nat × Nat)) : State × Bool :=
  l.foldl (fun q p => let r := writeFetch q.1 dom p.1 p.2
    (r.1, q.2 && r.2)) (s, true)

/-- The sectors of a write stand in the L2, not yet in the array (R80). -/
def l2Write (s : State) (dom pa n : Nat) : State :=
  (sectorsOf pa n).foldl (fun s sec => match plocOf (64 * sec) with
    | .hbm d => l2Fill s d dom sec true
    | .host => s
    | .chip _ _ => s
    | .none => s) s

/-- A write performs at HOME through the L2, its partial sectors read before (R80, R90 T4); a sector covered whole has lost its mark
when it leaves for the array (R360). -/
def memWrite (s : State) (dom pa : Nat) (bs : List Byte) : State :=
  homeWrite (l2Write { s with poison := s.poison.filter (fun sec => !coversSector pa bs.length sec) } dom pa bs.length) pa bs

/-- A write that does not wait for what it reads through the L2. (DESIGN CHOICE, log 102) -/
def memWriteNow (s : State) (dom pa : Nat) (bs : List Byte) : State := memWrite (writeFetch s dom pa bs.length).1 dom pa bs

/-- The transfers in retry with one replaced. -/
def setXfer (s : State) (die : Nat) (old : Xfer) (new : List Xfer) : State :=
  modDie s die (fun d => { d with xfers := d.xfers.flatMap (fun x => if x == old then new else [x]) })

end Sys2Proof.Machine
end

