-- ==== Sys2Proof/Machine/Names.lean ====
section
/-! DEFINITION. The binder's operations on names (R49-R67, R316, R318): pools and quotas, binding and claiming, drops,
counts, full bits, write-outs to spill slots, and the results that arrive. -/

namespace Sys2Proof.Machine

open Sys2Proof

/-- The octets a group uses (R28). -/
def octetsOf (x : Group) : List Nat :=
  if x.width = 8 then [x.base / 8 % 4] else if x.width = 16 then [x.base / 8 % 4, (x.base / 8 + 1) % 4] else [0, 1, 2, 3]

/-- The binding size of a name of a class, in resources of its pool (R49, R50). -/
def bindSize (width : Nat) (c : NClass) : Nat :=
  match c with
  | .lane => width / 8
  | .uniform => 1
  | .perm => 1
  | .acc => width / 8

/-- The pool of a class in a partition (R49): row numbers, entries, registers, blocks. -/
def poolSize (c : NClass) : Nat :=
  match c with
  | .lane => 512 | .uniform => 8192 | .perm => 64 | .acc => 64

/-- A domain slot's quota of a class in a partition (R63). -/
def quotaOf (dp : Nat) (c : NClass) : Nat :=
  match c with
  | .lane => 4 * dpRows dp | .uniform => dpUreg dp | .perm => dpPerm dp | .acc => 8 * dpAcc dp

/-- A name that holds resources, with its group: `level` 0 for the group's names, n for the n-th frame of its gable
stack (R194). -/
structure Holder where
  uid : Nat
  g : Nat
  level : Nat
  octets : List Nat
  width : Nat
  name : NameSt
deriving DecidableEq, Repr

/-- The names of a group and of its gable frames, with their level. -/
def levelNames (x : Group) : List (Nat × NameSt) :=
  x.names.map (fun m => (0, m)) ++
  (List.range x.gstack.length).flatMap (fun i => match x.gstack[i]? with
    | none => []
    | some f => f.names.map (fun m => (i + 1, m)))

/-- The groups placed in a partition. -/
def groupsAt (s : State) (core part : Nat) : List (Nat × Group) :=
  s.units.flatMap (fun u => (u.groups.filter (fun x => x.core == core && x.part == part)).map (fun x => (u.uid, x)))

/-- The names of a class that hold resources in a partition. -/
def holders (s : State) (core part : Nat) (c : NClass) : List Holder :=
  (groupsAt s core part).flatMap (fun ux => ((levelNames ux.2).filter (fun lm => lm.2.cls == c && !lm.2.res.isEmpty)).map
    (fun lm => ⟨ux.1, ux.2.gidx, lm.1, octetsOf ux.2, ux.2.width, lm.2⟩))

/-- The holder has resource n, for lane rows in one of the octets. -/
def Holder.uses (h : Holder) (c : NClass) (octs : List Nat) (n : Nat) : Bool :=
  h.name.res.contains n && (c != .lane || h.octets.any (fun o => octs.contains o))

/-- The amount of a class that a domain slot holds in a partition (R63). -/
def heldAmount (hs : List Holder) (c : NClass) (slot : Nat) : Nat :=
  sumOf ((hs.filter (fun h => h.name.owner == slot)).map (fun h => bindSize h.width c))

/-- The candidate bindings of a name in ascending resource number (R50, R52, R67): for width 64 a lane name takes two
row numbers, adjacent ones when it is pinned; a tile takes an aligned run of blocks. `ok` says which may be taken
together. -/
def pickRes (c : NClass) (width : Nat) (pinned : Bool) (ok : List Nat → Bool) : Option (List Nat) :=
  match c with
  | .lane =>
      if width = 64 then
        if pinned then ((List.range 511).find? (fun n => ok [n, n + 1])).map (fun n => [n, n + 1])
        else match (List.range 512).find? (fun n => ok [n]) with
          | none => none
          | some n => ((List.range 512).find? (fun k => decide (n < k) && ok [n, k])).map (fun k => [n, k])
      else ((List.range 512).find? (fun n => ok [n])).map (fun n => [n])
  | .uniform => ((List.range 8192).find? (fun n => ok [n])).map (fun n => [n])
  | .perm => ((List.range 64).find? (fun n => ok [n])).map (fun n => [n])
  | .acc => ((List.range (512 / width)).map (fun j => (List.range (width / 8)).map (fun i => j * (width / 8) + i))).find? ok

/-- The free binding that a name of the group would take (R52). -/
def freeRes (s : State) (x : Group) (c : NClass) (pinned : Bool) : Option (List Nat) :=
  let hs := holders s x.core x.part c
  pickRes c x.width pinned (fun l => l.all (fun n => !(hs.any (fun h => h.uses c (octetsOf x) n))))

/-- The slots a name needs (R60). -/
def slotsFor (width : Nat) (c : NClass) : Nat :=
  match c with
  | .lane => if width = 64 then 2 else 1
  | .uniform => 1
  | .perm => 1
  | .acc => 2 * width

/-- The spill area of a level of a group: base, size in slots, slots given out (R60, R194). -/
def spillArea (u : DUnit) (x : Group) (level : Nat) : Nat × Nat × Nat :=
  if level = x.gstack.length then (u.spill, u.spsz, u.nslot)
  else if level = 0 then (x.spill, x.spsz, x.nslot)
  else match x.gstack[level - 1]? with
    | none => (u.spill, u.spsz, u.nslot)
    | some f => (f.spill, f.spsz, f.nslot)

/-- The level whose spill area holds a name's slots (R60, R194). -/
def nameLevel (x : Group) (m : NameSt) : Nat := x.gstack.length - m.depth

/-- The state with `n` more slots given out in the area of a level of a group (R60). -/
def takeSlots (s : State) (uid g level n : Nat) : State :=
  match groupOf s uid g with
  | none => s
  | some x =>
      if level = x.gstack.length then modUnit s uid (fun u => { u with nslot := u.nslot + n })
      else if level = 0 then modGroup s uid g (fun y => { y with nslot := y.nslot + n })
      else modGroup s uid g (fun y => { y with gstack := modAt y.gstack (level - 1) (fun f => { f with nslot := f.nslot + n }) })

/-- A name of a level of a group changed. -/
def modLevelName (x : Group) (level : Nat) (c : NClass) (n : Nat) (f : NameSt → NameSt) : Group :=
  if level = 0 then modName x c n f
  else { x with gstack := modAt x.gstack (level - 1) (fun fr => { fr with names := fr.names.map (fun m => if m.cls == c && m.num == n then f m else m) }) }

/-- The name can have slots: it has them, or the area still has room (R60, R316). -/
def canSlot (s : State) (uid g : Nat) (m : NameSt) : Bool :=
  m.slot.isSome || (match unitOf s uid, groupOf s uid g with
    | some u, some x => decide ((spillArea u x (nameLevel x m)).2.2 + slotsFor x.width m.cls ≤ (spillArea u x (nameLevel x m)).2.1)
    | _, _ => false)

/-- The name with its slots, given now if it has none (R60). -/
def giveSlot (s : State) (uid g level : Nat) (c : NClass) (n : Nat) : State :=
  match unitOf s uid, groupOf s uid g with
  | some u, some x =>
      match ((levelNames x).find? (fun lm => lm.1 == level && lm.2.cls == c && lm.2.num == n)).map (·.2) with
      | none => s
      | some m =>
          if m.slot.isSome then s
          else takeSlots (modGroup s uid g (fun y => modLevelName y level c n (fun k => { k with slot := some (spillArea u x (nameLevel x m)).2.2 })))
            uid g (nameLevel x m) (slotsFor x.width c)
  | _, _ => s

/-- A held entry as a write-out leaves it: its value goes to the slot; an entry that a memory entry is still to write
goes there as zero bytes with F = 0 (R47, R340). (DEDUCED, log 93) -/
def Entry.writeOut (e : Entry) : Entry :=
  if e.held then { e with words := if e.full || e.wt != 0 then e.words else e.words.map (fun _ => 0), wt := Nat.max e.wt 1, inSlot := true } else e

/-- A name written out to its slots and its resources freed (R47, R62, R64): the slots' bytes follow by the spill
engine's writes. -/
def NameSt.writeOut (claim : Bool) (m : NameSt) : NameSt :=
  { m with res := [], out := true, claimed := claim, staged := false, entries := m.entries.map Entry.writeOut }

/-- Writes a name of a level of a group out (R47, R60); `claim` marks one that is bound again at a resume (R66). -/
def writeOutName (s : State) (uid g level : Nat) (c : NClass) (n : Nat) (claim : Bool) : State :=
  modGroup (giveSlot s uid g level c n) uid g (fun x => modLevelName x level c n (NameSt.writeOut claim))

/-- The kernel that declares the names of a level of a group (R194). -/
def levelKernel (x : Group) (level : Nat) : Kernel :=
  if level = 0 then x.kernel else match x.gstack[level - 1]? with | none => x.kernel | some f => f.kernel

/-- The write numbered `id` to thread t's entry is a load or atomic that is still in its TQ (R340): a load or atomic of
the core whose access has no result yet and has not entered POOL. -/
def inTq (c : Core) (uid g t id : Nat) : Bool :=
  c.loads.any (fun l => l.id == id && l.uid == uid && l.mem.any (fun m => m.1.1 == g && (m.1.2 == t || l.uniform) && m.2.1.isNone)) &&
  !(c.pool.any (fun e => e.set == id && e.uid == uid && e.g == g && (e.t == t)))

/-- A name may be written out from a halted domain slot, but for a pinned name, one that a running call shares (R315), one
with a write outstanding from an operation that continues, and one whose write-out failed (R47, R316, R340, R371);
whether its slots are left is `slotsOk`'s. (DEDUCED, log 36) -/
def claimable (s : State) (core : Nat) (h : Holder) : Bool :=
  (slotState s core h.name.owner == 2) && !h.name.shared && !h.name.stuck &&
  (match groupOf s h.uid h.g with
   | none => false
   | some x => !((recOf (levelKernel x h.level) h.name.cls h.name.num).any (·.pin)) &&
      !((List.range h.name.entries.length).any (fun t => ((h.name.entries[t]?).getD (noEntry h.name.cls)).q.any (fun id => !inTq (coreOf s core) h.uid h.g t id))))

/-- The spill area of a holder's name: its unit, and for an area of a gable call its group and the depth (R60, R194). -/
def Holder.area (x : Group) (h : Holder) : Nat × Nat × Nat :=
  if nameLevel x h.name = x.gstack.length then (h.uid, 0, 0) else (h.uid, h.g + 1, h.name.depth)

/-- The slots that a holder's name would take. -/
def Holder.need (h : Holder) : Nat := if h.name.slot.isSome then 0 else slotsFor h.width h.name.cls

/-- The slots of all the names together lie below their areas' ends (R60, R316). -/
def slotsOk (s : State) (hs : List Holder) : Bool :=
  hs.all (fun h => h.name.slot.isSome || (match unitOf s h.uid, groupOf s h.uid h.g with
    | some u, some x =>
      let same := hs.filter (fun k => k.uid == h.uid && (match groupOf s k.uid k.g with | none => false | some y => k.area y == h.area x))
      decide ((spillArea u x (nameLevel x h.name)).2.2 + sumOf (same.map Holder.need) ≤ (spillArea u x (nameLevel x h.name)).2.1)
    | _, _ => false))

/-- The holders of some resources in the group's octets. -/
def holdersOf (s : State) (x : Group) (c : NClass) (res : List Nat) : List Holder :=
  (holders s x.core x.part c).filter (fun h => res.any (fun n => h.uses c (octetsOf x) n))

/-- A resource that a name of the group may take by claiming it, in ascending resource number (R47, R63): every holder
of it in the group's octets may be claimed, and slots are left for all of them. (DESIGN CHOICE, log 100) -/
def claimRes (s : State) (x : Group) (c : NClass) (pinned : Bool) : Option (List Nat) :=
  pickRes c x.width pinned (fun l => (holdersOf s x c l).all (claimable s x.core) && slotsOk s (holdersOf s x c l))

/-- The resources below a bound that a claim passes over for want of a slot, by the domain slot they are charged to (R316,
R317). (DEDUCED, log 36) -/
def refusedRes (s : State) (x : Group) (c : NClass) (bound : Nat) : List Nat :=
  (List.range (Nat.min bound (poolSize c))).filterMap (fun n =>
    match holdersOf s x c [n] with
    | [] => none
    | h :: hs => if (h :: hs).all (claimable s x.core) && !slotsOk s (h :: hs) then some h.name.owner else none)

/-- The place of a holder's entries in the order of rows, then octets (R47): for each octet row, block, entry or register
its number and the entries in it. -/
def outRows (h : Holder) : List (Nat × List Nat) :=
  match h.name.cls with
  | .lane => (List.range (h.width / 8)).map (fun j =>
      (4 * ((h.name.res[j / 4]?).getD 0) + ((h.octets[j % 4]?).getD 0), (List.range 8).map (fun i => 8 * j + i)))
  | .uniform => [(4 * ((h.name.res[0]?).getD 0), [0])]
  | .perm => [(4 * ((h.name.res[0]?).getD 0), [0])]
  | .acc => (List.range (h.width / 8)).map (fun j => (4 * ((h.name.res[j]?).getD 0), (List.range 8).map (fun i => 8 * j + i)))

/-- A resource of a name of a group is written out by R47, R62 or R64, and counted (R271). -/
def claimName (s : State) (uid g level : Nat) (c : NClass) (n : Nat) (claim : Bool) : State :=
  match groupOf s uid g with
  | none => s
  | some x => writeOutName (countEvent s x.core x.part (if level = x.gstack.length then ((unitOf s uid).map (·.dom)).getD x.dom
      else if level = 0 then x.dom else ((x.gstack[level - 1]?).map (·.dom)).getD x.dom) 12 (if c == .lane && x.width == 64 then 2 else 1)) uid g level c n claim

/-- The domain slot's held amount leaves room for one more binding of the class (R63). -/
def quotaLeft (s : State) (x : Group) (slot : Nat) (c : NClass) : Bool :=
  decide (heldAmount (holders s x.core x.part c) c slot + bindSize x.width c ≤ quotaOf (rdReg s (.dpart x.core slot)) c)

/-- An entry of a tile that gets its blocks, other than one to be refilled from slots: +0.0 (R200). -/
def Entry.cleared (e : Entry) : Entry := if e.held then e else { e with words := e.words.map (fun _ => 0) }

/-- Gives a name of a level of a group its resources, charged to a domain slot. -/
def setRes (s : State) (uid g level slot : Nat) (c : NClass) (n : Nat) (r : List Nat) : State :=
  modGroup s uid g (fun x => modLevelName x level c n (fun m =>
    { m with res := r, out := false, claimed := false, spilled := false, staged := false, owner := if m.shared then m.owner else slot
             entries := if c == .acc then m.entries.map Entry.cleared else m.entries }))

/-- The last index of a name's last interval (R51). -/
def lifeEnd (r : NameRec) : Nat := maxOf (r.ints.map (·.2))

/-- The name that the binder spills: the latest lifetime end, then the highest name number (R59, R62). -/
def spillFirst (k : Kernel) (ms : List NameSt) : Option NameSt :=
  ms.foldl (fun best m =>
    let e := ((recOf k m.cls m.num).map lifeEnd).getD 0
    match best with
    | none => some m
    | some b =>
      let eb := ((recOf k b.cls b.num).map lifeEnd).getD 0
      if eb < e || (eb == e && decide (b.num < m.num)) then some m else some b) none

/-- The names R62 may choose from the writing group: resident, not pinned, holding a resource, no operand of the word. -/
def spillCands (s : State) (uid g : Nat) (c : NClass) (ops : List (NClass × Nat)) : List NameSt :=
  match groupOf s uid g with
  | none => []
  | some x => x.names.filter (fun m => m.cls == c && !m.spilled && !m.res.isEmpty && !m.shared && !m.stuck &&
      !((recOf x.kernel c m.num).any (·.pin)) && !(ops.contains (c, m.num)) && canSlot s uid g m)

/-- A pause of the group begins or grows by R62, R64 or R316: `n` resources to write out (R64). -/
def pauseGroup (s : State) (uid g n : Nat) (moves wants : List (NClass × Nat)) : State :=
  modGroup s uid g (fun x =>
    let clk := (coreOf s x.core).clk
    let p := x.pause.getD ⟨clk, [], 0, 0, 0, []⟩
    let q : Pause := if p.start = clk then { p with n := p.n + n } else { p with start := clk, n := n, done := 0 }
    { x with pause := some { q with
        moves := p.moves ++ moves
        till := if wants.isEmpty then Nat.max p.till (clk + 32 + 2 * q.n) else p.till
        wants := p.wants ++ wants } })

/-- One more resource refused for want of a slot (R316, R317). -/
def countNoslot (s : State) (core slot : Nat) : State :=
  modCore s core (fun c => { c with noslot := modAt c.noslot slot (fun n => Nat.min 65535 (n + 1)) })

/-- The next number of the order of spill choices (R65). -/
def nextChosen (x : Group) : Nat := maxOf ((levelNames x).map (fun lm => lm.2.chosen)) + 1

/-- The name becomes spilled (R59, R62): its choice takes the next number. -/
def markSpilled (s : State) (uid g level : Nat) (c : NClass) (n : Nat) : State :=
  modGroup (giveSlot s uid g level c n) uid g (fun x => modLevelName x level c n (fun m =>
    { m with spilled := true, out := false, claimed := false, chosen := nextChosen x }))

/-- An entry after a drop (R56): unmetered and held, with no write outstanding that R318 waits for. -/
def Entry.dropped (keep : Entry → Bool) (e : Entry) : Entry :=
  if e.held && e.cnt == 0 then (if keep e then { e with drop := true } else { e with held := false, full := false, wt := 0, inSlot := false }) else e

/-- A name whose entries were released: with none left held, all its resources return to the pool (R57).
(DEDUCED, log 92) (DESIGN CHOICE, log 101) -/
def NameSt.release (pinned : Bool) (old new : NameSt) : NameSt :=
  if !pinned && old.entries.any (·.held) && !(new.entries.any (·.held)) then { new with res := [], out := false, claimed := false, staged := false } else new

/-- The name's entries of some threads dropped, as a word at which it is not live drops them (R56). -/
def dropName (pinned : Bool) (keep : Entry → Bool) (ixs : List Nat) (m : NameSt) : NameSt :=
  if pinned || m.shared then m
  else NameSt.release pinned m { m with entries := ixs.foldl (fun es i => modAt es i (Entry.dropped keep)) m.entries }

/-- The drops of an issue at word index `w` by threads `ts` of a group (R53 step 1, R56, R339): lane entries of the
threads; for a group-set word the group's entries of the other classes as well, of an accumulator every row. (DESIGN CHOICE, log 126) -/
def dropAt (x : Group) (w : Nat) (ts : List Nat) (groupSet : Bool) : Group :=
  { x with names := x.names.map (fun m =>
      match recOf x.kernel m.cls m.num with
      | none => dropName false (fun _ => false) (if m.cls == .lane || m.cls == .acc then ts else if groupSet then [0] else []) m
      | some r =>
        if liveAt r w then m
        else match m.cls with
          | .lane => dropName r.pin (fun _ => false) ts m
          | .acc => if groupSet then dropName r.pin (fun _ => false) (List.range x.width) m else m
          | .uniform => if groupSet then dropName r.pin (fun _ => false) [0] m else m
          | .perm => if groupSet then dropName r.pin (fun _ => false) [0] m else m) }

/-- One read of a metered entry (R55). -/
def Entry.readOnce (e : Entry) : Entry :=
  if e.cnt = 0 then e else if e.cnt = 1 then { e with cnt := 0, held := false, full := false, wt := 0, inSlot := false } else { e with cnt := e.cnt - 1 }

/-- The counts of one source of an issue (R53 step 2, R55): each reading thread's entry, or the group's once. -/
def readName (x : Group) (c : NClass) (n : Nat) (ts : List Nat) : Group :=
  modName x c n (fun m =>
    let pinned := (recOf x.kernel c n).any (·.pin)
    NameSt.release pinned m { m with entries := (entIxs c ts).foldl (fun es i => modAt es i Entry.readOnce) m.entries })

/-- An entry at the issue of a write numbered `id` (R54): F = 0, H = 1, N = cc for lane and uniform entries. -/
def Entry.begin (c : NClass) (cc id : Nat) (e : Entry) : Entry :=
  { e with full := false, held := true, cnt := (match c with | .lane => cc | .uniform => cc | .perm => 0 | .acc => 0), q := e.q ++ [id] }

/-- The issue of a write to a name (R54); a cc on a write to a pinned name is ignored (R56). -/
def beginWrite (x : Group) (c : NClass) (n cc id : Nat) (ts : List Nat) : Group :=
  modName x c n (fun m =>
    let k := if (recOf x.kernel c n).any (·.pin) then 0 else cc
    { m with entries := (entIxs c ts).foldl (fun es i => modAt es i (Entry.begin c k id)) m.entries })

/-- An entry when the write numbered `id` completes with a value (R54): F is set by the completion of the last write in
flight; the value of a name without a resource goes to its slot, and F follows it (R61, R340). -/
def Entry.complete (bound staged : Bool) (id : Nat) (v : List Word) (e : Entry) : Entry :=
  let q := e.q.filter (fun i => i != id)
  if e.drop && q.isEmpty && bound then { e with q := [], drop := false, held := false, full := false, wt := 0, inSlot := false }
  else if bound then { e with words := v, q := q, full := q.isEmpty, inSlot := false, wt := 0 }
  else if e.drop && q.isEmpty then { e with words := v, q := [], drop := false, held := false, full := false, wt := 1, inSlot := true }
  else { e with words := v, q := q, wt := if q.isEmpty then 2 else Nat.max e.wt 1, inSlot := !staged }

/-- An entry when the write numbered `id` ends without a value: it keeps its value and is set full (R296, R211). -/
def Entry.keep (id : Nat) (e : Entry) : Entry :=
  let q := e.q.filter (fun i => i != id)
  if e.drop && q.isEmpty then { e with q := [], drop := false, held := false, full := false, wt := 0, inSlot := false }
  else { e with q := q, full := q.isEmpty }

/-- An entry when the write numbered `id` is given up: its destination stays empty (R297, R304). -/
def Entry.giveUp (id : Nat) (e : Entry) : Entry :=
  let q := e.q.filter (fun i => i != id)
  if e.drop && q.isEmpty then { e with q := [], drop := false, held := false, full := false, wt := 0, inSlot := false }
  else { e with q := q }

/-- One entry of a name changed, with the release of its resources when no entry stays held (R57). -/
def onEntry (x : Group) (c : NClass) (n t : Nat) (f : NameSt → Entry → Entry) : Group :=
  modName x c n (fun m => NameSt.release ((recOf x.kernel c n).any (·.pin)) m (modEntry m (entIx c t) (f m)))

/-- The result numbered `id` arrives in thread t's entry of a name (R54). -/
def writeEntry (x : Group) (c : NClass) (n t id : Nat) (v : List Word) : Group :=
  onEntry x c n t (fun m e => e.complete (!m.res.isEmpty) m.staged id v)

/-- A value stored by the binder or the device in an entry at once: F = 1, N = 0, H = 1 (R138, R303). -/
def storeEntry (x : Group) (c : NClass) (n t : Nat) (v : List Word) : Group :=
  onEntry x c n t (fun m e => if m.res.isEmpty then { e with words := v, full := false, cnt := 0, held := true, wt := 2, inSlot := !m.staged }
    else { e with words := v, full := true, cnt := 0, held := true, wt := 0, inSlot := false })

/-- The write numbered `id` is the next to complete in each of the entries (R54: writes complete in issue order). -/
def nextWrite (x : Group) (c : NClass) (vals : List (Nat × Nat)) (id : Nat) : Bool :=
  vals.all (fun tn => (entryOf x c tn.2 tn.1).q.head? == some id || !((entryOf x c tn.2 tn.1).q.contains id))

/-- The exit of threads drops their unmetered lane entries (R56, R318); entries with a write outstanding from a load,
atomic, matrix or route-solver word are dropped when it completes. `alu` numbers the results of the lane pipes. -/
def exitDrops (x : Group) (ts : List Nat) (alu : List Nat) : Group :=
  { x with names := x.names.map (fun m =>
      if m.cls == .lane then dropName ((recOf x.kernel m.cls m.num).any (·.pin)) (fun e => e.q.any (fun id => !alu.contains id)) ts m else m) }

/-- The end of a group drops every entry of its group-scope classes (R56). -/
def endDrops (x : Group) : Group :=
  { x with names := x.names.map (fun m =>
      if m.cls == .lane then m
      else dropName ((recOf x.kernel m.cls m.num).any (·.pin)) (fun e => !e.q.isEmpty) (List.range m.entries.length) m) }

/-- A source entry holds a binding (R292 DEAD); the entries of a pinned name do from its placement on (R67). (DEDUCED, log 6) -/
def entHeld (x : Group) (c : NClass) (n t : Nat) : Bool := (entryOf x c n t).held || (recOf x.kernel c n).any (·.pin)

/-- A source entry is full: F = 1 and its value is in a row, entry, register, block or staging place (R34, R58). -/
def entFull (x : Group) (c : NClass) (n t : Nat) : Bool := (entryOf x c n t).full && !(entryOf x c n t).inSlot

end Sys2Proof.Machine
end

