-- ==== Sys2Proof/Machine/Operands.lean ====
section
/-! DEFINITION. The operand forms: which names each word reads and writes through its fields (R124, R125, and the rule of
each instruction), the spar's extensions and its legality (R121, R123, R88), and the conditions that a word's names can
meet at issue (R34, R58, R291-R293, R322). -/

namespace Sys2Proof.Machine

open Sys2Proof

/-- A field that names something: its class, its value of 7 bits, the length of its run of names, whether the word reads
and writes it, and whether a spar may extend it (R121). -/
structure Fld where
  cls : NClass
  num : Nat
  run : Nat
  rd : Bool
  wr : Bool
  ext : Bool
deriving DecidableEq, Repr

/-- What a word's fields are: group set or lane set, fields d, a and b, what q is (0 nothing, 1 a scope, 2 a rounding
override), the legal orders as a mask (R88), and whether tb governs an indexed entry (`ix.rd`, R177). -/
structure WordInfo where
  group : Bool
  d : Option Fld
  a : Option Fld
  b : Option Fld
  q : Nat
  o : Nat
  tbIx : Bool
deriving DecidableEq, Repr

/-- The fields of each word (R124, R125). A `jmp` whose field is 0 has a link name only by its extension (R121, R166). -/
def wordInfo (sp : Spar) (i : Instr) : WordInfo :=
  match i with
  | .iaAdd d a b => ⟨false, some ⟨.lane, d.toNat, 1, false, true, true⟩, some ⟨.lane, a.toNat, 1, true, false, true⟩, some ⟨.lane, b.toNat, 1, true, false, true⟩, 0, 1, false⟩
  | .iaSub d a b => ⟨false, some ⟨.lane, d.toNat, 1, false, true, true⟩, some ⟨.lane, a.toNat, 1, true, false, true⟩, some ⟨.lane, b.toNat, 1, true, false, true⟩, 0, 1, false⟩
  | .iaMul d a b => ⟨false, some ⟨.lane, d.toNat, 1, false, true, true⟩, some ⟨.lane, a.toNat, 1, true, false, true⟩, some ⟨.lane, b.toNat, 1, true, false, true⟩, 0, 1, false⟩
  | .iaMulh d a b => ⟨false, some ⟨.lane, d.toNat, 1, false, true, true⟩, some ⟨.lane, a.toNat, 1, true, false, true⟩, some ⟨.lane, b.toNat, 1, true, false, true⟩, 0, 1, false⟩
  | .iaMulhn d a b => ⟨false, some ⟨.lane, d.toNat, 1, false, true, true⟩, some ⟨.lane, a.toNat, 1, true, false, true⟩, some ⟨.lane, b.toNat, 1, true, false, true⟩, 0, 1, false⟩
  | .iaMin d a b => ⟨false, some ⟨.lane, d.toNat, 1, false, true, true⟩, some ⟨.lane, a.toNat, 1, true, false, true⟩, some ⟨.lane, b.toNat, 1, true, false, true⟩, 0, 1, false⟩
  | .iaMax d a b => ⟨false, some ⟨.lane, d.toNat, 1, false, true, true⟩, some ⟨.lane, a.toNat, 1, true, false, true⟩, some ⟨.lane, b.toNat, 1, true, false, true⟩, 0, 1, false⟩
  | .iaMinn d a b => ⟨false, some ⟨.lane, d.toNat, 1, false, true, true⟩, some ⟨.lane, a.toNat, 1, true, false, true⟩, some ⟨.lane, b.toNat, 1, true, false, true⟩, 0, 1, false⟩
  | .iaMaxn d a b => ⟨false, some ⟨.lane, d.toNat, 1, false, true, true⟩, some ⟨.lane, a.toNat, 1, true, false, true⟩, some ⟨.lane, b.toNat, 1, true, false, true⟩, 0, 1, false⟩
  | .iaAnd d a b => ⟨false, some ⟨.lane, d.toNat, 1, false, true, true⟩, some ⟨.lane, a.toNat, 1, true, false, true⟩, some ⟨.lane, b.toNat, 1, true, false, true⟩, 0, 1, false⟩
  | .iaOr d a b => ⟨false, some ⟨.lane, d.toNat, 1, false, true, true⟩, some ⟨.lane, a.toNat, 1, true, false, true⟩, some ⟨.lane, b.toNat, 1, true, false, true⟩, 0, 1, false⟩
  | .iaXor d a b => ⟨false, some ⟨.lane, d.toNat, 1, false, true, true⟩, some ⟨.lane, a.toNat, 1, true, false, true⟩, some ⟨.lane, b.toNat, 1, true, false, true⟩, 0, 1, false⟩
  | .iaShl d a b => ⟨false, some ⟨.lane, d.toNat, 1, false, true, true⟩, some ⟨.lane, a.toNat, 1, true, false, true⟩, some ⟨.lane, b.toNat, 1, true, false, true⟩, 0, 1, false⟩
  | .iaShr d a b => ⟨false, some ⟨.lane, d.toNat, 1, false, true, true⟩, some ⟨.lane, a.toNat, 1, true, false, true⟩, some ⟨.lane, b.toNat, 1, true, false, true⟩, 0, 1, false⟩
  | .iaSar d a b => ⟨false, some ⟨.lane, d.toNat, 1, false, true, true⟩, some ⟨.lane, a.toNat, 1, true, false, true⟩, some ⟨.lane, b.toNat, 1, true, false, true⟩, 0, 1, false⟩
  | .iaRot d a b => ⟨false, some ⟨.lane, d.toNat, 1, false, true, true⟩, some ⟨.lane, a.toNat, 1, true, false, true⟩, some ⟨.lane, b.toNat, 1, true, false, true⟩, 0, 1, false⟩
  | .icEq d a b => ⟨false, some ⟨.lane, d.toNat, 1, false, true, true⟩, some ⟨.lane, a.toNat, 1, true, false, true⟩, some ⟨.lane, b.toNat, 1, true, false, true⟩, 0, 1, false⟩
  | .icNe d a b => ⟨false, some ⟨.lane, d.toNat, 1, false, true, true⟩, some ⟨.lane, a.toNat, 1, true, false, true⟩, some ⟨.lane, b.toNat, 1, true, false, true⟩, 0, 1, false⟩
  | .icLt d a b => ⟨false, some ⟨.lane, d.toNat, 1, false, true, true⟩, some ⟨.lane, a.toNat, 1, true, false, true⟩, some ⟨.lane, b.toNat, 1, true, false, true⟩, 0, 1, false⟩
  | .icLe d a b => ⟨false, some ⟨.lane, d.toNat, 1, false, true, true⟩, some ⟨.lane, a.toNat, 1, true, false, true⟩, some ⟨.lane, b.toNat, 1, true, false, true⟩, 0, 1, false⟩
  | .icLtn d a b => ⟨false, some ⟨.lane, d.toNat, 1, false, true, true⟩, some ⟨.lane, a.toNat, 1, true, false, true⟩, some ⟨.lane, b.toNat, 1, true, false, true⟩, 0, 1, false⟩
  | .icLen d a b => ⟨false, some ⟨.lane, d.toNat, 1, false, true, true⟩, some ⟨.lane, a.toNat, 1, true, false, true⟩, some ⟨.lane, b.toNat, 1, true, false, true⟩, 0, 1, false⟩
  | .iai d a _ => ⟨false, some ⟨.lane, d.toNat, 1, false, true, true⟩, some ⟨.lane, a.toNat, 1, true, false, true⟩, none, 0, 1, false⟩
  | .ishShl d a _ => ⟨false, some ⟨.lane, d.toNat, 1, false, true, true⟩, some ⟨.lane, a.toNat, 1, true, false, true⟩, none, 0, 1, false⟩
  | .ishShr d a _ => ⟨false, some ⟨.lane, d.toNat, 1, false, true, true⟩, some ⟨.lane, a.toNat, 1, true, false, true⟩, none, 0, 1, false⟩
  | .ishSar d a _ => ⟨false, some ⟨.lane, d.toNat, 1, false, true, true⟩, some ⟨.lane, a.toNat, 1, true, false, true⟩, none, 0, 1, false⟩
  | .ishRot d a _ => ⟨false, some ⟨.lane, d.toNat, 1, false, true, true⟩, some ⟨.lane, a.toNat, 1, true, false, true⟩, none, 0, 1, false⟩
  | .lim d _ => ⟨false, some ⟨.lane, d.toNat, 1, false, true, true⟩, none, none, 0, 1, false⟩
  | .lih d _ => ⟨false, some ⟨.lane, d.toNat, 1, true, true, true⟩, none, none, 0, 1, false⟩
  | .faAdd d a b => ⟨false, some ⟨.lane, d.toNat, 1, false, true, true⟩, some ⟨.lane, a.toNat, 1, true, false, true⟩, some ⟨.lane, b.toNat, 1, true, false, true⟩, 2, 1, false⟩
  | .faSub d a b => ⟨false, some ⟨.lane, d.toNat, 1, false, true, true⟩, some ⟨.lane, a.toNat, 1, true, false, true⟩, some ⟨.lane, b.toNat, 1, true, false, true⟩, 2, 1, false⟩
  | .faMul d a b => ⟨false, some ⟨.lane, d.toNat, 1, false, true, true⟩, some ⟨.lane, a.toNat, 1, true, false, true⟩, some ⟨.lane, b.toNat, 1, true, false, true⟩, 2, 1, false⟩
  | .faFma d a b => ⟨false, some ⟨.lane, d.toNat, 1, true, true, true⟩, some ⟨.lane, a.toNat, 1, true, false, true⟩, some ⟨.lane, b.toNat, 1, true, false, true⟩, 2, 1, false⟩
  | .faFms d a b => ⟨false, some ⟨.lane, d.toNat, 1, true, true, true⟩, some ⟨.lane, a.toNat, 1, true, false, true⟩, some ⟨.lane, b.toNat, 1, true, false, true⟩, 2, 1, false⟩
  | .faMin d a b => ⟨false, some ⟨.lane, d.toNat, 1, false, true, true⟩, some ⟨.lane, a.toNat, 1, true, false, true⟩, some ⟨.lane, b.toNat, 1, true, false, true⟩, 2, 1, false⟩
  | .faMax d a b => ⟨false, some ⟨.lane, d.toNat, 1, false, true, true⟩, some ⟨.lane, a.toNat, 1, true, false, true⟩, some ⟨.lane, b.toNat, 1, true, false, true⟩, 2, 1, false⟩
  | .faAbs d a => ⟨false, some ⟨.lane, d.toNat, 1, false, true, true⟩, some ⟨.lane, a.toNat, 1, true, false, true⟩, none, 2, 1, false⟩
  | .faNeg d a => ⟨false, some ⟨.lane, d.toNat, 1, false, true, true⟩, some ⟨.lane, a.toNat, 1, true, false, true⟩, none, 2, 1, false⟩
  | .faEq d a b => ⟨false, some ⟨.lane, d.toNat, 1, false, true, true⟩, some ⟨.lane, a.toNat, 1, true, false, true⟩, some ⟨.lane, b.toNat, 1, true, false, true⟩, 2, 1, false⟩
  | .faLt d a b => ⟨false, some ⟨.lane, d.toNat, 1, false, true, true⟩, some ⟨.lane, a.toNat, 1, true, false, true⟩, some ⟨.lane, b.toNat, 1, true, false, true⟩, 2, 1, false⟩
  | .faLe d a b => ⟨false, some ⟨.lane, d.toNat, 1, false, true, true⟩, some ⟨.lane, a.toNat, 1, true, false, true⟩, some ⟨.lane, b.toNat, 1, true, false, true⟩, 2, 1, false⟩
  | .fhHadd d a b => ⟨false, some ⟨.lane, d.toNat, 1, false, true, true⟩, some ⟨.lane, a.toNat, 1, true, false, true⟩, some ⟨.lane, b.toNat, 1, true, false, true⟩, 2, 1, false⟩
  | .fhHmul d a b => ⟨false, some ⟨.lane, d.toNat, 1, false, true, true⟩, some ⟨.lane, a.toNat, 1, true, false, true⟩, some ⟨.lane, b.toNat, 1, true, false, true⟩, 2, 1, false⟩
  | .fhHfma d a b => ⟨false, some ⟨.lane, d.toNat, 1, true, true, true⟩, some ⟨.lane, a.toNat, 1, true, false, true⟩, some ⟨.lane, b.toNat, 1, true, false, true⟩, 2, 1, false⟩
  | .fhHmin d a b => ⟨false, some ⟨.lane, d.toNat, 1, false, true, true⟩, some ⟨.lane, a.toNat, 1, true, false, true⟩, some ⟨.lane, b.toNat, 1, true, false, true⟩, 2, 1, false⟩
  | .fhHmax d a b => ⟨false, some ⟨.lane, d.toNat, 1, false, true, true⟩, some ⟨.lane, a.toNat, 1, true, false, true⟩, some ⟨.lane, b.toNat, 1, true, false, true⟩, 2, 1, false⟩
  | .fhBadd d a b => ⟨false, some ⟨.lane, d.toNat, 1, false, true, true⟩, some ⟨.lane, a.toNat, 1, true, false, true⟩, some ⟨.lane, b.toNat, 1, true, false, true⟩, 2, 1, false⟩
  | .fhBmul d a b => ⟨false, some ⟨.lane, d.toNat, 1, false, true, true⟩, some ⟨.lane, a.toNat, 1, true, false, true⟩, some ⟨.lane, b.toNat, 1, true, false, true⟩, 2, 1, false⟩
  | .fhBfma d a b => ⟨false, some ⟨.lane, d.toNat, 1, true, true, true⟩, some ⟨.lane, a.toNat, 1, true, false, true⟩, some ⟨.lane, b.toNat, 1, true, false, true⟩, 2, 1, false⟩
  | .fhBmin d a b => ⟨false, some ⟨.lane, d.toNat, 1, false, true, true⟩, some ⟨.lane, a.toNat, 1, true, false, true⟩, some ⟨.lane, b.toNat, 1, true, false, true⟩, 2, 1, false⟩
  | .fhBmax d a b => ⟨false, some ⟨.lane, d.toNat, 1, false, true, true⟩, some ⟨.lane, a.toNat, 1, true, false, true⟩, some ⟨.lane, b.toNat, 1, true, false, true⟩, 2, 1, false⟩
  | .fcF32i d a => ⟨false, some ⟨.lane, d.toNat, 1, false, true, true⟩, some ⟨.lane, a.toNat, 1, true, false, true⟩, none, 2, 1, false⟩
  | .fcF32n d a => ⟨false, some ⟨.lane, d.toNat, 1, false, true, true⟩, some ⟨.lane, a.toNat, 1, true, false, true⟩, none, 2, 1, false⟩
  | .fcIf32 d a => ⟨false, some ⟨.lane, d.toNat, 1, false, true, true⟩, some ⟨.lane, a.toNat, 1, true, false, true⟩, none, 2, 1, false⟩
  | .fcNf32 d a => ⟨false, some ⟨.lane, d.toNat, 1, false, true, true⟩, some ⟨.lane, a.toNat, 1, true, false, true⟩, none, 2, 1, false⟩
  | .fcH16f32 d a _ => ⟨false, some ⟨.lane, d.toNat, 1, false, true, true⟩, some ⟨.lane, a.toNat, 1, true, false, true⟩, none, 2, 1, false⟩
  | .fcF32h16 d a _ => ⟨false, some ⟨.lane, d.toNat, 1, true, true, true⟩, some ⟨.lane, a.toNat, 1, true, false, true⟩, none, 2, 1, false⟩
  | .fcBf16f32 d a _ => ⟨false, some ⟨.lane, d.toNat, 1, false, true, true⟩, some ⟨.lane, a.toNat, 1, true, false, true⟩, none, 2, 1, false⟩
  | .fcF32bf16 d a _ => ⟨false, some ⟨.lane, d.toNat, 1, true, true, true⟩, some ⟨.lane, a.toNat, 1, true, false, true⟩, none, 2, 1, false⟩
  | .fcLt8f32 d a _ => ⟨false, some ⟨.lane, d.toNat, 1, false, true, true⟩, some ⟨.lane, a.toNat, 1, true, false, true⟩, none, 2, 1, false⟩
  | .fcF32lt8 d a _ => ⟨false, some ⟨.lane, d.toNat, 1, true, true, true⟩, some ⟨.lane, a.toNat, 1, true, false, true⟩, none, 2, 1, false⟩
  | .fxRcp d a => ⟨false, some ⟨.lane, d.toNat, 1, false, true, true⟩, some ⟨.lane, a.toNat, 1, true, false, true⟩, none, 2, 1, false⟩
  | .fxRsqrt d a => ⟨false, some ⟨.lane, d.toNat, 1, false, true, true⟩, some ⟨.lane, a.toNat, 1, true, false, true⟩, none, 2, 1, false⟩
  | .fxSqrt d a => ⟨false, some ⟨.lane, d.toNat, 1, false, true, true⟩, some ⟨.lane, a.toNat, 1, true, false, true⟩, none, 2, 1, false⟩
  | .fxExp2 d a => ⟨false, some ⟨.lane, d.toNat, 1, false, true, true⟩, some ⟨.lane, a.toNat, 1, true, false, true⟩, none, 2, 1, false⟩
  | .fxLog2 d a => ⟨false, some ⟨.lane, d.toNat, 1, false, true, true⟩, some ⟨.lane, a.toNat, 1, true, false, true⟩, none, 2, 1, false⟩
  | .fxSinpi d a => ⟨false, some ⟨.lane, d.toNat, 1, false, true, true⟩, some ⟨.lane, a.toNat, 1, true, false, true⟩, none, 2, 1, false⟩
  | .fxCospi d a => ⟨false, some ⟨.lane, d.toNat, 1, false, true, true⟩, some ⟨.lane, a.toNat, 1, true, false, true⟩, none, 2, 1, false⟩
  | .fxTanh d a => ⟨false, some ⟨.lane, d.toNat, 1, false, true, true⟩, some ⟨.lane, a.toNat, 1, true, false, true⟩, none, 2, 1, false⟩
  | .fxCeil d a => ⟨false, some ⟨.lane, d.toNat, 1, false, true, true⟩, some ⟨.lane, a.toNat, 1, true, false, true⟩, none, 2, 1, false⟩
  | .fxFloor d a => ⟨false, some ⟨.lane, d.toNat, 1, false, true, true⟩, some ⟨.lane, a.toNat, 1, true, false, true⟩, none, 2, 1, false⟩
  | .fxXexp d a => ⟨false, some ⟨.lane, d.toNat, 1, false, true, true⟩, some ⟨.lane, a.toNat, 1, true, false, true⟩, none, 2, 1, false⟩
  | .fxLdexp d a b => ⟨false, some ⟨.lane, d.toNat, 1, false, true, true⟩, some ⟨.lane, a.toNat, 1, true, false, true⟩, some ⟨.lane, b.toNat, 1, true, false, true⟩, 2, 1, false⟩
  | .xlShfl d a b => ⟨false, some ⟨.lane, d.toNat, 1, false, true, true⟩, some ⟨.lane, a.toNat, 1, true, false, true⟩, some ⟨.lane, b.toNat, 1, true, false, true⟩, 0, 1, false⟩
  | .xlShflx d a b => ⟨false, some ⟨.lane, d.toNat, 1, false, true, true⟩, some ⟨.lane, a.toNat, 1, true, false, true⟩, some ⟨.lane, b.toNat, 1, true, false, true⟩, 0, 1, false⟩
  | .xlAny d a => ⟨false, some ⟨.lane, d.toNat, 1, false, true, true⟩, some ⟨.lane, a.toNat, 1, true, false, true⟩, none, 0, 1, false⟩
  | .xlAll d a => ⟨false, some ⟨.lane, d.toNat, 1, false, true, true⟩, some ⟨.lane, a.toNat, 1, true, false, true⟩, none, 0, 1, false⟩
  | .xlBallotl d a => ⟨false, some ⟨.lane, d.toNat, 1, false, true, true⟩, some ⟨.lane, a.toNat, 1, true, false, true⟩, none, 0, 1, false⟩
  | .xlBallh d a => ⟨false, some ⟨.lane, d.toNat, 1, false, true, true⟩, some ⟨.lane, a.toNat, 1, true, false, true⟩, none, 0, 1, false⟩
  | .xlScan d a => ⟨false, some ⟨.lane, d.toNat, 1, false, true, true⟩, some ⟨.lane, a.toNat, 1, true, false, true⟩, none, 0, 1, false⟩
  | .xlRed d a => ⟨false, some ⟨.lane, d.toNat, 1, false, true, true⟩, some ⟨.lane, a.toNat, 1, true, false, true⟩, none, 0, 1, false⟩
  | .xlRedmax d a => ⟨false, some ⟨.lane, d.toNat, 1, false, true, true⟩, some ⟨.lane, a.toNat, 1, true, false, true⟩, none, 0, 1, false⟩
  | .xlFred d a => ⟨false, some ⟨.lane, d.toNat, 1, false, true, true⟩, some ⟨.lane, a.toNat, 1, true, false, true⟩, none, 2, 1, false⟩
  | .xlFredmax d a => ⟨false, some ⟨.lane, d.toNat, 1, false, true, true⟩, some ⟨.lane, a.toNat, 1, true, false, true⟩, none, 0, 1, false⟩
  | .xlMatch d a => ⟨false, some ⟨.lane, d.toNat, 1, false, true, true⟩, some ⟨.lane, a.toNat, 1, true, false, true⟩, none, 0, 1, false⟩
  | .xlPopc d a => ⟨false, some ⟨.lane, d.toNat, 1, false, true, true⟩, some ⟨.lane, a.toNat, 1, true, false, true⟩, none, 0, 1, false⟩
  | .brz a _ => ⟨false, none, some ⟨.lane, a.toNat, 1, true, false, true⟩, none, 0, 1, false⟩
  | .brnz a _ => ⟨false, none, some ⟨.lane, a.toNat, 1, true, false, true⟩, none, 0, 1, false⟩
  | .jmp _ => ⟨false, none, if sp.ax = 0 then none else some ⟨.lane, 0, 1, false, true, true⟩, none, 0, 1, false⟩
  | .jmpLink a _ => ⟨false, none, some ⟨.lane, a.toNat, 1, false, true, true⟩, none, 0, 1, false⟩
  | .ctlJr a => ⟨false, none, some ⟨.lane, a.toNat, 1, true, false, true⟩, none, 0, 1, false⟩
  | .ctlExit => ⟨false, none, none, none, 0, 1, false⟩
  | .ldN8 d a _ => ⟨false, some ⟨.lane, d.toNat, 1, false, true, true⟩, some ⟨.lane, a.toNat, 2, true, false, true⟩, none, 1, 3, false⟩
  | .ldI8 d a _ => ⟨false, some ⟨.lane, d.toNat, 1, false, true, true⟩, some ⟨.lane, a.toNat, 2, true, false, true⟩, none, 1, 3, false⟩
  | .ldN16 d a _ => ⟨false, some ⟨.lane, d.toNat, 1, false, true, true⟩, some ⟨.lane, a.toNat, 2, true, false, true⟩, none, 1, 3, false⟩
  | .ldI16 d a _ => ⟨false, some ⟨.lane, d.toNat, 1, false, true, true⟩, some ⟨.lane, a.toNat, 2, true, false, true⟩, none, 1, 3, false⟩
  | .ldB32 d a _ => ⟨false, some ⟨.lane, d.toNat, 1, false, true, true⟩, some ⟨.lane, a.toNat, 2, true, false, true⟩, none, 1, 3, false⟩
  | .ldB64 d a _ => ⟨false, some ⟨.lane, d.toNat, 2, false, true, true⟩, some ⟨.lane, a.toNat, 2, true, false, true⟩, none, 1, 3, false⟩
  | .ldB128 d a _ => ⟨false, some ⟨.lane, d.toNat, 4, false, true, true⟩, some ⟨.lane, a.toNat, 2, true, false, true⟩, none, 1, 3, false⟩
  | .stB8 d a _ => ⟨false, some ⟨.lane, d.toNat, 1, true, false, true⟩, some ⟨.lane, a.toNat, 2, true, false, true⟩, none, 1, 5, false⟩
  | .stB16 d a _ => ⟨false, some ⟨.lane, d.toNat, 1, true, false, true⟩, some ⟨.lane, a.toNat, 2, true, false, true⟩, none, 1, 5, false⟩
  | .stB32 d a _ => ⟨false, some ⟨.lane, d.toNat, 1, true, false, true⟩, some ⟨.lane, a.toNat, 2, true, false, true⟩, none, 1, 5, false⟩
  | .stB64 d a _ => ⟨false, some ⟨.lane, d.toNat, 2, true, false, true⟩, some ⟨.lane, a.toNat, 2, true, false, true⟩, none, 1, 5, false⟩
  | .stB128 d a _ => ⟨false, some ⟨.lane, d.toNat, 4, true, false, true⟩, some ⟨.lane, a.toNat, 2, true, false, true⟩, none, 1, 5, false⟩
  | .atAdd d a b => ⟨false, some ⟨.lane, d.toNat, 1, false, true, true⟩, some ⟨.lane, a.toNat, 2, true, false, true⟩, some ⟨.lane, b.toNat, 1, true, false, true⟩, 1, 15, false⟩
  | .atMin d a b => ⟨false, some ⟨.lane, d.toNat, 1, false, true, true⟩, some ⟨.lane, a.toNat, 2, true, false, true⟩, some ⟨.lane, b.toNat, 1, true, false, true⟩, 1, 15, false⟩
  | .atMax d a b => ⟨false, some ⟨.lane, d.toNat, 1, false, true, true⟩, some ⟨.lane, a.toNat, 2, true, false, true⟩, some ⟨.lane, b.toNat, 1, true, false, true⟩, 1, 15, false⟩
  | .atMinn d a b => ⟨false, some ⟨.lane, d.toNat, 1, false, true, true⟩, some ⟨.lane, a.toNat, 2, true, false, true⟩, some ⟨.lane, b.toNat, 1, true, false, true⟩, 1, 15, false⟩
  | .atMaxn d a b => ⟨false, some ⟨.lane, d.toNat, 1, false, true, true⟩, some ⟨.lane, a.toNat, 2, true, false, true⟩, some ⟨.lane, b.toNat, 1, true, false, true⟩, 1, 15, false⟩
  | .atAnd d a b => ⟨false, some ⟨.lane, d.toNat, 1, false, true, true⟩, some ⟨.lane, a.toNat, 2, true, false, true⟩, some ⟨.lane, b.toNat, 1, true, false, true⟩, 1, 15, false⟩
  | .atOr d a b => ⟨false, some ⟨.lane, d.toNat, 1, false, true, true⟩, some ⟨.lane, a.toNat, 2, true, false, true⟩, some ⟨.lane, b.toNat, 1, true, false, true⟩, 1, 15, false⟩
  | .atXor d a b => ⟨false, some ⟨.lane, d.toNat, 1, false, true, true⟩, some ⟨.lane, a.toNat, 2, true, false, true⟩, some ⟨.lane, b.toNat, 1, true, false, true⟩, 1, 15, false⟩
  | .atXchg d a b => ⟨false, some ⟨.lane, d.toNat, 1, false, true, true⟩, some ⟨.lane, a.toNat, 2, true, false, true⟩, some ⟨.lane, b.toNat, 1, true, false, true⟩, 1, 15, false⟩
  | .atCas d a b => ⟨false, some ⟨.lane, d.toNat, 1, true, true, true⟩, some ⟨.lane, a.toNat, 2, true, false, true⟩, some ⟨.lane, b.toNat, 1, true, false, true⟩, 1, 15, false⟩
  | .atFadd d a b => ⟨false, some ⟨.lane, d.toNat, 1, false, true, true⟩, some ⟨.lane, a.toNat, 2, true, false, true⟩, some ⟨.lane, b.toNat, 1, true, false, true⟩, 1, 15, false⟩
  | .sel d a b => ⟨false, some ⟨.lane, d.toNat, 1, true, true, true⟩, some ⟨.lane, a.toNat, 1, true, false, true⟩, some ⟨.lane, b.toNat, 1, true, false, true⟩, 0, 1, false⟩
  | .sr d _ => ⟨false, some ⟨.lane, d.toNat, 1, false, true, true⟩, none, none, 0, 1, false⟩
  | .ixRd d a b => ⟨false, some ⟨.lane, d.toNat, 1, false, true, true⟩, some ⟨.lane, a.toNat, 1, true, false, true⟩, some ⟨.lane, b.toNat, 1, false, false, true⟩, 0, 1, true⟩
  | .ixWr d a b => ⟨false, some ⟨.lane, d.toNat, 1, true, false, true⟩, some ⟨.lane, a.toNat, 1, true, false, true⟩, some ⟨.lane, b.toNat, 1, false, false, true⟩, 0, 1, false⟩
  | .plApply d a b => ⟨false, some ⟨.lane, d.toNat, 1, false, true, true⟩, some ⟨.lane, a.toNat, 1, true, false, true⟩, some ⟨.perm, b.toNat, 1, true, false, false⟩, 0, 1, false⟩
  | .plApplyi d a b => ⟨false, some ⟨.lane, d.toNat, 1, false, true, true⟩, some ⟨.lane, a.toNat, 1, true, false, true⟩, some ⟨.perm, b.toNat, 1, true, false, false⟩, 0, 1, false⟩
  | .plIdx d b => ⟨false, some ⟨.lane, d.toNat, 1, false, true, true⟩, none, some ⟨.perm, b.toNat, 1, true, false, false⟩, 0, 1, false⟩
  | .plPos d b => ⟨false, some ⟨.lane, d.toNat, 1, false, true, true⟩, none, some ⟨.perm, b.toNat, 1, true, false, false⟩, 0, 1, false⟩
  | .plCyclen d b => ⟨false, some ⟨.lane, d.toNat, 1, false, true, true⟩, none, some ⟨.perm, b.toNat, 1, true, false, false⟩, 0, 1, false⟩
  | .plCycmin d b => ⟨false, some ⟨.lane, d.toNat, 1, false, true, true⟩, none, some ⟨.perm, b.toNat, 1, true, false, false⟩, 0, 1, false⟩
  | .mxMma d a b => ⟨false, some ⟨.acc, d.toNat, 1, true, true, false⟩, some ⟨.uniform, a.toNat, 4, true, false, true⟩, some ⟨.uniform, b.toNat, 2, true, false, true⟩, 0, 1, false⟩
  | .mxMmag d a b => ⟨false, some ⟨.acc, d.toNat, 1, true, true, false⟩, some ⟨.uniform, a.toNat, 1, true, false, true⟩, some ⟨.uniform, b.toNat, 2, true, false, true⟩, 0, 1, false⟩
  | .mxMcv d a b => ⟨false, some ⟨.acc, d.toNat, 1, true, true, false⟩, some ⟨.uniform, a.toNat, 6, true, false, true⟩, some ⟨.uniform, b.toNat, 2, true, false, true⟩, 0, 1, false⟩
  | .mxZero d => ⟨false, some ⟨.acc, d.toNat, 1, false, true, false⟩, none, none, 0, 1, false⟩
  | .mxGet d a b => ⟨false, some ⟨.lane, d.toNat, 1, false, true, true⟩, some ⟨.acc, a.toNat, 1, true, false, false⟩, some ⟨.lane, b.toNat, 1, true, false, true⟩, 0, 1, false⟩
  | .mxPut d a b => ⟨false, some ⟨.acc, d.toNat, 1, true, true, false⟩, some ⟨.lane, a.toNat, 1, true, false, true⟩, some ⟨.lane, b.toNat, 1, true, false, true⟩, 0, 1, false⟩
  | .mxSto d a => ⟨false, some ⟨.acc, d.toNat, 1, true, false, false⟩, some ⟨.uniform, a.toNat, 3, true, false, true⟩, none, 0, 1, false⟩
  | .mxRmax d a => ⟨false, some ⟨.lane, d.toNat, 1, false, true, true⟩, some ⟨.acc, a.toNat, 1, true, false, false⟩, none, 0, 1, false⟩
  | .mxRscale d a => ⟨false, some ⟨.acc, d.toNat, 1, true, true, false⟩, some ⟨.lane, a.toNat, 1, true, false, true⟩, none, 0, 1, false⟩
  | .sysNop => ⟨false, none, none, none, 0, 1, false⟩
  | .sysBrk _ => ⟨false, none, none, none, 0, 1, false⟩
  | .sysTrap _ => ⟨false, none, none, none, 0, 1, false⟩
  | .uaAdd d a b => ⟨true, some ⟨.uniform, d.toNat, 1, false, true, true⟩, some ⟨.uniform, a.toNat, 1, true, false, true⟩, some ⟨.uniform, b.toNat, 1, true, false, true⟩, 0, 1, false⟩
  | .uaSub d a b => ⟨true, some ⟨.uniform, d.toNat, 1, false, true, true⟩, some ⟨.uniform, a.toNat, 1, true, false, true⟩, some ⟨.uniform, b.toNat, 1, true, false, true⟩, 0, 1, false⟩
  | .uaMul d a b => ⟨true, some ⟨.uniform, d.toNat, 1, false, true, true⟩, some ⟨.uniform, a.toNat, 1, true, false, true⟩, some ⟨.uniform, b.toNat, 1, true, false, true⟩, 0, 1, false⟩
  | .uaAnd d a b => ⟨true, some ⟨.uniform, d.toNat, 1, false, true, true⟩, some ⟨.uniform, a.toNat, 1, true, false, true⟩, some ⟨.uniform, b.toNat, 1, true, false, true⟩, 0, 1, false⟩
  | .uaOr d a b => ⟨true, some ⟨.uniform, d.toNat, 1, false, true, true⟩, some ⟨.uniform, a.toNat, 1, true, false, true⟩, some ⟨.uniform, b.toNat, 1, true, false, true⟩, 0, 1, false⟩
  | .uaXor d a b => ⟨true, some ⟨.uniform, d.toNat, 1, false, true, true⟩, some ⟨.uniform, a.toNat, 1, true, false, true⟩, some ⟨.uniform, b.toNat, 1, true, false, true⟩, 0, 1, false⟩
  | .uaShl d a b => ⟨true, some ⟨.uniform, d.toNat, 1, false, true, true⟩, some ⟨.uniform, a.toNat, 1, true, false, true⟩, some ⟨.uniform, b.toNat, 1, true, false, true⟩, 0, 1, false⟩
  | .uaShr d a b => ⟨true, some ⟨.uniform, d.toNat, 1, false, true, true⟩, some ⟨.uniform, a.toNat, 1, true, false, true⟩, some ⟨.uniform, b.toNat, 1, true, false, true⟩, 0, 1, false⟩
  | .uaMin d a b => ⟨true, some ⟨.uniform, d.toNat, 1, false, true, true⟩, some ⟨.uniform, a.toNat, 1, true, false, true⟩, some ⟨.uniform, b.toNat, 1, true, false, true⟩, 0, 1, false⟩
  | .uaMax d a b => ⟨true, some ⟨.uniform, d.toNat, 1, false, true, true⟩, some ⟨.uniform, a.toNat, 1, true, false, true⟩, some ⟨.uniform, b.toNat, 1, true, false, true⟩, 0, 1, false⟩
  | .uaMinn d a b => ⟨true, some ⟨.uniform, d.toNat, 1, false, true, true⟩, some ⟨.uniform, a.toNat, 1, true, false, true⟩, some ⟨.uniform, b.toNat, 1, true, false, true⟩, 0, 1, false⟩
  | .uaMaxn d a b => ⟨true, some ⟨.uniform, d.toNat, 1, false, true, true⟩, some ⟨.uniform, a.toNat, 1, true, false, true⟩, some ⟨.uniform, b.toNat, 1, true, false, true⟩, 0, 1, false⟩
  | .ucEq d a b => ⟨true, some ⟨.uniform, d.toNat, 1, false, true, true⟩, some ⟨.uniform, a.toNat, 1, true, false, true⟩, some ⟨.uniform, b.toNat, 1, true, false, true⟩, 0, 1, false⟩
  | .ucNe d a b => ⟨true, some ⟨.uniform, d.toNat, 1, false, true, true⟩, some ⟨.uniform, a.toNat, 1, true, false, true⟩, some ⟨.uniform, b.toNat, 1, true, false, true⟩, 0, 1, false⟩
  | .ucLt d a b => ⟨true, some ⟨.uniform, d.toNat, 1, false, true, true⟩, some ⟨.uniform, a.toNat, 1, true, false, true⟩, some ⟨.uniform, b.toNat, 1, true, false, true⟩, 0, 1, false⟩
  | .ucLtn d a b => ⟨true, some ⟨.uniform, d.toNat, 1, false, true, true⟩, some ⟨.uniform, a.toNat, 1, true, false, true⟩, some ⟨.uniform, b.toNat, 1, true, false, true⟩, 0, 1, false⟩
  | .uai d a _ => ⟨true, some ⟨.uniform, d.toNat, 1, false, true, true⟩, some ⟨.uniform, a.toNat, 1, true, false, true⟩, none, 0, 1, false⟩
  | .ulim d _ => ⟨true, some ⟨.uniform, d.toNat, 1, false, true, true⟩, none, none, 0, 1, false⟩
  | .ulih d _ => ⟨true, some ⟨.uniform, d.toNat, 1, true, true, true⟩, none, none, 0, 1, false⟩
  | .ubrz a _ => ⟨true, none, some ⟨.uniform, a.toNat, 1, true, false, true⟩, none, 0, 1, false⟩
  | .ubrnz a _ => ⟨true, none, some ⟨.uniform, a.toNat, 1, true, false, true⟩, none, 0, 1, false⟩
  | .syncBar _ => ⟨true, none, none, none, 0, 1, false⟩
  | .syncArr _ => ⟨true, none, none, none, 0, 1, false⟩
  | .syncWt _ => ⟨true, none, none, none, 0, 1, false⟩
  | .syncOc _ _ => ⟨true, none, none, none, 0, 1, false⟩
  | .syncFence _ _ => ⟨true, none, none, none, 0, 1, false⟩
  | .syncMwait a b => ⟨true, none, some ⟨.uniform, a.toNat, 2, true, false, true⟩, some ⟨.uniform, b.toNat, 1, true, false, true⟩, 0, 1, false⟩
  | .syncTrig => ⟨true, none, none, none, 0, 1, false⟩
  | .syncDwait => ⟨true, none, none, none, 0, 1, false⟩
  | .engCopy _ a => ⟨true, none, some ⟨.uniform, a.toNat, 1, true, false, true⟩, none, 0, 1, false⟩
  | .engQuant a => ⟨true, none, some ⟨.uniform, a.toNat, 1, true, false, true⟩, none, 0, 1, false⟩
  | .engPut a => ⟨true, none, some ⟨.uniform, a.toNat, 1, true, false, true⟩, none, 0, 1, false⟩
  | .engGet a => ⟨true, none, some ⟨.uniform, a.toNat, 1, true, false, true⟩, none, 0, 1, false⟩
  | .pmLoad d a => ⟨true, some ⟨.perm, d.toNat, 1, false, true, false⟩, some ⟨.lane, a.toNat, 1, true, false, true⟩, none, 0, 1, false⟩
  | .pmIdent d _ => ⟨true, some ⟨.perm, d.toNat, 1, false, true, false⟩, none, none, 0, 1, false⟩
  | .pmComp d a b => ⟨true, some ⟨.perm, d.toNat, 1, false, true, false⟩, some ⟨.perm, a.toNat, 1, true, false, false⟩, some ⟨.perm, b.toNat, 1, true, false, false⟩, 0, 1, false⟩
  | .pmInv d a => ⟨true, some ⟨.perm, d.toNat, 1, false, true, false⟩, some ⟨.perm, a.toNat, 1, true, false, false⟩, none, 0, 1, false⟩
  | .pmRand d a _ => ⟨true, some ⟨.perm, d.toNat, 1, false, true, false⟩, some ⟨.uniform, a.toNat, 2, true, true, true⟩, none, 0, 1, false⟩
  | .pmCyc d a => ⟨true, some ⟨.uniform, d.toNat, 1, false, true, true⟩, some ⟨.perm, a.toNat, 1, true, false, false⟩, none, 0, 1, false⟩
  | .pmSave d a => ⟨true, some ⟨.uniform, d.toNat, 1, true, false, true⟩, some ⟨.perm, a.toNat, 1, true, false, false⟩, none, 0, 1, false⟩
  | .pmRest d a => ⟨true, some ⟨.perm, d.toNat, 1, false, true, false⟩, some ⟨.uniform, a.toNat, 1, true, false, true⟩, none, 0, 1, false⟩
  | .obRsv d a => ⟨true, some ⟨.uniform, d.toNat, 1, false, true, true⟩, some ⟨.uniform, a.toNat, 2, true, false, true⟩, none, 0, 1, false⟩
  | .obRel a => ⟨true, none, some ⟨.uniform, a.toNat, 1, true, false, true⟩, none, 0, 1, false⟩
  | .obRec a => ⟨true, none, some ⟨.uniform, a.toNat, 2, true, false, true⟩, none, 0, 1, false⟩
  | .modeRd d => ⟨true, some ⟨.uniform, d.toNat, 1, false, true, true⟩, none, none, 0, 1, false⟩
  | .modeWr a => ⟨true, none, some ⟨.uniform, a.toNat, 1, true, false, true⟩, none, 0, 1, false⟩
  | .gateCall a => ⟨true, none, some ⟨.uniform, a.toNat, 1, true, false, true⟩, none, 0, 1, false⟩
  | .gateRet => ⟨true, none, none, none, 0, 1, false⟩
  | .ctrRd d _ => ⟨true, some ⟨.uniform, d.toNat, 1, false, true, true⟩, none, none, 0, 1, false⟩
  | .ctrMark a => ⟨true, none, some ⟨.uniform, a.toNat, 1, true, false, true⟩, none, 0, 1, false⟩
  | .uldB32 d a _ => ⟨true, some ⟨.uniform, d.toNat, 1, false, true, true⟩, some ⟨.uniform, a.toNat, 2, true, false, true⟩, none, 1, 3, false⟩
  | .uldB64 d a _ => ⟨true, some ⟨.uniform, d.toNat, 2, false, true, true⟩, some ⟨.uniform, a.toNat, 2, true, false, true⟩, none, 1, 3, false⟩
  | .ustB32 d a _ => ⟨true, some ⟨.uniform, d.toNat, 1, true, false, true⟩, some ⟨.uniform, a.toNat, 2, true, false, true⟩, none, 1, 5, false⟩
  | _ => ⟨false, none, none, none, 0, 1, false⟩

/-- A name that a word references: by field (1 d, 2 a, 3 b), a further name of its pair or run or not. -/
structure Opnd where
  cls : NClass
  num : Nat
  fld : Nat
  more : Bool
  rd : Bool
  wr : Bool
deriving DecidableEq, Repr

/-- The full number of a field's first name (R121). -/
def Fld.full (f : Fld) (x : Nat) : Nat := if f.ext then 128 * x + f.num else f.num

/-- The first name of a field. -/
def Fld.head (f : Fld) (x k : Nat) : Opnd := ⟨f.cls, f.full x, k, false, f.rd, f.wr⟩

/-- The further names of a field's pair or run. -/
def Fld.more (f : Fld) (x k : Nat) : List Opnd := (List.range (f.run - 1)).map (fun i => ⟨f.cls, f.full x + i + 1, k, true, f.rd, f.wr⟩)

/-- The names of an optional field. -/
def fldHead (f : Option Fld) (x k : Nat) : List Opnd := match f with | none => [] | some f => [f.head x k]
def fldMore (f : Option Fld) (x k : Nat) : List Opnd := match f with | none => [] | some f => f.more x k

/-- The names a word references, in the order of R302: d, a and b, then the further names in ascending order. -/
def opnds (sp : Spar) (i : Instr) : List Opnd :=
  let w := wordInfo sp i
  fldHead w.d sp.dx 1 ++ fldHead w.a sp.ax 2 ++ fldHead w.b sp.bx 3 ++
    sortBy (·.num) (fldMore w.d sp.dx 1 ++ fldMore w.a sp.ax 2 ++ fldMore w.b sp.bx 3)

/-- The names that a word writes, the first first. -/
def outsOf (sp : Spar) (i : Instr) : List (NClass × Nat) := ((opnds sp i).filter (·.wr)).map (fun o => (o.cls, o.num))

/-- The highest name of a class (R49). -/
def classTop (c : NClass) : Nat :=
  match c with
  | .lane => 2047 | .uniform => 255 | .perm => 15 | .acc => 7

/-- A field may take a trap bit: it is read, and not also written (R121, R123, R179). (DEDUCED, log 51) -/
def fldSource (f : Option Fld) : Bool := match f with | none => false | some f => f.rd && !f.wr

/-- A field may carry an extension (R121). -/
def fldExt (f : Option Fld) : Bool := match f with | none => false | some f => f.ext

/-- The word writes a lane or uniform name (R123). -/
def fldMetered (f : Option Fld) : Bool := match f with | none => false | some f => f.wr && (f.cls == .lane || f.cls == .uniform)

/-- `ix.wr` writes the indexed name (R123, R177). -/
def isIxWr : Instr → Bool | .ixWr _ _ _ => true | _ => false

/-- The spar's fields are legal on the word (R121, R123, R88). -/
def sparOk (sp : Spar) (i : Instr) : Bool :=
  let w := wordInfo sp i
  (sp.cc == 0 || isIxWr i || fldMetered w.d || fldMetered w.a || fldMetered w.b) &&
  (sp.dx == 0 || fldExt w.d) && (sp.ax == 0 || fldExt w.a) && (sp.bx == 0 || fldExt w.b) &&
  (!sp.ta || fldSource w.a) && (!sp.tb || fldSource w.b || w.tbIx) &&
  (if w.q = 1 then decide (sp.q ≤ 5) else if w.q = 2 then decide (sp.q ≤ 4) else sp.q == 0) && bitN w.o sp.o

/-- The DETAIL of ILLEGAL that a decoded word and its spar meet: a name past its class, or a spar field (R293 6, 7). -/
def illegalOf (sp : Spar) (i : Instr) : Option Nat :=
  if (opnds sp i).any (fun o => decide (classTop o.cls < o.num)) then some 6
  else if sp.present && !sparOk sp i then some 7 else none

/-- The indexed words (R177): the base name does not count as read. (DEDUCED, log 52) -/
def ixBase (sp : Spar) : Instr → Option Nat
  | .ixRd _ _ b => some (128 * sp.bx + b.toNat)
  | .ixWr _ _ b => some (128 * sp.bx + b.toNat)
  | _ => none

/-- The barrier that a word names (R125). -/
def barOf : Instr → Option Nat
  | .syncBar d => some d.toNat
  | .syncArr d => some d.toNat
  | .syncWt d => some d.toNat
  | _ => none

/-- The DETAIL of a name's field for UNDECL and DEAD (R292): 4 for a further name of a pair or run. -/
def Opnd.detail (o : Opnd) : Nat := if o.more then 4 else o.fld

/-- The spar marks the source to trap when it is empty (R58). -/
def Opnd.marked (sp : Spar) (o : Opnd) : Bool := !o.wr && ((o.fld == 2 && sp.ta) || (o.fld == 3 && sp.tb))

/-- The UNDECL conditions of a word in a group (R292): names, and a barrier, that the kernel does not declare. The base
name of an `ix` word is not itself a name it uses (R177, R322). -/
def undeclOf (x : Group) (sp : Spar) (i : Instr) : List (Nat × Nat) :=
  ((opnds sp i).filter (fun o => !((ixBase sp i).isSome && o.fld == 3) && (nameOf x o.cls o.num).isNone)).map (fun o => (0x02, o.detail)) ++
  (match barOf i with
   | none => []
   | some n => if x.kernel.bars.any (fun b => b.num == n) then [] else [(0x02, 1)])

/-- An accumulator field neither waits nor traps on its entries (R202). -/
def Opnd.waits (o : Opnd) : Bool := o.rd && o.cls != .acc

/-- A source in a bound row that is being refilled, or never filled, is empty (R48, R58). -/
def entEmpty (x : Group) (c : NClass) (n t : Nat) : Bool :=
  entHeld x c n t && (!(entryOf x c n t).full || ((entryOf x c n t).inSlot && (nameOf x c n).any (fun m => !m.res.isEmpty)))

/-- The EMPTY and DEAD conditions of a thread's sources (R292). -/
def sourceConds (x : Group) (t : Nat) (sp : Spar) (i : Instr) : List (Nat × Nat) :=
  ((opnds sp i).filter Opnd.waits).filterMap (fun o =>
    match nameOf x o.cls o.num with
    | none => none
    | some _ =>
      if !entHeld x o.cls o.num t then some (0x04, o.detail)
      else if o.marked sp && entEmpty x o.cls o.num t then some (0x03, o.fld - 1) else none)

/-- The indexed name of an `ix` word for a thread (R177, R322). -/
def ixName (x : Group) (t : Nat) (sp : Spar) : Instr → Option Nat
  | .ixRd _ a b => some (128 * sp.bx + b.toNat + (valOf x .lane (128 * sp.ax + a.toNat) t).toNat)
  | .ixWr _ a b => some (128 * sp.bx + b.toNat + (valOf x .lane (128 * sp.ax + a.toNat) t).toNat)
  | _ => none

/-- The conditions on the indexed name (R322), `w` the word's index. -/
def ixConds (x : Group) (t w : Nat) (sp : Spar) (i : Instr) : List (Nat × Nat) :=
  match ixName x t sp i with
  | none => []
  | some n =>
    if n > 2047 then [(0x02, 5)]
    else match recOf x.kernel .lane n, nameOf x .lane n with
      | some r, some _ =>
          if isIxWr i then (if liveAt r w then [] else [(0x04, 6)])
          else if !entHeld x .lane n t then [(0x04, 5)]
          else if sp.tb && entEmpty x .lane n t then [(0x03, 2)] else []
      | _, _ => [(0x02, 6)]

/-- The lower of two conditions: by cause code, then by DETAIL (R291). -/
def lowerCond (p q : Nat × Nat) : Bool := p.1 < q.1 || (p.1 == q.1 && p.2 ≤ q.2)

/-- The condition a thread meets, of several (R291). -/
def lowestCond : List (Nat × Nat) → Option (Nat × Nat)
  | [] => none
  | c :: l => match lowestCond l with
    | none => some c
    | some d => if lowerCond c d then some c else some d

/-- The conditions of a thread's names at a word (R291-R293, R322): an illegal word, undeclared names, sources; the
indexed name only where the index can be read. -/
def nameConds (x : Group) (t w : Nat) (sp : Spar) (i : Instr) : List (Nat × Nat) :=
  match illegalOf sp i with
  | some d => [(0x01, d)]
  | none =>
    let cs := undeclOf x sp i ++ sourceConds x t sp i
    if cs.any (fun c => (c.1 != 0x03 && c.2 == 2) || c == (0x03, 1)) then cs else cs ++ ixConds x t w sp i

/-- A source of the word keeps the thread waiting: it holds a binding, is not full, and is not marked to trap (R34, R58); the
indexed name does once the index can be read (R177). A source filled from its slot keeps it waiting as well (R48, R61). -/
def srcBlocked (x : Group) (t : Nat) (sp : Spar) (i : Instr) : Bool :=
  ((opnds sp i).filter Opnd.waits).any (fun o =>
    entHeld x o.cls o.num t && !entFull x o.cls o.num t && !(o.marked sp && entEmpty x o.cls o.num t)) ||
  (match i, ixName x t sp i with
   | .ixRd _ a _, some n => entFull x .lane (128 * sp.ax + a.toNat) t && decide (n ≤ 2047) && entHeld x .lane n t && !entFull x .lane n t && !(sp.tb && entEmpty x .lane n t)
   | _, _ => false)

/-- The value of a word's first name in a field for thread t. -/
def fldVal (x : Group) (t : Nat) (f : Option Fld) (ext : Nat) (k : Nat) : Word :=
  match f with
  | none => 0
  | some f => valOf x f.cls (f.full ext + k) t

/-- The value of field d, a or b, and of the k-th further name of its run. -/
def valD (x : Group) (t : Nat) (sp : Spar) (i : Instr) (k : Nat) : Word := fldVal x t (wordInfo sp i).d sp.dx k
def valA (x : Group) (t : Nat) (sp : Spar) (i : Instr) (k : Nat) : Word := fldVal x t (wordInfo sp i).a sp.ax k
def valB (x : Group) (t : Nat) (sp : Spar) (i : Instr) (k : Nat) : Word := fldVal x t (wordInfo sp i).b sp.bx k

/-- A spar's fields from its word (R120). -/
def sparOfWord (w : Nat) : Spar :=
  ⟨true, fld w 24 21, fld w 20 17, fld w 16 13, fld w 12 9, bitN w 8, bitN w 7, fld w 6 4, fld w 3 2⟩

/-- The names that a word and its spar reference, for a frame's binding records (R302): at most eight, each once. -/
def frameNames (sparw word : Word) : List (NClass × Nat) :=
  match decode word.toNat with
  | .error _ => []
  | .ok i =>
    let sp := if sparw == 0 then noSpar else sparOfWord sparw.toNat
    ((opnds sp i).foldl (fun acc o => if acc.contains (o.cls, o.num) then acc else acc ++ [(o.cls, o.num)]) []).take 8

end Sys2Proof.Machine
end

