-- ==== Sys2Proof/Machine/Ops.lean ====
section
/-! DEFINITION. The named operations over a group's state: event counts (R270), program counters, TQ placing (R87), and
TAKING A TRAP as one shared operation (R291-R309, R373): a condition is met (`startTrap`, `raiseSync`), the frame is
written (`frameBytes`, `writeFrame`), the handler is entered (`enterHandler`) and left (`goTo`). -/

namespace Sys2Proof.Machine

open Sys2Proof

/-- The IEEE 1588 time of a core's die (R260). -/
def timeOf (s : State) (core : Nat) : Nat := (dieOf s (dieOfCore core)).time

/-- The core clock (R259). -/
def clkOf (s : State) (core : Nat) : Nat := (coreOf s core).clk

/-- The virtual address of a kernel's entry (R51, R131). -/
def entryVa (k : Kernel) : Nat := k.img + k.code

/-- The core of two whose cluster runs at the lower clock step: it counts the cycles of a latency between them (R4). -/
def slowerCore (s : State) (a b : Nat) : Nat :=
  if fld (rdReg s (.dvfs (dieOfCore a) (a % 28 / 4))) 35 32 < fld (rdReg s (.dvfs (dieOfCore b) (b % 28 / 4))) 35 32 then a else b

/-- A clock some cycles on between two cores, counted as R4 says. -/
def cyclesOn (s : State) (a b n : Nat) : Nat × Nat := (slowerCore s a b, clkOf s (slowerCore s a b) + n)

/-- The clock of such a latency has come. -/
def reached (s : State) (at1 : Nat × Nat) : Bool := decide (at1.2 ≤ clkOf s at1.1)

/-- No trap handler (R135). -/
def noHandler : Nat := 0xFFFFFFFF

/-- The domain a group runs in (R194) has a frame area; the frame's address (R299). -/
def frameVa (s : State) (x : Group) : Option Nat :=
  let v := rdReg s (.tframe x.core x.slot)
  if bitN v 127 then some (fld v 98 64 * 2 ^ 21 + 2048 * (64 * x.part + 4 * x.tslot + x.base / 8)) else none

/-- The group stands in its handler: some thread that has not exited has not left it (R304). -/
def inHandler (x : Group) : Bool := x.threads.any (fun h => !h.exited && h.inHandler)

/-- The reach of the stop broadcast in cycles (R306, R349). -/
def bcastDelay (c1 c2 : Nat) : Nat := if c1 = c2 then 4 else if c1 / 4 = c2 / 4 then 12 else 40

/-- A unit and, in checked mode, its twin (R329). -/
def pairOf (s : State) (uid : Nat) : List Nat :=
  match unitOf s uid with
  | none => []
  | some u => match u.twin with | none => [uid] | some v => [uid, v]

/-- The clock some cycles on for both twins of a unit, counted on the slowest of their cores (R4, R336). -/
def rollAt (s : State) (u : DUnit) (n : Nat) : Nat × Nat :=
  let pair := if u.primary then pairOf s u.uid else (pairOf s u.uid).reverse
  let core := pair.foldl (fun c v => (((unitOf s v).map (fun w => w.groups.map (·.core))).getD []).foldl (slowerCore s) c) u.home
  (core, clkOf s core + n)

/-- The stop broadcast of a fatal trap raised by a group (R306): it reaches the unit's other groups, and those of its
twin, after the delays. A unit raises it once. (DEDUCED, log 35) -/
def fatalUnit (s : State) (uid g : Nat) : State :=
  match unitOf s uid, groupOf s uid g with
  | some u, some x =>
      if u.fatalClk.isSome then s
      else (pairOf s uid).foldl (fun s v => modUnit s v (fun w =>
        { w with fatalClk := some (clkOf s x.core, g)
                 groups := w.groups.map (fun y => if y.ended || (v == uid && y.gidx == g) then y
                   else let at1 := cyclesOn s x.core y.core (bcastDelay x.core y.core)
                     { y with stopAt := some (at1.1, at1.2, 1) }) })) s
  | _, _ => s

/-- Two conditions are one report: the same condition of the same word (R300 LMASK). -/
def sameReport (a b : Cond) : Bool :=
  a.cause == b.cause && a.detail == b.detail && a.widx == b.widx && a.clk == b.clk && a.kind == b.kind

/-- One report of two lists of threads. -/
def mergeCond (a b : Cond) : Cond :=
  { a with lmask := nub (a.lmask ++ b.lmask), pmask := nub (a.pmask ++ b.pmask), taddr := b.taddr.foldl (fun m e => mset m e.1 e.2) a.taddr }

/-- The condition of the older word: by issue clock, then cause code, then WIDX (R304). -/
def olderCond (a b : Cond) : Bool :=
  a.clk < b.clk || (a.clk == b.clk && (a.cause < b.cause || (a.cause == b.cause && a.widx < b.widx)))

/-- A condition that is a debug stop (R351). -/
def Cond.isDebug (c : Cond) : Bool := c.cause == 0x30 && c.detail == 2

/-- An asynchronous condition held, one per class (R304). -/
def holdCond (hs : List Cond) (c : Cond) : List Cond :=
  if hs.any (fun h => h.cls == c.cls) then hs.map (fun h => if h.cls == c.cls then { h with more := true } else h) else hs ++ [c]

/-- The conditions of a group that are held when another is reported (R304). -/
def holdIfAsync (hs : List Cond) (c : Cond) : List Cond := if c.kind == .async then holdCond hs c else hs

/-- A further condition before the frame is written (R304); a debug stop gives its frame to a trap of its clock (R356). -/
def joinTrap (t : Trap) (c : Cond) (fatal : Bool) : Trap :=
  if t.cond.isDebug && !c.isDebug then { t with cond := c, fatal := t.fatal || fatal }
  else if sameReport t.cond c then { t with cond := mergeCond t.cond c, fatal := t.fatal || fatal }
  else if olderCond c t.cond then { t with cond := c, more := true, fatal := t.fatal || fatal }
  else { t with more := true, fatal := t.fatal || fatal }

/-- A written frame is to be written again, once the words of the group have completed: a stop or a fatal condition has joined it (R314,
R356, R371). -/
def Trap.again (t : Trap) (clk : Nat) : Trap := { t with frame := 0, met := clk, ready := false }

/-- A trap condition of the group is fatal at once (R305, R318): no handler, no frame area, or a group that has ended. -/
def doomed (s : State) (x : Group) : Bool :=
  x.kernel.hndl == noHandler || (frameVa s x).isNone || x.threads.all (·.exited)

/-- A group meets a condition while it is not in its handler (R298, R304, R305): it forms no candidates from now on;
a fatal one raises the stop broadcast, but in a gable call it ends the call only (R309). One that is fatal joins a written frame too
(R371). (DEDUCED, log 118) -/
def startTrap (s : State) (uid g : Nat) (c : Cond) (fatal : Bool) : State :=
  match unitOf s uid, groupOf s uid g with
  | some u, some x =>
      if u.cancel != 0 then s
      else
        let f := fatal || doomed s x
        let s1 := match x.trap with
          | none => countEvent (modGroup s uid g (fun y => { y with trap := some ⟨c, f, 0, c.more || !y.heldConds.isEmpty, 0, 0, none, clkOf s x.core, false, false⟩ })) x.core x.part x.dom 14 1
          | some t =>
            if t.frame = 0 || (f && !t.fatal) then modGroup s uid g (fun y => { y with
              trap := some (if t.frame = 0 then joinTrap t c f else (joinTrap t c f).again (clkOf s x.core))
              heldConds := if sameReport t.cond c then y.heldConds
                else if olderCond c t.cond then holdIfAsync y.heldConds t.cond else holdIfAsync y.heldConds c })
            else modGroup s uid g (fun y => { y with heldConds := holdIfAsync y.heldConds c })
        if f && x.gstack.isEmpty then fatalUnit s1 uid g else s1
  | _, _ => s

/-- Marks the condition that a thread met. -/
def setCond (s : State) (uid g t : Nat) (c : Cond) : State :=
  modGroup s uid g (fun x => modThread x t (fun h => { h with cond := some c, condAt := clkOf s x.core }))

/-- One thread meets a synchronous or per-lane condition (R304, R305): in the handler it takes DOUBLE; a thread that has
left the handler while others remain holds it; otherwise it is the group's trap. -/
def raiseThread (s : State) (uid g t : Nat) (c : Cond) : State :=
  match groupOf s uid g with
  | none => s
  | some x => match threadOf x t with
    | none => s
    | some h =>
      if h.inHandler && !h.exited then
        let d := { c with cause := 0x31, detail := c.cause }
        startTrap (setCond s uid g t d) uid g d true
      else if inHandler x then setCond s uid g t c
      else startTrap (setCond s uid g t c) uid g c false

/-- Condition of a word being issued (R291, R300, R373). -/
def issueCond (s : State) (x : Group) (cd : Nat × Nat) (group fetch : Bool) (lmask pmask : List Nat) (addr : Nat) (taddr : NMap Nat) : Cond :=
  { cause := cd.1, detail := cd.2, kind := .sync, widx := s.iss.off / 4, sparw := s.iss.sparw, word := s.iss.word, addr := addr,
    group := group, fetch := fetch, lmask := lmask, pmask := pmask, taddr := taddr, clk := s.iss.clk, time := timeOf s x.core,
    cls := 0, more := false }

/-- The threads of an issue that meet synchronous conditions (R291): `addr` gives the header's ADDR of a thread's
condition, `taddr` its TADDR. -/
def raiseSync (s : State) (uid g : Nat) (group fetch : Bool) (present : List Nat) (bad : List (Nat × (Nat × Nat)))
    (addr : Nat → Nat × Nat → Nat) (taddr : Nat → Nat × Nat → NMap Nat) : State :=
  bad.foldl (fun s b =>
    match groupOf s uid g with
    | none => s
    | some x => raiseThread s uid g b.1 (issueCond s x b.2 group fetch [b.1] present (addr b.1 b.2) (taddr b.1 b.2))) s

/-- A group meets an asynchronous condition (R291, R304, R305): held in the handler or while a trap is taken, fatal for a
group that has ended. -/
def raiseAsync (s : State) (uid g : Nat) (c : Cond) (fatal : Bool) : State :=
  match groupOf s uid g with
  | none => s
  | some x =>
    if fatal || x.ended then startTrap s uid g c true
    else if inHandler x then modGroup s uid g (fun y => { y with heldConds := holdCond y.heldConds c })
    else startTrap s uid g c false

/-- Thread t's place in the run of slots of a name (R60), in bytes. -/
def slotOff (c : NClass) (t : Nat) : Nat :=
  match c with
  | .lane => 4 * t
  | .uniform => 0
  | .perm => 0
  | .acc => 256 * t

/-- The number of words of an entry. -/
def entWords (c : NClass) : Nat :=
  match c with
  | .lane => 1
  | .uniform => 1
  | .perm => 12
  | .acc => 64

/-- The address space of a level of a group (R194). -/
def levelAsid (x : Group) (level : Nat) : Nat :=
  if level = 0 then x.asid else ((x.gstack[level - 1]?).map (·.asid)).getD x.asid

/-- The virtual address of a name's first slot (R60). -/
def slotVa (u : DUnit) (x : Group) (m : NameSt) : Option Nat :=
  m.slot.map (fun n => (spillArea u x (nameLevel x m)).1 + 128 * n)

/-- The domain of a level of a group (R194). -/
def levelDom (x : Group) (level : Nat) : Nat :=
  if level = 0 then x.dom else ((x.gstack[level - 1]?).map (·.dom)).getD x.dom

/-- The condition of a failed spill access (R371): asynchronous and fatal, at the first faulting byte. (DEDUCED, log 55) -/
def spillCond (s : State) (x : Group) (cd : Nat × Nat) (va : Nat) : Cond :=
  { cause := cd.1, detail := cd.2, kind := .async, widx := 0xFFFFFFFF, sparw := 0, word := 0, addr := va, group := false, fetch := false,
    lmask := [], pmask := liveTids x, taddr := [], clk := clkOf s x.core, time := timeOf s x.core, cls := 8, more := false }

/-- A name of a level of a group. -/
def levelName (x : Group) (level : Nat) (c : NClass) (n : Nat) : Option NameSt :=
  ((levelNames x).find? (fun lm => lm.1 == level && lm.2.cls == c && lm.2.num == n)).map (·.2)

/-- A name's entry stands in its slots now. -/
def standsInSlot (m : NameSt) (e : Entry) : Bool := e.wt == 0 && (e.inSlot || (m.spilled && !m.staged))

/-- The slot words of a name's held entries, by their virtual addresses. -/
def slotWords (va : Nat) (m : NameSt) : List Nat :=
  ((List.range m.entries.length).zip m.entries).flatMap (fun ie =>
    if ie.2.held then (List.range ie.2.words.length).map (fun k => va + slotOff m.cls ie.1 + 4 * k) else [])

/-- The first condition that writing out a name of a level of a group would meet (R371), with the byte's address. -/
def slotFault (s : State) (uid g level : Nat) (c : NClass) (n : Nat) : Option ((Nat × Nat) × Nat) :=
  match unitOf s uid, groupOf s uid g with
  | some u, some x => match levelName x level c n with
    | none => none
    | some m => match slotVa u x m with
      | none => none
      | some va => (slotWords va m).findSome? (fun a => match memCheck s x.core (levelAsid x (nameLevel x m)) .store false a 4 with
          | .error e => some (e, a)
          | .ok _ => none)
  | _, _ => none

/-- A write-out of a name failed: a fatal condition of its group, and the resource stays bound to it (R371). -/
def writeOutFailed (s : State) (uid g level : Nat) (c : NClass) (n : Nat) (e : (Nat × Nat) × Nat) : State :=
  match groupOf s uid g with
  | none => s
  | some x => startTrap (modGroup s uid g (fun y => modLevelName y level c n (fun m => { m with stuck := true, spilled := false })))
      uid g (spillCond s x e.1 e.2) true

/-- Writes one holder's name out for a claim, unless its slots cannot be written (R47, R371); `false` says it stays. (DEDUCED, log 55) -/
def claimHolder (q : State × Bool) (h : Holder) : State × Bool :=
  let s1 := giveSlot q.1 h.uid h.g h.level h.name.cls h.name.num
  match slotFault s1 h.uid h.g h.level h.name.cls h.name.num with
  | some e => (writeOutFailed s1 h.uid h.g h.level h.name.cls h.name.num e, false)
  | none => (claimName s1 h.uid h.g h.level h.name.cls h.name.num true, q.2)

/-- The rows of the claimed names join the spill engine's queue in ascending row, then octet (R47). -/
def queueOut (s : State) (core : Nat) (hs : List Holder) : State :=
  modCore s core (fun c => { c with outQ := c.outQ ++ (sortBy (fun ki => ki.1) (hs.flatMap (fun h =>
    (outRows h).map (fun r => (r.1, (⟨h.uid, h.g, h.name.cls, h.name.num, h.name.depth, r.2⟩ : OutItem)))))).map (·.2) })

/-- Writes out every name that holds one of the resources (R47): a claim takes the whole binding. The names go in
ascending row, then octet; `false` says that one of them stays bound. -/
def claimAll (s : State) (x : Group) (c : NClass) (res : List Nat) : State × Bool :=
  let hs := sortBy (fun h => (minOf ((outRows h).map (·.1))).getD 0) (holdersOf s x c res)
  hs.foldl claimHolder (queueOut s x.core hs, true)

/-- Binds a name of a level of a group, charged to a domain slot: a free resource first, else one claimed from a halted
slot, passing over one that cannot be written out (R52, R63, R66, R371). -/
def bindLoop (uid g level slot : Nat) (c : NClass) (n : Nat) (pinned : Bool) : Nat → State → State × Bool
  | 0, s => (s, false)
  | fuel + 1, s => match groupOf s uid g with
    | none => (s, false)
    | some x =>
      if !quotaLeft s x slot c then (s, false)
      else match freeRes s x c pinned with
        | some r => (setRes s uid g level slot c n r, true)
        | none => match claimRes s x c pinned with
          | none => (s, false)
          | some r =>
            let q := claimAll s x c r
            if q.2 then (setRes q.1 uid g level slot c n r, true) else bindLoop uid g level slot c n pinned fuel q.1

/-- The resources that a claim of this binding passes over for want of a slot are counted (R316, R317). -/
def countRefused (s : State) (uid g slot : Nat) (c : NClass) (pinned : Bool) : State :=
  match groupOf s uid g with
  | none => s
  | some x =>
    if !quotaLeft s x slot c || (freeRes s x c pinned).isSome then s
    else (refusedRes s x c (((claimRes s x c pinned).map maxOf).getD (poolSize c))).foldl (fun s k => countNoslot s x.core k) s

/-- Binds a name (R52, R63, R66): the state after it, and whether it holds a resource. -/
def bindName (s : State) (uid g level slot : Nat) (c : NClass) (n : Nat) (pinned : Bool) : State × Bool :=
  bindLoop uid g level slot c n pinned (((groupOf s uid g).map (fun x => (holders s x.core x.part c).length)).getD 0 + 1)
    (countRefused s uid g slot c pinned)

/-- A name of the writing group finds no resource at its write (R62, R316): the binder spills one that qualifies and the
write takes its resource, or the written name is spilled, or the group pauses for want of a slot. (DESIGN CHOICE, log 99) -/
def spillForWrite (s : State) (uid g : Nat) (x : Group) (m : NameSt) (c : NClass) (n : Nat) (ops : List (NClass × Nat)) : State :=
  match spillFirst x.kernel (spillCands s uid g c ops) with
  | some v =>
      let s1 := giveSlot s uid g 0 c v.num
      match slotFault s1 uid g 0 c v.num with
      | some e => writeOutFailed s1 uid g 0 c v.num e
      | none =>
        let s2 := markSpilled (claimName s1 uid g 0 c v.num false) uid g 0 c v.num
        setRes (pauseGroup s2 uid g 1 [] []) uid g 0 x.slot c n v.res
  | none =>
      if canSlot s uid g m then pauseGroup (markSpilled s uid g 0 c n) uid g 0 [] []
      else countNoslot (pauseGroup s uid g 0 [] [(c, n)]) x.core x.slot

/-- A name of the writing group that holds no row is bound at its write (R52, R62, R316). -/
def bindAtWrite (s : State) (uid g : Nat) (c : NClass) (n : Nat) (ops : List (NClass × Nat)) : State :=
  match groupOf s uid g with
  | none => s
  | some x => match nameOf x c n with
    | none => s
    | some m =>
      if !m.res.isEmpty || m.spilled then s
      else
        let q := bindName s uid g 0 (if m.shared then m.owner else x.slot) c n false
        if q.2 then q.1 else spillForWrite q.1 uid g x m c n ops

/-- The physical registers of a group's bindings of a permutation name hold what its entry has (R219, R231). -/
def syncPerm (s : State) (uid g n : Nat) : State :=
  match groupOf s uid g with
  | none => s
  | some x => ((levelNames x).filter (fun lm => lm.2.cls == .perm && lm.2.num == n)).foldl (fun s lm => match lm.2.res, lm.2.entries with
    | r :: _, e :: _ => modPart s x.core x.part (fun p => { p with permRegs := mset p.permRegs r e.words })
    | _, _ => s) s

/-- The bits of a list of threads. -/
def maskOf (ts : List Nat) : Nat := (nub ts).foldl (fun m t => m + 2 ^ t) 0

/-- Bits t for which a property holds. -/
def maskIf (w : Nat) (p : Nat → Bool) : Nat := maskOf ((List.range w).filter p)

/-- A binding record (R302, R341) of a name of a group; a name that a running rebinding chose is spilled from the choice
on. (DEDUCED, log 29) -/
def bindRec (x : Group) (c : NClass) (n : Nat) : List Byte :=
  match nameOf x c n with
  | none => bytesOfNat 2 (clsCode c * 4096 + n) ++ List.replicate 62 0
  | some m =>
    let bst := if m.spilled then (if m.staged then 3 else 2) else if m.out then 2 else if m.res.isEmpty then 0 else 1
    let res := if bst = 2 ∨ bst = 3 then m.slot.getD 0 else ((minOf m.res).getD 0)
    let ent := fun t => (m.entries[entIx c t]?).getD (noEntry c)
    bytesOfNat 2 (clsCode c * 4096 + n) ++ bytesOfNat 1 bst ++ bytesOfNat 1 0 ++ bytesOfNat 4 res ++
    bytesOfNat 8 (maskIf x.width (fun t => (ent t).full)) ++ bytesOfNat 8 (maskIf x.width (fun t => (ent t).held)) ++
    bytesOfNat 32 (((List.range x.width).foldl (fun a t => a + (ent t).cnt * 16 ^ t) 0)) ++ List.replicate 8 0

/-- What a thread shows in TST (R301); in a debug frame a thread standing in a waiting word shows 2 (R351), one that is hit at another
group-set word 4. -/
def tstOf (x : Group) (c : Cond) (h : Thread) (arrived : Bool) : Nat :=
  let waits := arrived || x.wait.kind != .none
  if h.exited then 3
  else if c.isDebug && x.wait.kind != .none then 2
  else if c.lmask.contains h.tid then 4
  else if h.cond.isSome then 5
  else if waits then 2 else 1

/-- A thread's record (R301); `arrived` says which threads stand at a group-set word. -/
def threadRec (x : Group) (c : Cond) (arrived : Nat → Bool) (t : Nat) : List Byte :=
  match threadOf x t with
  | none => List.replicate 16 0
  | some h =>
    bytesOfNat 4 (if h.exited then 0xFFFFFFFF else h.off) ++ bytesOfNat 1 (tstOf x c h (arrived t)) ++ bytesOfNat 1 h.skid ++
    bytesOfNat 1 ((h.tq.filter (fun e => e.parked.isSome)).length) ++ bytesOfNat 1 0 ++
    bytesOfNat 8 ((mget c.taddr t).getD (match h.cond with | none => 0 | some d => (mget d.taddr t).getD 0))

/-- The header's ADDR (R373): for a per-lane condition the lowest faulting thread's EA. -/
def condAddr (c : Cond) : Nat :=
  match c.kind with
  | .lane => match minOf c.lmask with
    | none => c.addr
    | some t => (mget c.taddr t).getD c.addr
  | .sync => c.addr
  | .async => c.addr

/-- The names whose binding records stand in the frame (R302); none for a STOP cause, a fetch or a placement. -/
def condNames (c : Cond) : List (NClass × Nat) :=
  if c.fetch || c.widx == 0xFFFFFFFF || (c.cause == 0x01 && c.detail ≥ 8) then [] else frameNames c.sparw c.word

/-- The bytes at 1,600 for a watch hit (R351). -/
def watchBytes : Option Report → List Byte
  | none => List.replicate 32 0
  | some r => r.old ++ r.new ++ bytesOfNat 1 r.acc ++ bytesOfNat 1 r.die ++ bytesOfNat 2 r.size ++ List.replicate 12 0

/-- The 2,048 bytes of a trap frame (R300-R302, R351, R373), of the group as it stands. -/
def frameBytes (u : DUnit) (x : Group) (t : Trap) (arrived : Nat → Bool) : List Byte :=
  let c := t.cond
  let recs := (condNames c).map (fun cn => bindRec x cn.1 cn.2)
  let flags := (if c.group then 1 else 0) + (if c.sparw != 0 then 2 else 0) + (if c.kind == .async then 4 else 0) +
    (if c.fetch then 8 else 0) + (if t.fatal then 16 else 0) + (if t.more then 32 else 0)
  bytesOfNat 1 c.cause ++ bytesOfNat 1 c.detail ++ bytesOfNat 1 flags ++ bytesOfNat 1 recs.length ++ bytesOfNat 4 c.widx ++
  bytesOfNat 8 (maskOf c.lmask) ++ bytesOfNat 8 (maskOf c.pmask) ++ bytesOfNat 4 c.sparw.toNat ++ bytesOfNat 4 c.word.toNat ++
  bytesOfNat 8 (condAddr c) ++ bytesOfNat 8 c.time ++ bytesOfNat 2 u.lid ++ bytesOfNat 2 x.gidx ++ bytesOfNat 4 u.unitidx ++
  bytesOfNat 1 x.width ++ bytesOfNat 1 x.part ++ bytesOfNat 1 x.core ++ bytesOfNat 1 t.dbg ++ List.replicate 4 0 ++
  (List.range 64).flatMap (threadRec x c arrived) ++ recs.flatMap (fun r => r) ++ List.replicate (512 - 64 * recs.length) 0 ++
  watchBytes t.rep ++ List.replicate 416 0

/-- An engine write of a domain through an address space (R97): the checks of an engine's access, then the bytes at HOME. -/
def engWriteVa (s : State) (core dom asid va : Nat) (bs : List Byte) : Except (Nat × Nat) State :=
  match memCheck s core asid .engWrite false va bs.length with
  | .error e => .error e
  | .ok pa => .ok (memWriteNow s dom pa bs)

/-- A frame area lies in translated device memory of the core's die or host memory (R299). -/
def frameWrite (s : State) (x : Group) (va : Nat) (bs : List Byte) : Option State :=
  match vlocOf va with
  | .mapped => match engWriteVa s x.core x.dom x.asid va bs with
    | .ok s' => some s'
    | .error _ => none
  | .scratch _ => none
  | .wptr _ => none
  | .chip _ => none
  | .none => none

/-- The frame of a group's trap is written, or cannot be (R298, R305): then the trap is fatal. -/
def writeFrame (s : State) (uid g : Nat) (arrived : Nat → Bool) : State :=
  match unitOf s uid, groupOf s uid g with
  | some u, some x => match x.trap with
    | none => s
    | some t =>
      match (frameVa s x).bind (fun va => frameWrite s x va (frameBytes u x t arrived)) with
      | some s' => modGroup s' uid g (fun y => { y with trap := some { t with frame := 1, frameClk := clkOf s x.core } })
      | none =>
        let s1 := modGroup s uid g (fun y => { y with trap := some { t with frame := 2, fatal := true, frameClk := clkOf s x.core } })
        if x.gstack.isEmpty then fatalUnit s1 uid g else s1
  | _, _ => s

/-- The head of a TQ takes its release snapshot S when no older entry is undone (R91): the stores and atomics of the
core's POOL, without those to host memory below system scope. (DEDUCED, log 57) -/
def snapHead (c : Core) : List TqEntry → List TqEntry
  | [] => []
  | e :: l =>
    if (e.ord == 2 || e.ord == 3) && (e.scope == 1 || e.scope == 3 || e.scope == 4 || e.scope == 5) && e.snap.isNone then
      { e with snap := some ((c.pool.filter (fun p => e.scope == 5 || !p.host)).map (·.id)) } :: l
    else e :: l

/-- A thread's TQ replaced, with the snapshot of its new head (R87, R91). -/
def setTq (c : Core) (h : Thread) (tq : List TqEntry) : Thread := { h with tq := snapHead c tq }

/-- An entry joins a thread's TQ behind every earlier entry (R87). -/
def pushTq (c : Core) (h : Thread) (e : TqEntry) : Thread := setTq c h (h.tq ++ [e])

/-- A fence entry (R95). -/
def fenceEntry (id ord scope tag clk : Nat) : TqEntry :=
  { id := id, kind := .fence, ord := ord, scope := scope, va := 0, size := 0, data := [], set := id, lane := 0, pa := none,
    parked := none, snap := none, tag := tag, widx := 0, sparw := 0, word := 0, group := true, clk := clk, pmask := [], pooled := false }

/-- A fence in the TQ of every non-exited thread of a group (R95, R185, R189, R194). -/
def placeFences (s : State) (uid g ord scope tag : Nat) : State :=
  match groupOf s uid g with
  | none => s
  | some x =>
    let c := coreOf s x.core
    let e := fenceEntry s.seq ord scope tag c.clk
    modGroup { s with seq := s.seq + 1 } uid g (fun y => { y with threads := y.threads.map (fun h => if h.exited then h else pushTq c h e) })

/-- No fence with the tag stands in a TQ of the group (R185, R189, R194). -/
def fencesDone (x : Group) (tag : Nat) : Bool := x.threads.all (fun h => h.tq.all (fun e => !(e.kind == .fence && e.tag == tag)))

/-- An acquire at home scope by every non-exited thread of a group (R92, R98, R185). -/
def acquireGroup (s : State) (uid g : Nat) : State :=
  modGroup s uid g (fun x => { x with threads := x.threads.map (fun h => if h.exited then h else { h with floors := allFloors s }) })

/-- A thread continues at a kernel offset. By a transfer to a word index below HNDL it leaves the handler, and its
set-aside entries re-enter its TQ at the tail, to be checked again (R304). (DEDUCED, log 34) -/
def goTo (c : Core) (hndl : Nat) (off : Nat) (transfer : Bool) (h : Thread) : Thread :=
  let h1 := { h with off := off, ready := none, joined := false }
  if transfer && h.inHandler && decide (off / 4 < hndl) then
    setTq c { h1 with inHandler := false, aside := [] } (h.tq ++ h.aside.map (fun e => { e with parked := none, pa := none, snap := none }))
  else h1

/-- A parked or queued load or atomic of a thread is given up: its destinations stay empty (R297, R304, R318). -/
def giveUpLoad (s : State) (core uid g t set : Nat) : State :=
  match (coreOf s core).loads.find? (fun l => l.id == set && l.uid == uid) with
  | none => s
  | some l =>
    let s1 := modGroup s uid g (fun x => l.dsts.foldl (fun x n => onEntry x (if l.uniform then .uniform else .lane) n t (fun _ e => e.giveUp set)) x)
    modCore s1 core (fun c => { c with loads := (c.loads.map (fun k => if k.id == set && k.uid == uid then
      { k with mem := k.mem.filter (fun m => !(m.1.1 == g && m.1.2 == t)) } else k)).filter (fun k => !(k.id == set && k.uid == uid && k.mem.isEmpty)) })

/-- The parked entries of a thread that has exited are discarded (R318), those of the others set aside (R303). -/
def setAside (s : State) (uid g : Nat) : State :=
  match groupOf s uid g with
  | none => s
  | some x =>
    let s1 := (x.threads.filter (·.exited)).foldl (fun s h => (h.tq.filter (fun e => e.parked.isSome)).foldl (fun s e => giveUpLoad s x.core uid g h.tid e.set) s) s
    modGroup s1 uid g (fun y => { y with threads := y.threads.map (fun h =>
      let h1 := setTq (coreOf s y.core) h (h.tq.filter (fun e => e.parked.isNone))
      if h.exited then h1 else { h1 with aside := h.aside ++ h.tq.filter (fun e => e.parked.isSome) }) })

/-- The frame's address in k254 and k255, if the kernel declares both (R303 step 1). -/
def storeFrameNames (s : State) (uid g va : Nat) : State :=
  match groupOf s uid g with
  | none => s
  | some x =>
    if (nameOf x .uniform 254).isSome && (nameOf x .uniform 255).isSome then
      let s1 := bindAtWrite (bindAtWrite s uid g .uniform 254 [(.uniform, 254), (.uniform, 255)]) uid g .uniform 255 [(.uniform, 254), (.uniform, 255)]
      modGroup s1 uid g (fun y => storeEntry (storeEntry y .uniform 254 0 [BitVec.ofNat 32 va]) .uniform 255 0 [BitVec.ofNat 32 (va / 2 ^ 32)])
    else s

/-- Handler entry (R303): the frame's address in k254 and k255, parked entries set aside, the wait abandoned, acquire at
system scope, every non-exited thread at word index HNDL; GRP.FMODE and the gable stack are kept. -/
def enterHandler (s : State) (uid g : Nat) : State :=
  match groupOf s uid g with
  | none => s
  | some x =>
    let s1 := storeFrameNames s uid g ((frameVa s x).getD 0)
    let s2 := acquireGroup (setAside s1 uid g) uid g
    modGroup s2 uid g (fun y => { y with
      trap := none
      wait := ⟨.none, 0, 0, false⟩
      threads := y.threads.map (fun h => if h.exited then { h with cond := none }
        else { h with off := 4 * y.kernel.hndl, ready := none, joined := false, inHandler := true, cond := none, skid := 0 }) })

end Sys2Proof.Machine
end

