-- ==== Sys2Proof/Machine/Checked.lean ====
section
/-! DEFINITION. Checked units (R328-R336): signatures, the commit buffer and the checkpoint journal, and the start of a
rollback; the consumption of poisoned data (R360); watch hits (R346, R347). -/

namespace Sys2Proof.Machine

open Sys2Proof

/-- Eight shifts of the signature register (R331). -/
def crcBits : Nat → BitVec 64 → BitVec 64
  | 0, x => x
  | n + 1, x => crcBits n (if x.msb then (x <<< 1) ^^^ 0x42F0E1EBA9EA3693#64 else x <<< 1)

/-- One byte enters a signature register (R331). -/
def crcByte (x : BitVec 64) (b : Byte) : BitVec 64 := crcBits 8 (x ^^^ ((b.zeroExtend 64) <<< 56))

/-- The bytes of an item: address, size, data (R331). -/
def itemBytes (va : Nat) (data : List Byte) : List Byte := bytesOfNat 8 va ++ bytesOfNat 2 data.length ++ data

/-- A signature register: 0 at the start of the interval, then every item's bytes in the order of their words (R331). -/
def sigOf (items : NMap (List Byte)) : BitVec 64 := items.foldl (fun x e => e.2.foldl crcByte x) 0

/-- An item joins those of the word numbered `id`. (DEDUCED, log 54) -/
def addItem (items : NMap (List Byte)) (id va : Nat) (data : List Byte) : NMap (List Byte) :=
  mset items id ((mget items id).getD [] ++ itemBytes va data)

/-- The interval signature of a twin (R331). -/
def unitSig (u : DUnit) : BitVec 64 :=
  u.groups.foldl (fun a x => x.threads.foldl (fun a h => a ^^^ sigOf h.items) (a ^^^ sigOf x.engItems)) 0

/-- A STOP condition of a group without a word of its own (R300, R373). -/
def stopCond (s : State) (x : Group) (detail addr : Nat) (lmask : List Nat) : Cond :=
  { cause := 0x30, detail := detail, kind := .sync, widx := 0xFFFFFFFF, sparw := 0, word := 0, addr := addr, group := false,
    fetch := false, lmask := lmask, pmask := liveTids x, taddr := [], clk := clkOf s x.core, time := timeOf s x.core,
    cls := 0, more := false }

/-- A group meets a fatal STOP condition (R334, R336, R360). -/
def fatalStop (s : State) (uid g detail addr : Nat) (lmask : List Nat) : State :=
  match groupOf s uid g with
  | none => s
  | some x => startTrap s uid g (stopCond s x detail addr lmask) true

/-- The entries of the commit buffer that bytes of a write take (R334). -/
def cbufEntries (kind : Nat) (n : Nat) : Nat := if kind = 0 then 1 else if kind = 1 then 1 + n / 32 else 3

/-- A write of a checked unit enters its core's commit buffer, or finds it full: STOP 3 (R334). -/
def cbufTake (s : State) (core uid g n : Nat) : State :=
  let c := coreOf s core
  if c.cbuf + n > 8192 then fatalStop s uid g 3 0 []
  else setCore s core { c with cbuf := c.cbuf + n, cbpeak := Nat.max c.cbpeak (c.cbuf + n) }

/-- Journal units of a core: 1,024 for each bank of CHKCTL.UBANKS (R328, R334). -/
def journalCap (s : State) (core : Nat) : Nat :=
  1024 * ((List.range 48).filter (fun b => bitN (rdReg s (.chkctl core)) (16 + b))).length

/-- The journal units in use on a core. -/
def journalUsed (c : Core) : Nat := sumOf (c.journal.map (·.2))

/-- The first write in an interval to a piece of state of a checked unit takes journal units, or finds the journal full:
STOP 5 (R333, R334). A piece's key is the unit and a number. -/
def journalTouch (s : State) (uid g core piece units : Nat) : State :=
  match unitOf s uid with
  | none => s
  | some u =>
    let c := coreOf s core
    if !u.chk || c.journal.any (fun e => e.1 == uid * 2 ^ 48 + piece) then s
    else if journalUsed c + units > journalCap s core then fatalStop s uid g 5 0 []
    else setCore s core { c with journal := c.journal ++ [(uid * 2 ^ 48 + piece, units)] }

/-- The pieces of state of a name that a write by some threads touches, with their journal units (R333). -/
def namePieces (x : Group) (c : NClass) (n : Nat) (ts : List Nat) : List (Nat × Nat) :=
  match c with
  | .lane => [(2 ^ 40 + x.gidx * 4096 + n, if x.width = 64 then 4 else if x.width = 32 then 2 else 1)]
  | .uniform => [(2 ^ 41 + x.gidx * 4096 + n / 16, 1)]
  | .perm => [(2 ^ 42 + x.gidx * 4096 + n, 1)]
  | .acc => (nub (ts.map (fun t => t / 8))).map (fun b => (2 ^ 43 + (x.gidx * 4096 + n) * 8 + b, 32))

/-- The names that some threads write are journaled (R333). -/
def journalNames (s : State) (uid g : Nat) (ts : List Nat) (dsts : List (NClass × Nat)) : State :=
  match unitOf s uid, groupOf s uid g with
  | some u, some x => if !u.chk then s
    else (dsts.flatMap (fun d => namePieces x d.1 d.2 ts)).foldl (fun s p => journalTouch s uid g x.core p.1 p.2) s
  | _, _ => s

/-- The scratchpad's part of a core's on-chip map (R69, R76). -/
def scratchSite (h : Nat) : Bool := decide (h % 2 ^ 27 < 0x300000)

/-- The scratchpad sectors that a write touches are journaled, with their old bytes for the checkpoint (R333). -/
def journalScratch (s : State) (uid g pa n : Nat) : State :=
  match unitOf s uid with
  | none => s
  | some u =>
    if !u.chk then s
    else (sectorsOf pa n).foldl (fun s sec =>
      match plocOf (sec * 64) with
      | .chip d h =>
        if !scratchSite h then s
        else
        let core := d * 28 + h / 2 ^ 27
        let known := (coreOf s core).journal.any (fun e => e.1 == uid * 2 ^ 48 + h / 64)
        let s1 := journalTouch s uid g core (h / 64) 1
        if known then s1
        else modUnit s1 uid (fun w => { w with ckpt := w.ckpt.map (fun k => { k with scratch := k.scratch ++ [(sec * 64, homeRead s (sec * 64) 64)] }) })
      | .hbm _ => s
      | .host => s
      | .none => s) s

/-- CHKCTL.RETRY of a core (R328). -/
def retryOf (s : State) (core : Nat) : Nat := fld (rdReg s (.chkctl core)) 15 12

/-- A rollback of a checked pair starts (R336): its groups form no candidates from now on; after RETRY + 1 rollbacks of
one interval every group of the unit meets STOP 4. `ucer` says that consumed uncorrectable data started it; the count
stands on `core`. -/
def startRollback (s : State) (uid core : Nat) (ucer : Bool) : State :=
  match unitOf s uid with
  | none => s
  | some u =>
    if u.rollPhase ≠ 0 then s
    else
      let s1 := modCore s core (fun c => if ucer then { c with ucer := Nat.min 65535 (c.ucer + 1) } else { c with mism := Nat.min 65535 (c.mism + 1) })
      if u.rolls ≥ retryOf s u.home then
        (pairOf s uid).foldl (fun s v => match unitOf s v with
          | none => s
          | some w => w.groups.foldl (fun s x => fatalStop s v x.gidx 4 0 []) s) s1
      else (pairOf s uid).foldl (fun s v => modUnit s v (fun w => { w with rollPhase := 1, rolls := w.rolls + 1, rollClk := rollAt s u 64 })) s1

/-- A consumer takes data marked uncorrectable (R360): a checked unit rolls back, any other group traps with STOP 6. -/
def consumePoison (s : State) (uid g sec : Nat) (lmask : List Nat) : State :=
  match unitOf s uid, groupOf s uid g with
  | some u, some x => if u.chk then startRollback s uid x.core true else fatalStop s uid g 6 (sec * 64) lmask
  | _, _ => s

/-- The bytes that a running array word reads, after a write: each byte written is one that it has read before, or one that it
still reads (R213); a free value says which. -/
def seeBytes (free pa : Nat) (bs : List Byte) (r : Nat × List Byte) : Nat × List Byte :=
  (r.1, ((List.range r.2.length).zip r.2).map (fun ib =>
    let k := r.1 + ib.1 - pa
    if decide (pa ≤ r.1 + ib.1) && decide (k < bs.length) && decide ((Config.freeWord (free + k)).toNat % 2 = 1) then (bs[k]?).getD 0 else ib.2))

/-- Bytes written at a core's location meet the unfinished words of its arrays, byte by byte (R201, R213). -/
def arraySees (s : State) (core pa : Nat) (bs : List Byte) : State :=
  if (coreOf s core).parts.any (fun p => p.2.mxrun.any (fun r => r.reads.any (fun q => overlap q.1 q.2.length pa bs.length)))
  then modCore { s with free := s.free + bs.length } core (fun c => { c with parts := c.parts.map (fun p => (p.1, { p.2 with
    mxrun := p.2.mxrun.map (fun r => { r with reads := r.reads.map (seeBytes s.free pa bs) }) })) })
  else s

/-- The core at whose on-chip map an address lies. -/
def chipCore (pa : Nat) : Option Nat :=
  match plocOf pa with | .chip d h => some (d * 28 + h / 2 ^ 27) | .hbm _ => none | .host => none | .none => none

/-- Bytes written at a location meet the arrays of the core whose scratchpad or operand buffer holds it (R213). -/
def arraysSee (s : State) (pa : Nat) (bs : List Byte) : State :=
  match chipCore pa with | none => s | some c => arraySees s c pa bs

/-- What a watch access is: kind 0 read, 1 write, 2 atomic (R346); the group and word that made it, its first byte and
size, the ACC code of R351, the operation it belongs to (0 none), and its bytes that do not meet their HOME, as offsets. -/
structure WatchAcc where
  kind : Nat
  dom : Nat
  pa : Nat
  size : Nat
  uid : Nat
  g : Nat
  widx : Nat
  word : Word
  acc : Nat
  op : Nat
  skip : List Nat
deriving DecidableEq, Repr

/-- The space and address of a physical address in a die's watchpoints (R346). -/
def watchSpace (pa : Nat) : Option (Nat × Bool × Nat) :=
  match plocOf pa with
  | .hbm d => some (d, false, pa)
  | .chip d h => some (d, true, h)
  | .host => none
  | .none => none

/-- The first byte of an access from address `a` on that a watchpoint's range holds and that meets its HOME (R346). -/
def watchedByte (v a : Nat) (w : WatchAcc) : Option Nat :=
  let len := 2 ^ (Nat.min 6 (fld v 122 120))
  ((List.range len).map (fun i => fld v 51 0 / len * len + i)).find? (fun b => decide (a ≤ b) && decide (b < a + w.size) && !w.skip.contains (b - a))

/-- The watchpoints of a die that match an access. -/
def watchMatches (s : State) (die : Nat) (chip : Bool) (a : Nat) (w : WatchAcc) : List Nat :=
  (List.range 8).filter (fun n =>
    let v := rdReg s (.watch die n)
    bitN v 127 && bitN v (126 - w.kind) && bitN v 123 == chip && fld v 119 108 == w.dom && (watchedByte v a w).isSome)

/-- Watch hits of an access that performs (R346, R347): HITS rises in each register that matches; the report names the
lowest, with the 8 bytes that hold the first watched byte (R351). `old` is the state before the access, `rd` a byte as it stands.
(DEDUCED, log 117) -/
def watchHitBy (rd : State → Nat → Byte) (old s : State) (w : WatchAcc) : State :=
  match watchSpace w.pa with
  | none => s
  | some (die, chip, a) =>
    match watchMatches s die chip a w with
    | [] => s
    | n :: ns =>
      let s1 := (n :: ns).foldl (fun s k => let v := rdReg s (.watch die k)
        wrReg s (.watch die k) (setFld v 107 92 (Nat.min 65535 (fld v 107 92 + 1)))) s
      let at8 := (w.pa + (((watchedByte (rdReg s (.watch die n)) a w).getD a) - a)) / 8 * 8
      let bytes := fun (s : State) => (List.range 8).map (fun i => rd s (at8 + i))
      { s1 with seq := s1.seq + 1
                reports := s1.reports ++ [⟨s1.seq, w.uid, w.g, die, n, a, w.size, w.acc, bytes old, bytes s1, w.widx, w.word, w.op⟩] }

/-- The watch hits of a core's access to memory or scratchpad. -/
def watchHit (old s : State) (w : WatchAcc) : State := watchHitBy homeByte old s w

/-- A report of an operation is still on its way (R347). -/
def reportPending (s : State) (op : Nat) : Bool := op != 0 && s.reports.any (fun r => r.eq == op)

end Sys2Proof.Machine
end

