-- ==== Sys2Proof/Machine/Exec.lean ====
section
/-! DEFINITION. How a word acts (R53, R54, R56, R150, R179, R291, R295): the shared shape of a lane-set word, which each
present thread executes or traps on, and of a group-set word, which the group executes once. The word in progress is
`State.iss`. -/

namespace Sys2Proof.Machine

open Sys2Proof

/-- The kernel offset of the word after the one in progress (R34, R122). -/
def nextOff (s : State) : Nat := s.iss.off + (if s.iss.spar.present then 8 else 4)

/-- The kernel offset of the word itself, after its spar (R119). -/
def wordOff (s : State) : Nat := s.iss.off + (if s.iss.spar.present then 4 else 0)

/-- The virtual address of the instruction in progress, at its spar (R373). -/
def issueVa (s : State) (x : Group) : Nat := entryVa x.kernel + s.iss.off

/-- What the issue of a word adds to a thread: SKID after a stop broadcast (R301, R306), a word of a debug step (R354). -/
def issuedBy (x : Group) (h : Thread) : Thread :=
  { h with skid := if (x.trap.any (fun t => t.cond.cause == 0x30 && t.frame == 0 && decide (t.dbg < 128))) || x.dbg.mode == 3 then h.skid + 1 else h.skid
           stepLeft := h.stepLeft - 1 }

/-- Threads of a group continue at an offset that depends on the thread; `transfer` marks a control transfer (R304). -/
def advance (s : State) (uid g : Nat) (ts : List Nat) (off : Nat → Nat) (transfer : Nat → Bool) : State :=
  modGroup s uid g (fun x => modThreads x ts (fun h => goTo (coreOf s x.core) x.kernel.hndl (off h.tid) (transfer h.tid) (issuedBy x h)))

/-- Threads of a group continue at the following word. -/
def advanceNext (s : State) (uid g : Nat) (ts : List Nat) : State := advance s uid g ts (fun _ => nextOff s) (fun _ => false)

/-- Staged names that a word uses become the most recently used of their class (R61). -/
def touchStaged (s : State) (uid g : Nat) (ops : List (NClass × Nat)) : State :=
  match groupOf s uid g with
  | none => s
  | some x =>
    let used := fun (q : Nat × Nat × NClass × Nat) => q.1 == uid && q.2.1 == g && ops.contains (q.2.2.1, q.2.2.2)
    if ((partOf (coreOf s x.core) x.part).staging).any used then
      modPart s x.core x.part (fun p => { p with staging := p.staging.filter (fun q => !used q) ++ p.staging.filter used })
    else s

/-- The sources of a word that count down (R55): each field of a lane name, each uniform name once (R179). -/
def countedNames (l : List (NClass × Nat)) : List (NClass × Nat) :=
  l.foldl (fun acc o => if o.1 == .uniform && acc.contains o then acc else acc ++ [o]) []

/-- The binding actions of an issue (R53, R54) by threads `ts` of a group: drops, counts of the sources, bindings of the
destinations `dsts`, in a checked unit their journal records (R333), and F = 0, H = 1, N = cc in the entries of the
destinations; `id` numbers the write. -/
def beginWord (s : State) (i : Instr) (uid g : Nat) (ts : List Nat) (groupSet : Bool) (dsts : List (NClass × Nat)) (id : Nat) : State :=
  let sp := s.iss.spar
  let ops := (opnds sp i).map (fun o => (o.cls, o.num))
  let s1 := modGroup (touchStaged s uid g ops) uid g (fun x => dropAt x (s.iss.off / 4) ts groupSet)
  let s2 := modGroup s1 uid g (fun x => (countedNames (((opnds sp i).filter Opnd.waits).map (fun o => (o.cls, o.num)))).foldl (fun x o => readName x o.1 o.2 ts) x)
  let s3 := dsts.foldl (fun s cn => bindAtWrite s uid g cn.1 cn.2 (ops ++ dsts)) s2
  modGroup (journalNames s3 uid g ts dsts) uid g (fun x => dsts.foldl (fun x cn => beginWrite x cn.1 cn.2 sp.cc id ts) x)

/-- A result sets out for its destination (R151, R179). -/
def pushPend (s : State) (core : Nat) (p : Pend) : State := modCore s core (fun c => { c with pend := c.pend ++ [p] })

/-- The conditions of a thread: those of its names, else those that the sources' values decide (R291). -/
def threadConds (s : State) (x : Group) (i : Instr) (dyn : Group → Nat → List (Nat × Nat)) (t : Nat) : Option (Nat × Nat) :=
  match nameConds x t (s.iss.off / 4) s.iss.spar i with
  | [] => lowestCond (dyn x t)
  | cs => lowestCond cs

/-- The present threads of a group that meet a condition, with it. -/
def badThreads (s : State) (x : Group) (i : Instr) (dyn : Group → Nat → List (Nat × Nat)) (ts : List Nat) : List (Nat × (Nat × Nat)) :=
  ts.filterMap (fun t => (threadConds s x i dyn t).map (fun c => (t, c)))

/-- The present threads of a group that execute the word. -/
def okThreads (s : State) (x : Group) (i : Instr) (dyn : Group → Nat → List (Nat × Nat)) (ts : List Nat) : List Nat :=
  ts.filter (fun t => (threadConds s x i dyn t).isNone)

/-- No condition beyond those of the names. -/
def noDyn : Group → Nat → List (Nat × Nat) := fun _ _ => []

/-- TADDR of an `ix` condition (R322): the index n. -/
def ixTaddr (s : State) (x : Group) (i : Instr) (t : Nat) (cd : Nat × Nat) : NMap Nat :=
  if (cd.1 == 0x02 || cd.1 == 0x04) && (cd.2 == 5 || cd.2 == 6) then
    match ixName x t s.iss.spar i with | none => [] | some n => [(t, n)]
  else []

/-- One group's part of a lane-set word: threads that meet conditions trap, the others execute. `eff` gives the effect
for the executing threads, from the group as it stood before the word. -/
def laneGroup (i : Instr) (dyn : Group → Nat → List (Nat × Nat)) (addr : State → Group → Nat → Nat × Nat → Nat)
    (eff : Nat → Group → List Nat → State → State) (s : State) (gt : Nat × List Nat) : State :=
  let uid := s.iss.uid
  match groupOf s uid gt.1 with
  | none => s
  | some x =>
    let bad := badThreads s x i dyn gt.2
    let ok := okThreads s x i dyn gt.2
    let s1 := if bad.isEmpty then s else raiseSync s uid gt.1 false false gt.2 bad (addr s x) (ixTaddr s x i)
    if ok.isEmpty then s1 else eff uid x ok s1

/-- A lane-set word: each group of the issue set for itself (R44). -/
def laneWord (i : Instr) (dyn : Group → Nat → List (Nat × Nat)) (addr : State → Group → Nat → Nat × Nat → Nat)
    (eff : Nat → Group → List Nat → State → State) (s : State) : State :=
  s.iss.sets.foldl (laneGroup i dyn addr eff) s

/-- The header's ADDR for a condition that names the word itself (R373). -/
def addrWord (s : State) (x : Group) (_ : Nat) (_ : Nat × Nat) : Nat := issueVa s x

/-- The issue of a set in progress takes two clocks: a width-64 group with threads of both halves (R37). -/
def wideIssue (s : State) (x : Group) : Bool :=
  x.width == 64 && s.iss.sets.any (fun e => e.1 == x.gidx && e.2.any (fun t => decide (t < 32)) && e.2.any (fun t => decide (32 ≤ t)))

/-- The last clock of the issue in progress (R37). -/
def lastClock (s : State) (x : Group) : Nat := s.iss.clk + (if wideIssue s x then 1 else 0)

/-- The effect of a word that writes its destination names: for each executing thread `res` gives the values, one for
each name written, and the result is due `lat` clocks after issue (R150, R151). -/
def writeResult (i : Instr) (lat : Nat) (res : State → Group → List Nat → Nat → List Word) (uid : Nat) (x : Group) (ok : List Nat)
    (s : State) : State :=
  let id := s.seq
  let dsts := outsOf s.iss.spar i
  let vals := ok.flatMap (fun t => (dsts.zip (res s x ok t)).map (fun dv => (t, dv.1.2, [dv.2])))
  let s1 := beginWord { s with seq := id + 1 } i uid x.gidx ok false dsts id
  let s2 := pushPend s1 x.core ⟨id, uid, x.gidx, .lane, vals, s.iss.clk + lat⟩
  advanceNext s2 uid x.gidx ok

/-- A lane-set word whose result is a function of each thread's values (R150). -/
def laneResult (i : Instr) (lat : Nat) (res : State → Group → List Nat → Nat → List Word) (s : State) : State :=
  laneWord i noDyn addrWord (writeResult i lat res) s

/-- A word of one lane destination and a function of the values A and B. -/
def laneAB (i : Instr) (lat : Nat) (f : Word → Word → Word) (s : State) : State :=
  laneResult i lat (fun s x _ t => [f (valA x t s.iss.spar i 0) (valB x t s.iss.spar i 0)]) s

/-- A word of one lane destination and a function of the value A. -/
def laneA (i : Instr) (lat : Nat) (f : Word → Word) (s : State) : State :=
  laneResult i lat (fun s x _ t => [f (valA x t s.iss.spar i 0)]) s

/-- A word of one lane destination and a function of the values D, A and B, and of the group (its float mode). -/
def laneDAB (i : Instr) (lat : Nat) (f : Spar → Group → Word → Word → Word → Word) (s : State) : State :=
  laneResult i lat (fun s x _ t => [f s.iss.spar x (valD x t s.iss.spar i 0) (valA x t s.iss.spar i 0) (valB x t s.iss.spar i 0)]) s

/-- The group of a group-set issue (R38, R42). -/
def groupSetOf (s : State) : Option (Nat × List Nat) := s.iss.sets.head?

/-- A group-set word (R42, R179, R295): a condition is met by every non-exited thread; else the group executes once.
`dyn` gives the conditions that values or registers decide, `addr` their ADDR. -/
def groupWord (i : Instr) (dyn : State → Group → List (Nat × Nat)) (addr : State → Group → Nat → Nat × Nat → Nat)
    (eff : Nat → Group → List Nat → State → State) (s : State) : State :=
  let uid := s.iss.uid
  match groupSetOf s with
  | none => s
  | some gt => match groupOf s uid gt.1 with
    | none => s
    | some x =>
      let ts := liveTids x
      let names := ts.flatMap (fun t => nameConds x t (s.iss.off / 4) s.iss.spar i)
      let cond := match names with | [] => lowestCond (dyn s x) | cs => lowestCond cs
      match cond with
      | some c => raiseSync s uid x.gidx true false ts (ts.map (fun t => (t, c))) (addr s x) (fun _ _ => [])
      | none => eff uid x ts s

/-- No condition beyond those of the names. -/
def noGDyn : State → Group → List (Nat × Nat) := fun _ _ => []

/-- The value of field d, a or b of a group-set word. -/
def gD (s : State) (x : Group) (i : Instr) : Word := valD x 0 s.iss.spar i 0
def gA (s : State) (x : Group) (i : Instr) : Word := valA x 0 s.iss.spar i 0
def gA1 (s : State) (x : Group) (i : Instr) : Word := valA x 0 s.iss.spar i 1
def gB (s : State) (x : Group) (i : Instr) : Word := valB x 0 s.iss.spar i 0

/-- The issue of a group-set word with no destination: drops and counts, and the group continues (R53, R179, R339). -/
def groupPlain (i : Instr) (uid : Nat) (x : Group) (ts : List Nat) (s : State) : State :=
  advanceNext (beginWord s i uid x.gidx ts true [] s.seq) uid x.gidx ts

/-- A group-set word that writes one uniform destination, full `lat` clocks later (R179, R222). -/
def groupResult (i : Instr) (lat : Nat) (v : Word) (uid : Nat) (x : Group) (ts : List Nat) (s : State) : State :=
  let id := s.seq
  let dsts := outsOf s.iss.spar i
  let s1 := beginWord { s with seq := id + 1 } i uid x.gidx ts true dsts id
  let s2 := pushPend s1 x.core ⟨id, uid, x.gidx, .uniform, dsts.map (fun d => (0, d.2, [v])), s.iss.clk + lat⟩
  advanceNext s2 uid x.gidx ts

/-- A uniform word of a function of A and B (R180, R181). -/
def groupAB (i : Instr) (f : Word → Word → Word) (s : State) : State :=
  groupWord i noGDyn addrWord (fun uid x ts s => groupResult i 2 (f (gA s x i) (gB s x i)) uid x ts s) s

/-- The group waits in a waiting word (R179): its threads stand at the word until the condition is met. -/
def groupWait (i : Instr) (k : WaitKind) (uid : Nat) (x : Group) (ts : List Nat) (s : State) : State :=
  let s1 := beginWord s i uid x.gidx ts true [] s.seq
  modGroup s1 uid x.gidx (fun y => { y with
    wait := ⟨k, nextOff s, s.iss.clk, false⟩
    threads := y.threads.map (fun h => if h.exited then h else { issuedBy y h with ready := none, joined := false }) })

/-- The stall code of a group that waits (R266). -/
def waitCode : WaitKind → Nat
  | .none => 15 | .bar _ _ => 5 | .wt _ => 5 | .oc _ _ => 6 | .obRel _ => 6 | .obRec _ _ => 6 | .mwait _ _ _ => 7 | .dwait => 8
  | .gateCall _ _ => 9 | .gateRet _ => 9

/-- A thread at its release from a waiting word in a clock, where it stood at `pc`: it is held back until the next clock; a word released
in its own issue clock has issued in it (R179, R266). -/
def releasedAt (clk pc : Nat) (k : WaitKind) (h : Thread) : Thread :=
  if h.last.any (fun l => l.1 == clk) then h else { h with last := some (clk, pc, waitCode k) }

/-- The group is released from its waiting word (R179): its threads are at the next word from the following clock on. -/
def releaseWait (s : State) (uid g : Nat) : State :=
  match groupOf s uid g with
  | none => s
  | some x =>
    let n := x.wait.next
    modGroup s uid g (fun y => { y with
      wait := ⟨.none, 0, 0, false⟩
      threads := y.threads.map (fun h => if h.exited then h
        else releasedAt (clkOf s y.core) (entryVa y.kernel + h.off) y.wait.kind (goTo (coreOf s y.core) y.kernel.hndl n false h)) })

/-- One more outstanding operation of a class with its EQ entry (R96): the older stores and atomics of the threads that
issue the word, still in a TQ, set aside (R303) or in POOL, must have performed before it starts (R97). -/
def pushEq (s : State) (uid g cls : Nat) (ts : List Nat) (id arg : Nat) (dep : Bool) : State :=
  match groupOf s uid g with
  | none => s
  | some x =>
    let inTq := (x.threads.filter (fun h => ts.contains h.tid)).flatMap (fun h =>
      ((h.aside ++ h.tq).filter (fun e => match e.kind with | .store => true | .atomic _ _ _ => true | .load _ => false | .mwaitLoad => false | .fence => false)).map (·.id))
    let inPool := ((coreOf s x.core).pool.filter (fun e => e.uid == uid && e.g == g && ts.contains e.t)).map (·.id)
    let e : EqEntry := ⟨id, false, false, inTq ++ inPool, 0, arg, dep, s.iss.off / 4, s.iss.sparw, s.iss.word, s.iss.clk⟩
    modGroup s uid g (fun y => { y with oc := modAt y.oc cls (· + 1), eq := modAt y.eq cls (fun q => q ++ [e]) })

end Sys2Proof.Machine
end

