-- ==== Sys2Proof/Machine/MemWords.lean ====
section
/-! DEFINITION. The memory words at issue (R169-R174, R188, R197): the address, the entry that joins the thread's TQ
(R87), the destinations it will write (R171), and the coalescer's line requests (R81). -/

namespace Sys2Proof.Machine

open Sys2Proof

/-- The address of a memory word (R68, R169). -/
def eaOf (lo hi : Word) (off : Int) (size : Nat) : Nat := wrapN 64 (Int.ofNat (hi.toNat * 2 ^ 32 + lo.toNat) + off * size)

/-- The order and scope of a memory word (R88): without a spar, relaxed at die scope. -/
def ordOf (sp : Spar) : Nat × Nat := if sp.present then (sp.o, sp.q) else (0, 4)

/-- What one thread's entry of a memory word is. -/
structure MemAcc where
  kind : MemKind
  va : Nat
  size : Nat
  data : List Byte
deriving DecidableEq, Repr

/-- The TQ entry of an access by the word in progress (R87). -/
def tqEntry (s : State) (id set lane : Nat) (group : Bool) (pmask : List Nat) (a : MemAcc) : TqEntry :=
  { id := id, kind := a.kind, ord := (ordOf s.iss.spar).1, scope := (ordOf s.iss.spar).2, va := a.va, size := a.size, data := a.data,
    set := set, lane := lane, pa := none, parked := none, snap := none, tag := 0, widx := s.iss.off / 4, sparw := s.iss.sparw,
    word := s.iss.word, group := group, clk := s.iss.clk, pmask := pmask, pooled := false }

/-- The place of a thread in the order of lanes (R82): by physical lane, of a width-64 group the lower thread first. (DEDUCED, log 19) -/
def laneKey (h : Thread) : Nat := 2 * h.lane + h.tid / 32

/-- The threads of a group in the issue in progress. -/
def presentIn (s : State) (g : Nat) : List Nat := ((s.iss.sets.find? (fun e => e.1 == g)).map (·.2)).getD []

/-- The destinations of an issue set's load or atomic word (R171): each group of the set adds its threads. -/
def addLoad (s : State) (core set uid : Nat) (uniform : Bool) (fn : Nat) (dsts : List Nat) (who : List (Nat × Nat)) : State :=
  modCore s core (fun c =>
    let mem := who.map (fun gt => (gt, (none : Option (List Word)), false))
    if c.loads.any (fun l => l.id == set) then
      { c with loads := c.loads.map (fun l => if l.id == set then { l with mem := l.mem ++ mem } else l) }
    else { c with loads := c.loads ++ [⟨set, uid, uniform, fn, dsts, mem, false, 0⟩] })

/-- The line requests of a memory word (R81): each distinct 256-byte line with its sectors, in ascending line address. (DEDUCED, log 22) (DESIGN CHOICE, log 103) -/
def addLines (s : State) (x : Group) (set : Nat) (store : Bool) (accs : List MemAcc) : State :=
  modPart s x.core x.part (fun p => { p with lineSet := set, lineOf := (x.dom, x.slot, issueVa s x, if store then 4 else 0), portFree := clkOf s x.core + 1, lines := accs.foldl (fun m a =>
    let line := a.va / 256
    let sec := 2 ^ (a.va / 64 % 4)
    mset m line (((mget m line).getD 0) ||| sec)) p.lines })

/-- One group's part of a lane-set memory word: bindings, the entries of its executing threads in ascending lane, the
destinations, and the threads continue (R150, R170-R173). -/
def memEff (i : Instr) (set fn : Nat) (acc : State → Group → Nat → MemAcc) (uid : Nat) (x : Group) (ok : List Nat) (s : State) : State :=
  let dsts := outsOf s.iss.spar i
  let accs := ok.map (fun t => (t, acc s x t))
  let base := s.seq
  let s1 := beginWord { s with seq := base + ok.length } i uid x.gidx ok false dsts set
  let s2 := if dsts.isEmpty then s1 else addLoad s1 x.core set uid false fn (dsts.map (·.2)) (ok.map (fun t => (x.gidx, t)))
  let s3 := modGroup s2 uid x.gidx (fun y => (accs.zip (List.range ok.length)).foldl (fun y ak =>
    modThread y ak.1.1 (fun h => pushTq (coreOf s2 x.core) h (tqEntry s (base + ak.2) set (laneKey h) false (presentIn s x.gidx) ak.1.2))) y)
  advanceNext (addLines s3 x set (accs.any (fun a => match a.2.kind with | .load _ => false | .mwaitLoad => false | .store => true | .atomic _ _ _ => true | .fence => false)) (accs.map (·.2))) uid x.gidx ok

/-- A lane-set memory word. The number of its issue set stands in every entry of the set (R82, R171). -/
def memWord (i : Instr) (fn : Nat) (acc : State → Group → Nat → MemAcc) (s : State) : State :=
  laneWord i noDyn addrWord (memEff i s.seq fn acc) { s with seq := s.seq + 1 }

/-- `ld` of a size (R170). -/
def ldWord (i : Instr) (fn size : Nat) (off : BitVec 7) (s : State) : State :=
  memWord i fn (fun s x t => ⟨.load (size == 8), eaOf (valA x t s.iss.spar i 0) (valA x t s.iss.spar i 1) off.toInt size, size, []⟩) s

/-- `st` of a size (R172): the bytes of the data names, in ascending addresses. -/
def stWord (i : Instr) (size : Nat) (off : BitVec 7) (s : State) : State :=
  memWord i 0 (fun s x t => ⟨.store, eaOf (valA x t s.iss.spar i 0) (valA x t s.iss.spar i 1) off.toInt size, size,
    ((List.range 4).flatMap (fun k => bytesOfNat 4 (valD x t s.iss.spar i k).toNat)).take size⟩) s

/-- `at` (R173): the address is the pair's value, the size 4. -/
def atWord (i : Instr) (fn : Nat) (s : State) : State :=
  memWord i 4 (fun s x t => ⟨.atomic fn (valB x t s.iss.spar i 0) (valD x t s.iss.spar i 0),
    eaOf (valA x t s.iss.spar i 0) (valA x t s.iss.spar i 1) 0 4, 4, []⟩) s

/-- The lowest-numbered non-exited thread of a group (R87, R197). -/
def leadTid (x : Group) : Nat := (minOf (liveTids x)).getD 0

/-- A group-set memory word (R197): one entry in the lead thread's TQ. -/
def groupMem (i : Instr) (fn : Nat) (acc : State → Group → MemAcc) (s : State) : State :=
  groupWord i noGDyn addrWord (fun uid x ts s =>
    let dsts := outsOf s.iss.spar i
    let set := s.seq
    let a := acc s x
    let s1 := beginWord { s with seq := set + 2 } i uid x.gidx ts true dsts set
    let s2 := if dsts.isEmpty then s1 else addLoad s1 x.core set uid true fn (dsts.map (·.2)) [(x.gidx, leadTid x)]
    let s3 := modGroup s2 uid x.gidx (fun y => modThread y (leadTid x) (fun h =>
      pushTq (coreOf s2 x.core) h (tqEntry s (set + 1) set (laneKey h) true ts a)))
    advanceNext s3 uid x.gidx ts) s

/-- `uld` of a size (R197). -/
def uldWord (i : Instr) (fn size : Nat) (off : BitVec 7) (s : State) : State :=
  groupMem i fn (fun s x => ⟨.load (size == 8), eaOf (gA s x i) (gA1 s x i) off.toInt size, size, []⟩) s

/-- `ld.n8` (R170). -/
def execLdN8 (d : BitVec 7) (a : BitVec 7) (off : BitVec 7) (s : State) : Host.Outcome State Fault Refusal :=
  .next (ldWord (.ldN8 d a off) 0 1 off s)

/-- `ld.i8` (R170). -/
def execLdI8 (d : BitVec 7) (a : BitVec 7) (off : BitVec 7) (s : State) : Host.Outcome State Fault Refusal :=
  .next (ldWord (.ldI8 d a off) 1 1 off s)

/-- `ld.n16` (R170). -/
def execLdN16 (d : BitVec 7) (a : BitVec 7) (off : BitVec 7) (s : State) : Host.Outcome State Fault Refusal :=
  .next (ldWord (.ldN16 d a off) 2 2 off s)

/-- `ld.i16` (R170). -/
def execLdI16 (d : BitVec 7) (a : BitVec 7) (off : BitVec 7) (s : State) : Host.Outcome State Fault Refusal :=
  .next (ldWord (.ldI16 d a off) 3 2 off s)

/-- `ld.b32` (R170). -/
def execLdB32 (d : BitVec 7) (a : BitVec 7) (off : BitVec 7) (s : State) : Host.Outcome State Fault Refusal :=
  .next (ldWord (.ldB32 d a off) 4 4 off s)

/-- `ld.b64` (R170). -/
def execLdB64 (d : BitVec 7) (a : BitVec 7) (off : BitVec 7) (s : State) : Host.Outcome State Fault Refusal :=
  .next (ldWord (.ldB64 d a off) 5 8 off s)

/-- `ld.b128` (R170). -/
def execLdB128 (d : BitVec 7) (a : BitVec 7) (off : BitVec 7) (s : State) : Host.Outcome State Fault Refusal :=
  .next (ldWord (.ldB128 d a off) 6 16 off s)

/-- `st.b8` (R172). -/
def execStB8 (d : BitVec 7) (a : BitVec 7) (off : BitVec 7) (s : State) : Host.Outcome State Fault Refusal :=
  .next (stWord (.stB8 d a off) 1 off s)

/-- `st.b16` (R172). -/
def execStB16 (d : BitVec 7) (a : BitVec 7) (off : BitVec 7) (s : State) : Host.Outcome State Fault Refusal :=
  .next (stWord (.stB16 d a off) 2 off s)

/-- `st.b32` (R172). -/
def execStB32 (d : BitVec 7) (a : BitVec 7) (off : BitVec 7) (s : State) : Host.Outcome State Fault Refusal :=
  .next (stWord (.stB32 d a off) 4 off s)

/-- `st.b64` (R172). -/
def execStB64 (d : BitVec 7) (a : BitVec 7) (off : BitVec 7) (s : State) : Host.Outcome State Fault Refusal :=
  .next (stWord (.stB64 d a off) 8 off s)

/-- `st.b128` (R172). -/
def execStB128 (d : BitVec 7) (a : BitVec 7) (off : BitVec 7) (s : State) : Host.Outcome State Fault Refusal :=
  .next (stWord (.stB128 d a off) 16 off s)

/-- `at.add` (R173). -/
def execAtAdd (d : BitVec 7) (a : BitVec 7) (b : BitVec 7) (s : State) : Host.Outcome State Fault Refusal :=
  .next (atWord (.atAdd d a b) 0 s)

/-- `at.min` (R173). -/
def execAtMin (d : BitVec 7) (a : BitVec 7) (b : BitVec 7) (s : State) : Host.Outcome State Fault Refusal :=
  .next (atWord (.atMin d a b) 1 s)

/-- `at.max` (R173). -/
def execAtMax (d : BitVec 7) (a : BitVec 7) (b : BitVec 7) (s : State) : Host.Outcome State Fault Refusal :=
  .next (atWord (.atMax d a b) 2 s)

/-- `at.minn` (R173). -/
def execAtMinn (d : BitVec 7) (a : BitVec 7) (b : BitVec 7) (s : State) : Host.Outcome State Fault Refusal :=
  .next (atWord (.atMinn d a b) 3 s)

/-- `at.maxn` (R173). -/
def execAtMaxn (d : BitVec 7) (a : BitVec 7) (b : BitVec 7) (s : State) : Host.Outcome State Fault Refusal :=
  .next (atWord (.atMaxn d a b) 4 s)

/-- `at.and` (R173). -/
def execAtAnd (d : BitVec 7) (a : BitVec 7) (b : BitVec 7) (s : State) : Host.Outcome State Fault Refusal :=
  .next (atWord (.atAnd d a b) 5 s)

/-- `at.or` (R173). -/
def execAtOr (d : BitVec 7) (a : BitVec 7) (b : BitVec 7) (s : State) : Host.Outcome State Fault Refusal :=
  .next (atWord (.atOr d a b) 6 s)

/-- `at.xor` (R173). -/
def execAtXor (d : BitVec 7) (a : BitVec 7) (b : BitVec 7) (s : State) : Host.Outcome State Fault Refusal :=
  .next (atWord (.atXor d a b) 7 s)

/-- `at.xchg` (R173). -/
def execAtXchg (d : BitVec 7) (a : BitVec 7) (b : BitVec 7) (s : State) : Host.Outcome State Fault Refusal :=
  .next (atWord (.atXchg d a b) 8 s)

/-- `at.cas` (R173). -/
def execAtCas (d : BitVec 7) (a : BitVec 7) (b : BitVec 7) (s : State) : Host.Outcome State Fault Refusal :=
  .next (atWord (.atCas d a b) 9 s)

/-- `at.fadd` (R173). -/
def execAtFadd (d : BitVec 7) (a : BitVec 7) (b : BitVec 7) (s : State) : Host.Outcome State Fault Refusal :=
  .next (atWord (.atFadd d a b) 10 s)

/-- `uld.b32` (R197). -/
def execUldB32 (d : BitVec 7) (a : BitVec 7) (off : BitVec 7) (s : State) : Host.Outcome State Fault Refusal :=
  .next (uldWord (.uldB32 d a off) 4 4 off s)

/-- `uld.b64` (R197). -/
def execUldB64 (d : BitVec 7) (a : BitVec 7) (off : BitVec 7) (s : State) : Host.Outcome State Fault Refusal :=
  .next (uldWord (.uldB64 d a off) 5 8 off s)

/-- `ust.b32` (R197). -/
def execUstB32 (d : BitVec 7) (a : BitVec 7) (off : BitVec 7) (s : State) : Host.Outcome State Fault Refusal :=
  .next (groupMem (.ustB32 d a off) 0 (fun s x => ⟨.store, eaOf (gA s x (.ustB32 d a off)) (gA1 s x (.ustB32 d a off)) off.toInt 4, 4, bytesOfNat 4 (gD s x (.ustB32 d a off)).toNat⟩) s)

end Sys2Proof.Machine
end

