-- ==== Sys2Proof/Machine/Order.lean ====
section
/-! DEFINITION. The ordering machine's transitions (R85-R94): T1 to T5, the check that parks an entry (R297), the
completion of loads and results (R54, R171), and table walks (R75). A transition that is not enabled leaves the state. -/

namespace Sys2Proof.Machine

open Sys2Proof

/-- The access a TQ entry makes, for its check. -/
def accKindOf : MemKind → AccKind
  | .load _ => .load | .mwaitLoad => .mwait | .store => .store | .atomic fn _ _ => .atomic fn | .fence => .load

/-- The check of an entry (R297). -/
def entryCheck (s : State) (u : DUnit) (x : Group) (e : TqEntry) : Except (Nat × Nat) Nat :=
  memCheck s x.core x.asid (accKindOf e.kind) u.chk e.va e.size

/-- The physical address of an entry whose address translates, whatever its check says of protection and reach (R297). -/
def entryPa (s : State) (x : Group) (e : TqEntry) : Option Nat :=
  match vlocOf e.va with
  | .mapped => match xlat s x.core x.asid e.va with
    | .ok t => some (tlbPa t e.va)
    | .error _ => none
  | .scratch o => some (scratchPa x.core o)
  | .wptr ch => some (wptrPa x.core ch + e.va % 8)
  | .chip _ => none
  | .none => none

/-- Two entries cover a common location: by addresses, or by physical locations when both translate. -/
def sharesBytes (s : State) (x : Group) (o : TqEntry) (y : Group) (e : TqEntry) : Bool :=
  overlap o.va o.size e.va e.size || (match entryPa s x o, entryPa s y e with
    | some p, some q => overlap p o.size q e.size
    | _, _ => false)

/-- Two entries of a thread cover a common location (R89, R297). -/
def covers (s : State) (x : Group) (o e : TqEntry) : Bool :=
  match o.kind, e.kind with
  | .fence, _ => false
  | _, .fence => false
  | _, _ => sharesBytes s x o x e

/-- The entry is a fence. -/
def MemKind.isFence : MemKind → Bool
  | .fence => true | .load _ => false | .mwaitLoad => false | .store => false | .atomic _ _ _ => false

/-- The entry is a store or an atomic. -/
def MemKind.pools : MemKind → Bool
  | .store => true | .atomic _ _ _ => true | .load _ => false | .mwaitLoad => false | .fence => false

/-- The entry is a load or an atomic. -/
def MemKind.reads : MemKind → Bool
  | .load _ => true | .mwaitLoad => true | .atomic _ _ _ => true | .store => false | .fence => false

/-- An order has an acquire part; a release part (R88, R95). -/
def acq (ord : Nat) : Bool := ord == 1 || ord == 3
def rel (ord : Nat) : Bool := ord == 2 || ord == 3

/-- The scope is a home scope (R88). -/
def homeScope (q : Nat) : Bool := q == 1 || q == 3 || q == 4 || q == 5

/-- The older undone entry `o` blocks `e` (R89). An atomic stays in its TQ, undone, until it performs. -/
def blocks (s : State) (x : Group) (o e : TqEntry) : Bool :=
  covers s x o e || acq o.ord || rel e.ord || (o.kind.isFence && rel o.ord && e.kind.pools) ||
  (o.kind.reads && e.kind.isFence && acq e.ord)

/-- No older entry of the TQ blocks `e` (R89). -/
def eligible (s : State) (x : Group) (h : Thread) (e : TqEntry) : Bool :=
  (h.tq.takeWhile (fun o => o.id != e.id)).all (fun o => !blocks s x o e)

/-- The coalescer has still to emit the request for the entry's line (R81). -/
def lineWaits (s : State) (x : Group) (e : TqEntry) : Bool :=
  let p := partOf (coreOf s x.core) x.part
  !e.group && p.lineSet == e.set && p.lines.any (fun l => l.1 == e.va / 256)

/-- The TQs of a group take no step (R94): its slot is halted, the group is stopped by the debugger (R349), or its unit
rolls back (R336). -/
def tqHalted (s : State) (u : DUnit) (x : Group) : Bool :=
  slotState s x.core x.slot == 2 || x.dbg.mode == 1 || x.dbg.mode == 2 || u.rollPhase != 0 || u.cancel != 0

/-- The acquire of a barrier that ended an interval takes effect once every committed store has performed (R187). -/
def commitDone (s : State) (e : TqEntry) : Bool :=
  rel e.ord || (match e.snap with | none => true | some l => l.all (fun id => s.cores.all (fun k => !(k.2.pool.any (fun p => p.id == id)))))

/-- The drain of R91: every entry of the snapshot S has performed; a checked unit does not wait (R94, R337), but for the acquire after
a commit (R187). -/
def drained (s : State) (u : DUnit) (x : Group) (e : TqEntry) : Bool :=
  commitDone s e && (!(rel e.ord && homeScope e.scope) || u.chk ||
  (match e.snap with | none => false | some l => l.all (fun id => !((coreOf s x.core).pool.any (fun p => p.id == id)))))

/-- An entry of the same issue set and of a lower lane that writes the same bytes has still to enter POOL (R82, R87, R172). -/
def lowerLaneWaits (s : State) (u : DUnit) (x : Group) (e : TqEntry) : Bool :=
  u.groups.any (fun y => y.threads.any (fun k => k.tq.any (fun o => o.set == e.set && o.id != e.id && o.parked.isNone && o.kind.pools && !o.pooled &&
    decide (o.lane < e.lane) && sharesBytes s y o x e)))

/-- An entry leaves its TQ. -/
def dropTq (s : State) (x : Group) (t id : Nat) : Group := modThread x t (fun h => setTq (coreOf s x.core) h (h.tq.filter (fun o => o.id != id)))

/-- A per-lane condition (R291, R373). -/
def laneCond (s : State) (x : Group) (t : Nat) (e : TqEntry) (cd : Nat × Nat) : Cond :=
  { cause := cd.1, detail := cd.2, kind := .lane, widx := e.widx, sparw := e.sparw, word := e.word, addr := e.va, group := e.group,
    fetch := false, lmask := [t], pmask := e.pmask, taddr := [(t, e.va)], clk := e.clk, time := timeOf s x.core, cls := 0, more := false }

/-- A load set's result of one thread changed. -/
def setLoad (s : State) (core set uid g t : Nat) (r : Option (List Word)) (parked : Bool) : State :=
  modCore s core (fun c => { c with loads := c.loads.map (fun l => if l.id == set && l.uid == uid then
    { l with last := c.clk, mem := l.mem.map (fun m => if m.1.1 == g && m.1.2 == t then (m.1, r, parked) else m) } else l) })

/-- An entry that fails its check is parked and its thread meets the condition (R297). -/
def parkEntry (s : State) (uid : Nat) (x : Group) (t : Nat) (e : TqEntry) (cd : Nat × Nat) : State :=
  let s1 := modGroup s uid x.gidx (fun y => modThread y t (fun h => { h with tq := h.tq.map (fun o => if o.id == e.id then { o with parked := some cd } else o) }))
  raiseThread (setLoad s1 x.core e.set uid x.gidx t none true) uid x.gidx t (laneCond s x t e cd)

/-- A store or atomic that enters POOL or performs wakes the groups that watch its bytes (R188). `core` is given for an
entry into that core's POOL. -/
def wakeMwait (s : State) (core : Option Nat) (pa n : Nat) : State :=
  { s with units := s.units.map (fun u => { u with groups := u.groups.map (fun x =>
      match x.wait.kind with
      | .mwait va _ false =>
        if (match core with | none => true | some c => x.core == c) &&
          (match memCheck s x.core x.asid .mwait u.chk va 4 with | .ok p => overlap p 4 pa n | .error _ => false)
        then { x with wait := { x.wait with woken := true } } else x
      | _ => x) }) }

/-- The commit buffer holds a write of a checked unit to translated or host memory (R94, R331). -/
def bufferedPa (u : DUnit) (pa : Nat) : Bool := u.chk && (isHbm pa || isHost pa)

/-- The thread's acquire (R92): at home scope its floors rise to the latest index. -/
def acquireThread (s : State) (ord scope : Nat) (h : Thread) : Thread :=
  if acq ord && homeScope scope then { h with floors := allFloors s } else h

/-- An entry has entered POOL: a store is done and leaves its TQ, an atomic stays there undone (R89). -/
def leaveTq (s : State) (e : TqEntry) (x : Group) (t : Nat) : Group :=
  if e.kind == .store then dropTq s x t e.id
  else modThread x t (fun h => { h with tq := h.tq.map (fun o => if o.id == e.id then { o with pooled := true } else o) })

/-- T1 (R90): a store or atomic moves into POOL. -/
def execStoreToPool (uid g t id : Nat) (s : State) : Host.Outcome State Fault Refusal :=
  .next (match unitOf s uid, groupOf s uid g with
  | some u, some x => match threadOf x t with
    | none => s
    | some h => match h.tq.find? (fun e => e.id == id) with
      | none => s
      | some e =>
        if !e.kind.pools || e.pooled || e.parked.isSome || tqHalted s u x || !eligible s x h e || !drained s u x e || lineWaits s x e ||
          lowerLaneWaits s u x e then s
        else match entryCheck s u x e with
          | .error cd => parkEntry s uid x t e cd
          | .ok pa =>
            let buf := bufferedPa u pa && e.kind == .store
            if buf && (coreOf s x.core).cbuf + 1 > 8192 then cbufTake s x.core uid g 1
            else
              let s1 := if buf then cbufTake s x.core uid g 1 else s
              let p : PoolEntry :=
                { id := e.id, uid := uid, g := g, t := t, kind := e.kind, va := e.va, pa := pa, data := e.data, size := e.size, ord := e.ord,
                  scope := e.scope, set := e.set, onPath := false, buffered := buf, host := isHost pa, dom := x.dom, widx := e.widx, word := e.word, after := none }
              let s2 := modCore s1 x.core (fun c => { c with pool := c.pool ++ [p] })
              let s3 := modGroup s2 uid g (fun y => leaveTq s2 e (modThread y t (fun h => if buf then { h with items := addItem h.items e.id e.va e.data } else h)) t)
              wakeMwait s3 (some x.core) pa e.size
  | _, _ => s)

/-- A POOL entry that a load of a unit may read (R90, R94): one of the commit buffer only by its own unit, until it is committed. -/
def readable (uid : Nat) (p : PoolEntry) : Bool := !p.buffered || p.after.isSome || p.uid == uid

/-- The newest POOL entry of a core that covers a byte (R90 T2). -/
def newestPool (c : Core) (uid pa : Nat) : Option PoolEntry :=
  c.pool.reverse.find? (fun p => readable uid p && decide (p.pa ≤ pa) && decide (pa < p.pa + p.size))

/-- The floor of a location for a thread of a core (R86). -/
def floorOf (c : Core) (h : Thread) (pa : Nat) : Nat := Nat.max ((mget h.floors pa).getD 0) ((mget c.floors pa).getD 0)

/-- The index that loads take from HOME for a byte: a choice between their threads' floors and the latest index (R86); a
location without floors gives the latest. -/
def pickIndex (s : State) (c : Core) (hs : List Thread) (pa : Nat) (choice : Option Nat) : Nat :=
  if isHbm pa && !isCell s pa then Nat.min (latestIx s pa) (Nat.max (maxOf (hs.map (fun h => floorOf c h pa))) (choice.getD (latestIx s pa)))
  else latestIx s pa

/-- No mixture within one access (R90): a byte rises to the index of any write that another byte's choice shows. -/
def pullUp (s : State) (picks : List (Nat × Nat)) : List (Nat × Nat) :=
  let ns := picks.map (fun p => ((cohOf s p.1)[p.2]?).map (·.1) |>.getD 0)
  picks.map (fun p => (p.1, maxOf (p.2 :: ns.filterMap (fun n => if n = 0 then none else
    let j := (cohOf s p.1).findIdx (fun e => e.1 == n)
    if j < (cohOf s p.1).length then some j else none))))

/-- The words that a load's bytes make, by its fn (R101, R170). -/
def loadWords (fn : Nat) (bs : List Byte) : List Word :=
  let n := natOfBytes bs
  if fn = 0 ∨ fn = 2 then [BitVec.ofNat 32 n]
  else if fn = 1 then [BitVec.ofInt 32 (sextN 8 n)]
  else if fn = 3 then [BitVec.ofInt 32 (sextN 16 n)]
  else wordsOfBytes bs

/-- The fn of a load set. -/
def loadFn (s : State) (core set : Nat) : Nat := (((coreOf s core).loads.find? (fun l => l.id == set)).map (·.fn)).getD 4

/-- The value of a write-pointer read (R83): 0 for a channel outside the domain's mask. -/
def cpwpBytes (s : State) (core slot pa : Nat) : List Byte :=
  let ch := (pa - 2 ^ 52) % 32 / 8
  if bitN (dpCpch (rdReg s (.dpart core slot))) ch then homeRead s pa 8 else List.replicate 8 0

/-- Each destination of a load set's ready threads is written and set full (R171); what is parked stays. -/
def completeLoad (s : State) (core : Nat) (l : LoadSet) : State :=
  let done := l.mem.filter (fun m => m.2.1.isSome)
  let s1 := done.foldl (fun s m => modGroup s l.uid m.1.1 (fun x =>
    (l.dsts.zip ((m.2.1).getD [])).foldl (fun x dv => writeEntry x (if l.uniform then .uniform else .lane) dv.1 m.1.2 l.id [dv.2]) x)) s
  modCore s1 core (fun c =>
    let ls := c.loads.map (fun k => if k.id == l.id then { k with mem := k.mem.filter (fun m => m.2.1.isNone) } else k)
    { c with loads := ls.filter (fun k => !(k.id == l.id && k.mem.isEmpty)) })

/-- The writes of a load set come next in their entries (R54). -/
def loadReady (s : State) (l : LoadSet) : Bool :=
  l.mem.any (fun m => m.2.1.isSome) && l.mem.all (fun m => m.2.1.isSome || m.2.2) && !reportPending s l.id &&
  l.mem.all (fun m => m.2.1.isNone || (match groupOf s l.uid m.1.1 with
    | none => true
    | some x => nextWrite x (if l.uniform then .uniform else .lane) (l.dsts.map (fun n => (m.1.2, n))) l.id))

/-- A group takes a release that its state lets it act on at once (R319, R348, R349): from the clock of a debug stop on it keeps it. -/
def canRelease (s : State) (u : DUnit) (x : Group) : Bool :=
  slotRuns s x.core x.slot && x.pause.isNone && u.cancel == 0 && x.dbg.mode != 1 && x.dbg.mode != 2 && !x.trap.any (fun t => t.dbg != 0)

/-- The load of `sync.mwait` is satisfied (R188): the group is released with its acquire, or waits for a wake. -/
def mwaitLoaded (s : State) (uid g : Nat) (v : Word) : State :=
  match groupOf s uid g with
  | none => s
  | some x => match x.wait.kind with
    | .mwait va cmp _ =>
      if v ≠ cmp then releaseWait (acquireGroup s uid g) uid g
      else modGroup s uid g (fun y => { y with wait := { y.wait with kind := .mwait va cmp false, since := clkOf s x.core, woken := false } })
    | _ => s

/-- A satisfied load gives its bytes to its thread (R90 T2, R197). -/
def deliverLoad (s : State) (uid g t : Nat) (core : Nat) (e : TqEntry) (bs : List Byte) : State :=
  match e.kind with
  | .mwaitLoad => mwaitLoaded s uid g (wordAt bs 0)
  | _ =>
    let s1 := setLoad s core e.set uid g t (some (loadWords (loadFn s core e.set) bs)) false
    match (coreOf s1 core).loads.find? (fun l => l.id == e.set && l.uniform) with
    | some l => if loadReady s1 l then completeLoad s1 core l else s1
    | none => s1

/-- A load that a T2 satisfies: its group, thread, entry and physical address. -/
structure Satisfied where
  x : Group
  h : Thread
  e : TqEntry
  pa : Nat
deriving DecidableEq, Repr

/-- The loads of an entry's issue set that their checks let through. -/
def setLoads (s : State) (u : DUnit) (e : TqEntry) : List Satisfied :=
  u.groups.flatMap (fun y => y.threads.flatMap (fun k => k.tq.filterMap (fun o =>
    if o.set == e.set && !o.kind.pools && !o.kind.isFence && o.parked.isNone then
      (match entryCheck s u y o with | .ok pa => some ⟨y, k, o, pa⟩ | .error _ => none) else none)))

/-- The loads of a set that share bytes with one of some of them, and so on (R82). -/
def growLoads (all : List Satisfied) : Nat → List Satisfied → List Satisfied
  | 0, l => l
  | n + 1, l =>
    let m := all.filter (fun a => l.any (fun b => overlap a.pa a.e.size b.pa b.e.size))
    if m.length = l.length then l else growLoads all n m

/-- The loads that are satisfied with one (R82): those of its word that read a byte in common read the same value. (DEDUCED, log 53) -/
def satisfiedWith (s : State) (u : DUnit) (x : Group) (h : Thread) (e : TqEntry) (pa : Nat) : List Satisfied :=
  let all := setLoads s u e
  growLoads all all.length (all.filter (fun a => a.e.id == e.id && a.x.gidx == x.gidx && a.h.tid == h.tid && a.pa == pa))

/-- A load may take its T2 (R89, R90): it is eligible, its line's request is out (R81), and no atomic of its core's POOL
covers a location of it. -/
def mayLoad (s : State) (u : DUnit) (a : Satisfied) : Bool :=
  !tqHalted s u a.x && eligible s a.x a.h a.e && !lineWaits s a.x a.e &&
  !((coreOf s a.x.core).pool.any (fun p => p.kind != .store && overlap p.pa p.size a.pa a.e.size))

/-- The bytes of a load. -/
def Satisfied.locs (a : Satisfied) : List Nat := (List.range a.e.size).map (fun k => a.pa + k)

/-- The bytes of a load that its core's POOL does not hold. -/
def Satisfied.home (s : State) (uid : Nat) (a : Satisfied) : List Nat :=
  a.locs.filter (fun b => (newestPool (coreOf s a.x.core) uid b).isNone)

/-- One load is satisfied with the indices that its T2 took from HOME, or consumes poison. (DESIGN CHOICE, log 105) -/
def satisfyOne (uid : Nat) (picks : List (Nat × Nat)) (s : State) (a : Satisfied) : State :=
  let core := a.x.core
  let g := a.x.gidx
  let t := a.h.tid
  let home := a.home s uid
  match home.find? (fun b => s.poison.contains (b / 64)) with
  | some b => consumePoison (giveUpLoad (modGroup s uid g (fun y => dropTq s y t a.e.id)) core uid g t a.e.set) uid g (b / 64) [t]
  | none =>
    let byte := fun b => match newestPool (coreOf s core) uid b with
      | some p => (p.data[b - p.pa]?).getD 0
      | none => match picks.find? (fun p => p.1 == b) with
        | some p => ((cohOf s b)[p.2]?).map (·.2) |>.getD 0
        | none => 0
    let s0 := if home.isEmpty then s else l1Touch s core a.x.slot a.pa
    let s1 := modGroup s0 uid g (fun y => modThread (dropTq s0 y t a.e.id) t (fun h =>
      acquireThread s a.e.ord a.e.scope { h with floors := picks.foldl (fun m p => if isHbm p.1 && home.contains p.1 then mset m p.1 p.2 else m) h.floors }))
    let s2 := if home.isEmpty then s1 else watchHit s s1 ⟨0, a.x.dom, a.pa, a.e.size, uid, g, a.e.widx, a.e.word, 1, 0, (a.locs.filter (fun b => !home.contains b)).map (· - a.pa)⟩
    deliverLoad s2 uid g t core a.e (a.locs.map byte)

/-- The loads of a T2 are satisfied byte by byte: `choices` are the indices taken from HOME, in the order of the bytes. What
comes from HOME comes through the L2, and waits where a transfer is still to bring it (R361, R363). -/
def satisfyLoads (s : State) (uid : Nat) (core : Nat) (l : List Satisfied) (choices : List Nat) : State :=
  let r := l.foldl (fun q a => if (a.home s uid).isEmpty then q else
    let f := l2Read q.1 a.x.dom a.pa a.e.size
    (f.1, q.2 && f.2)) (s, true)
  if !r.2 then r.1
  else
    let home := nub (l.flatMap (fun a => a.home s uid))
    let picks := pullUp r.1 ((home.zip (List.range home.length)).map (fun bk =>
      (bk.1, pickIndex r.1 (coreOf s core) ((l.filter (fun a => a.locs.contains bk.1)).map (·.h)) bk.1 choices[bk.2]?)))
    l.foldl (satisfyOne uid picks) r.1

/-- T2 (R82, R90): a load is satisfied, with the loads of its word that share bytes with it. -/
def execLoadSatisfy (uid g t id : Nat) (choices : List Nat) (s : State) : Host.Outcome State Fault Refusal :=
  .next (match unitOf s uid, groupOf s uid g with
  | some u, some x => match threadOf x t with
    | none => s
    | some h => match h.tq.find? (fun e => e.id == id) with
      | none => s
      | some e =>
        if e.kind.pools || e.kind.isFence || e.parked.isSome || tqHalted s u x || !eligible s x h e || lineWaits s x e then s
        else match entryCheck s u x e with
          | .error cd => parkEntry s uid x t e cd
          | .ok pa =>
            let l := satisfiedWith s u x h e pa
            if !l.all (mayLoad s u) then s
            else if pa ≥ 2 ^ 52 then l.foldl (fun s a =>
              let s1 := modGroup s uid a.x.gidx (fun y => modThread (dropTq s y a.h.tid a.e.id) a.h.tid (acquireThread s a.e.ord a.e.scope))
              deliverLoad s1 uid a.x.gidx a.h.tid x.core a.e (cpwpBytes s x.core a.x.slot a.pa)) s
            else satisfyLoads s uid x.core l choices
  | _, _ => s)

/-- A POOL entry may move onto its PATH as far as commits go (R94, R337): the commit buffer's entries wait for the commit, and then
each for what performs before it. -/
def turnCome (c : Core) (p : PoolEntry) : Bool :=
  match p.after with
  | none => !p.buffered
  | some l => l.all (fun id => !(c.pool.any (fun q => q.id == id)))

/-- An earlier POOL entry covers a location of a later one, and no commit puts the later one first (R90, R337). -/
def goesBefore (q p : PoolEntry) : Bool := overlap q.pa q.size p.pa p.size && !q.after.any (fun l => l.contains p.id)

/-- A store or atomic of a POOL moves onto its PATH (R90 T3): no earlier entry to a location it covers is still in the
POOL. -/
def execPoolToPath (core id : Nat) (s : State) : Host.Outcome State Fault Refusal :=
  .next (let c := coreOf s core
    match c.pool.find? (fun p => p.id == id) with
    | none => s
    | some p =>
      if p.onPath || !turnCome c p || (c.pool.takeWhile (fun q => q.id != id)).any (fun q => !q.onPath && goesBefore q p) then s
      else setCore s core { c with pool := c.pool.map (fun q => if q.id == id then { q with onPath := true } else q) })

/-- The result of an atomic at its location (R173). -/
def atomicOp (fn : Nat) (old b expected : Word) : Option Word :=
  if fn = 0 then some (old + b)
  else if fn = 1 then some (minS old b)
  else if fn = 2 then some (maxS old b)
  else if fn = 3 then some (minU old b)
  else if fn = 4 then some (maxU old b)
  else if fn = 5 then some (old &&& b)
  else if fn = 6 then some (old ||| b)
  else if fn = 7 then some (old ^^^ b)
  else if fn = 8 then some b
  else if fn = 9 then (if old = expected then some b else none)
  else some (BitVec.ofNat 32 (fAdd f32 1 false old.toNat b.toNat))

/-- A core's floors after one of its writes performed (R86). -/
def raiseG (s : State) (core pa n : Nat) : State :=
  modCore s core (fun c => { c with floors := (List.range n).foldl (fun m k => if isHbm (pa + k) then mset m (pa + k) (latestIx s (pa + k)) else m) c.floors })

/-- The commit buffer's entry is a write of an engine or of `mx.sto` (R331): `ord` 8 marks a row, 7 a step, 6 its further pieces. -/
def PoolEntry.engine (p : PoolEntry) : Bool := p.buffered && decide (6 ≤ p.ord)

/-- The bytes of a POOL entry perform at HOME (R90 T4): floors of its core, but not for an engine's writes (R97), watch
hits, waiting groups. -/
def performBytes (s : State) (core : Nat) (p : PoolEntry) (bs : List Byte) (kind : Nat) : State :=
  let s1 := memWrite (arraysSee (journalScratch s p.uid p.g p.pa bs.length) p.pa bs) p.dom p.pa bs
  let s2 := if p.engine then s1 else raiseG s1 core p.pa bs.length
  let s3 := watchHit s s2 ⟨kind, p.dom, p.pa, p.size, p.uid, p.g, p.widx, p.word, kind + 1, if kind = 2 then p.set else 0, []⟩
  wakeMwait s3 none p.pa bs.length

/-- The commit-buffer entries of a buffered write (R334). -/
def cbufCost (p : PoolEntry) : Nat := if !p.buffered then 0 else if p.ord = 7 then 3 else if p.ord = 6 then 0 else if p.ord = 8 then 1 + p.size / 32 else 1

/-- An atomic has performed: it leaves its TQ, and its thread has read the latest value of its location (R89, R92, R93). -/
def atomicDone (s : State) (p : PoolEntry) : State :=
  modGroup s p.uid p.g (fun x => modThread (dropTq s x p.t p.id) p.t (fun h =>
    acquireThread s p.ord p.scope { h with floors := (List.range 4).foldl (fun m k => if isHbm (p.pa + k) then mset m (p.pa + k) (latestIx s (p.pa + k)) else m) h.floors }))

/-- A POOL entry performs (R90 T4) and leaves the POOL; an atomic returns the old value. -/
def performEntry (s : State) (core : Nat) (p : PoolEntry) : State :=
  let s1 := modCore s core (fun c => { c with pool := c.pool.filter (fun q => q.id != p.id), cbuf := c.cbuf - cbufCost p })
  match p.kind with
  | .atomic fn b expected =>
    match poisoned s p.pa 4 with
    | some sec => consumePoison (giveUpLoad (modGroup s1 p.uid p.g (fun x => dropTq s1 x p.t p.id)) core p.uid p.g p.t p.set) p.uid p.g sec [p.t]
    | none =>
      let old := wordAt (homeRead s p.pa 4) 0
      let s2 := match atomicOp fn old b expected with
        | some v => performBytes s1 core p (bytesOfNat 4 v.toNat) 2
        | none => watchHit s s1 ⟨2, p.dom, p.pa, 4, p.uid, p.g, p.widx, p.word, 3, p.set, []⟩
      atomicDone (setLoad s2 core p.set p.uid p.g p.t (some [old]) false) p
  | _ => performBytes s1 core p p.data 1

/-- T4 (R90): a PATH entry performs when no earlier entry covers one of its locations; what an atomic reads, and a sector that a store
writes in part, comes through the L2, and waits where a transfer is still to bring it (R361, R363). -/
def execPerformAtHome (core id : Nat) (s : State) : Host.Outcome State Fault Refusal :=
  .next (let c := coreOf s core
    match c.pool.find? (fun p => p.id == id) with
    | none => s
    | some p =>
      if !p.onPath || (c.pool.takeWhile (fun q => q.id != id)).any (fun q => goesBefore q p) then s
      else
        let r := if p.kind == .store then writeFetch s p.dom p.pa p.size else l2Read s p.dom p.pa p.size
        if r.2 then performEntry r.1 core p else r.1)

/-- The last fence of an arrival is done (R185): the arrival counts at the cell 2 or 8 cycles on. -/
def fencesGone (s : State) (uid g tag : Nat) : State :=
  match unitOf s uid, groupOf s uid g with
  | some u, some x =>
    if fencesDone x tag && x.arrs.any (fun a => a.tag == tag && a.due.isNone) then
      modGroup s uid g (fun y => { y with arrs := y.arrs.map (fun a => if a.tag == tag && a.due.isNone
        then { a with due := some (cyclesOn s x.core u.home (if x.core = u.home then 2 else 8)) } else a) })
    else s
  | _, _ => s

/-- T5 (R90): a fence is removed, with its acquire. -/
def execFenceRemove (uid g t id : Nat) (s : State) : Host.Outcome State Fault Refusal :=
  .next (match unitOf s uid, groupOf s uid g with
  | some u, some x => match threadOf x t with
    | none => s
    | some h => match h.tq.find? (fun e => e.id == id) with
      | none => s
      | some e =>
        if !e.kind.isFence || tqHalted s u x || !eligible s x h e || !drained s u x e then s
        else fencesGone (modGroup s uid g (fun y => modThread (dropTq s y t id) t (acquireThread s e.ord e.scope))) uid g e.tag
  | _, _ => s)

/-- The sectors of a line request that translate (R81). -/
def lineSectors (s : State) (core asid line mask : Nat) : List Nat :=
  (List.range 4).filterMap (fun k => if !bitN mask k then none else match memCheck s core asid .load false (256 * line + 64 * k) 1 with
    | .error _ => none
    | .ok pa => some (pa / 64))

/-- The L1 may hold a sector (R79). -/
def l1Holds (sec : Nat) : Bool := isHbm (64 * sec) || isHost (64 * sec)

/-- The L1 holds a sector for a domain slot (R79). -/
def l1Has (s : State) (core slot sec : Nat) : Bool :=
  ((mget (coreOf s core).l1 (sec / 4 % 64)).getD []).any (fun c => c.line == sec / 4 && c.owner == slot && bitN c.sectors (sec % 4))

/-- A load of a domain slot still waits for a sector. -/
def sectorAwaited (s : State) (core : Nat) (m : Nat × Nat) : Bool :=
  s.units.any (fun u => u.groups.any (fun x => x.core == core && x.slot == m.1 && x.threads.any (fun h => h.tq.any (fun e =>
    !e.kind.pools && !e.kind.isFence && e.parked.isNone && (match entryCheck s u x e with
      | .error _ => false
      | .ok pa => (sectorsOf pa e.size).contains m.2)))))

/-- The miss-status entries in use (R81): an entry frees when no load waits for its sector. -/
def mshrLive (s : State) (core : Nat) : List (Nat × Nat) := (coreOf s core).mshr.filter (sectorAwaited s core)

/-- The sectors of a load's line request that take a miss-status entry: they miss in the L1 and are not pending (R81). -/
def missSectors (s : State) (core slot asid line mask : Nat) : List Nat :=
  (lineSectors s core asid line mask).filter (fun sec => l1Holds sec && !l1Has s core slot sec && !(mshrLive s core).contains (slot, sec))

/-- The L2 of its home die holds a sector. -/
def inL2 (s : State) (sec : Nat) : Bool := match plocOf (64 * sec) with | .hbm d => l2Has s d sec | _ => false

/-- FLAGS of a line request (R269): an L1 hit, an L2 hit, a store or atomic, host memory. (DESIGN CHOICE, log 78) -/
def lineFlags (s : State) (core slot asid line mask flags : Nat) : Nat :=
  let secs := lineSectors s core asid line mask
  let hit1 := fun sec => flags == 0 && l1Holds sec && l1Has s core slot sec
  let l1 := !secs.isEmpty && secs.all hit1
  (if l1 then 1 else 0) + (if !l1 && !secs.isEmpty && secs.all (fun sec => hit1 sec || inL2 s sec) then 2 else 0) + flags +
  (if secs.any (fun sec => isHost (64 * sec)) then 16 else 0)

/-- LINE_REQUEST (R81): the coalescer emits the next line request, one in a clock; sectors that miss take miss-status
entries, and the request is held while none is free. It is counted (R268, R271). (DESIGN CHOICE, log 23) (DESIGN CHOICE, log 104) -/
def execLineRequest (core part : Nat) (s : State) : Host.Outcome State Fault Refusal :=
  .next (
    let p := partOf (coreOf s core) part
    match p.lines with
    | [] => s
    | (line, mask) :: _ =>
      let o := p.lineOf
      let asid := domAsid (rdReg s (.domtab core o.2.1))
      let live := mshrLive s core
      let miss := if o.2.2.2 = 0 then missSectors s core o.2.1 asid line mask else []
      if clkOf s core < p.portFree || decide (512 < live.length + miss.length) then s
      else
        let s1 := modCore s core (fun c => { c with mshr := live ++ miss.map (fun sec => (o.2.1, sec)) })
        let s2 := modPart s1 core part (fun q => { q with lines := q.lines.drop 1, portFree := clkOf s core + 1 })
        countReq (countEvent (countEvent s2 core part o.1 7 1) core part o.1 8 miss.length) core
          ⟨o.2.1, o.1, part, o.2.2.1, 0, lineFlags s core o.2.1 asid line mask o.2.2.2, p.lineSet, line, false⟩ 1)

/-- The destinations of a load or atomic are written for the whole set, in the clock after its last access (R171, R297). -/
def execLoadComplete (core set : Nat) (s : State) : Host.Outcome State Fault Refusal :=
  .next (match (coreOf s core).loads.find? (fun l => l.id == set) with
    | none => s
    | some l => if loadReady s l && decide (l.last < clkOf s core) then completeLoad s core l else s)

/-- A result arrives at its destination (R54, R151, R179). (DESIGN CHOICE, log 3) -/
def execResultWrite (core id : Nat) (s : State) : Host.Outcome State Fault Refusal :=
  .next (let c := coreOf s core
    match c.pend.find? (fun p => p.id == id) with
    | none => s
    | some p =>
      match groupOf s p.uid p.g with
      | none => setCore s core { c with pend := c.pend.filter (fun q => !(q.id == id && q.uid == p.uid && q.g == p.g)) }
      | some x =>
        if c.clk < p.due || !nextWrite x p.cls (p.vals.map (fun v => (v.1, v.2.1))) id then s
        else
          let s1 := setCore s core { c with pend := c.pend.filter (fun q => !(q.id == id && q.uid == p.uid && q.g == p.g)) }
          let s2 := modGroup s1 p.uid p.g (fun x => p.vals.foldl (fun x v => writeEntry x p.cls v.2.1 v.1 id v.2.2) x)
          if p.cls == .perm then p.vals.foldl (fun s v => syncPerm s p.uid p.g v.2.1) s2 else s2)

/-- The entries of a core whose check fails on a page of an address space, when its walk ends. -/
def pageFaults (s : State) (core asid va : Nat) : List (Nat × Group × Nat × TqEntry × (Nat × Nat)) :=
  s.units.flatMap (fun u => u.groups.flatMap (fun x =>
    if x.core != core || x.asid != asid || tqHalted s u x then [] else x.threads.flatMap (fun h =>
      h.tq.filterMap (fun e =>
        if e.kind.isFence || e.parked.isSome || e.va / 2 ^ 16 != va / 2 ^ 16 then none
        else match entryCheck s u x e with | .ok _ => none | .error cd => some (u.uid, x, h.tid, e, cd)))))

/-- The addresses of the table entries that a walk reads (R72). -/
def walkPas (s : State) (va : Nat) : Nat → Nat → Nat → List Nat
  | 0, _, _ => []
  | fuel + 1, level, base =>
    let pa := base + 8 * walkIndex level va
    let e := natOfBytes (homeRead s pa 8)
    pa :: (if bitN e 0 && !bitN e 1 && decide (level < 4) then walkPas s va fuel (level + 1) (fld e 51 8 * 256) else [])

/-- A walk reads its tables through the L2, for no domain (R80): `false` while a transfer is still to bring an entry. (DESIGN CHOICE, log 116) -/
def walkFetch (s : State) (die asid va : Nat) : State × Bool :=
  match rootOf s die asid with
  | none => (s, true)
  | some r => (walkPas s va 5 0 r).foldl (fun q pa => let f := l2Read q.1 4096 pa 8
      (f.1, q.2 && f.2)) (s, true)

/-- A table walk ends (R75): the translation enters the core's and the die's TLB; entries on the page that fail their
check are parked (R297). -/
def execTranslationWalk (core asid va : Nat) (s : State) : Host.Outcome State Fault Refusal :=
  .next (let die := dieOfCore core
    let f := walkFetch s die asid va
    if !f.2 then f.1
    else
    let s1 := match walk f.1 die asid va with
      | .error _ => f.1
      | .ok e => modDie (modCore f.1 core (fun c => { c with tlb := tlbFill 512 c.tlb e })) die (fun d => { d with tlb := tlbFill 16384 d.tlb e })
    (pageFaults s1 core asid va).foldl (fun s f => match groupOf s f.1 f.2.1.gidx with
      | none => s
      | some x => parkEntry s f.1 x f.2.2.1 f.2.2.2.1 f.2.2.2.2) s1)

end Sys2Proof.Machine
end

