-- ==== Sys2Proof/Machine/Sync.lean ====
section
/-! DEFINITION. Barriers, the end of groups, triggers and the waiting words of `sync` (R31, R95, R98, R184-R189, R198), and
the commit step of checked units (R187, R332, R333, R337). -/

namespace Sys2Proof.Machine

open Sys2Proof

/-- A unit's barrier cell. -/
def cellOf (u : DUnit) (n : Nat) : Option BarCell := u.bars.find? (fun b => b.num == n)

/-- A unit's barrier cell changed. -/
def modCell (s : State) (uid n : Nat) (f : BarCell → BarCell) : State :=
  modUnit s uid (fun u => { u with bars := u.bars.map (fun b => if b.num == n then f b else b) })

/-- A phase may complete (R184). -/
def phaseFull (b : BarCell) : Bool := b.cnt == b.tgt && decide (0 < b.tgt)

/-- The group waits for the completion of phase p of a barrier (R185). -/
def waitsPhase (x : Group) (n p : Nat) : Bool :=
  match x.wait.kind with
  | .bar k (some q) => k == n && q == p
  | .wt k => k == n && mget x.ar n == some p
  | _ => false

/-- A phase completes (R184): PH advances, the groups that end lower TGT, and the waiting groups are to be released after
the delay of R185. -/
def completeCell (s : State) (uid n : Nat) : State :=
  match (unitOf s uid).bind (fun u => cellOf u n) with
  | none => s
  | some b =>
    let s1 := modCell s uid n (fun b => { b with ph := (b.ph + 1) % 2 ^ 32, cnt := 0, tgt := b.tgt - b.lower.length, arrived := [], lower := [] })
    modUnit s1 uid (fun u => { u with groups := u.groups.map (fun x => if waitsPhase x n b.ph
      then { x with wait := { x.wait with woken := true }, relAt := some (cyclesOn s x.core u.home (if x.core = u.home then 2 else 8)) } else x) })

/-- The cores on which a unit has groups. -/
def unitCores (u : DUnit) : List Nat := nub (u.groups.map (·.core))

/-- An entry of the running interval in a unit's commit buffer (R94). -/
def inInterval (uid : Nat) (p : PoolEntry) : Bool := p.buffered && p.uid == uid && p.after.isNone

/-- A core's commit-buffer entries of a unit's interval are discarded, with the requests that waited for them (R33, R268, R333, R336). -/
def dropInterval (uid : Nat) (k : Core) : Core :=
  let gone := k.pool.filter (inInterval uid)
  { k with pool := k.pool.filter (fun p => !inInterval uid p)
           cbuf := k.cbuf - sumOf (gone.map cbufCost)
           tagged := k.tagged.filter (fun t => !(t.part == 255 && gone.any (fun p => p.id == t.line))) }

/-- The commit-buffer entries of a unit's interval are discarded on its cores (R333, R336). -/
def discardBuffered (s : State) (uid : Nat) : State :=
  match unitOf s uid with
  | none => s
  | some u => (unitCores u).foldl (fun s c => modCore s c (dropInterval uid)) s

/-- A core's entries of a unit's interval are committed (R187, R337): each is to perform, in POOL order, after every other entry of the
POOL and after the committed ones before it. -/
def commitCore (uid : Nat) (k : Core) : Core :=
  let others := (k.pool.filter (fun p => !p.buffered || p.after.isSome)).map (·.id)
  { k with pool := k.pool.map (fun p => if inInterval uid p
      then { p with after := some (others ++ ((k.pool.takeWhile (fun q => q.id != p.id)).filter (inInterval uid)).map (·.id)) } else p) }

/-- The committed stores of a unit that have still to perform (R187). -/
def committedIds (s : State) (uid : Nat) : List Nat :=
  s.cores.flatMap (fun k => (k.2.pool.filter (fun p => p.uid == uid && p.after.isSome)).map (·.id))

/-- The acquire of the groups that a commit releases takes effect only once every committed store has performed (R187): a fence in
the TQs of a unit. -/
def commitFences (ids : List Nat) (s : State) (uid : Nat) : State :=
  if ids.isEmpty then s
  else modUnit { s with seq := s.seq + 1 } uid (fun u => { u with groups := u.groups.map (fun x =>
    let c := coreOf s x.core
    { x with threads := x.threads.map (fun h => if h.exited then h else pushTq c h { fenceEntry s.seq 1 1 0 c.clk with snap := some ids }) }) })

/-- The journal records of a unit are cleared on every core (R187). -/
def clearJournal (s : State) (uid : Nat) : State :=
  { s with cores := s.cores.map (fun e => (e.1, { e.2 with journal := e.2.journal.filter (fun j => j.1 / 2 ^ 48 != uid) })) }

/-- A name of a checkpoint, with the values that stand in its spill slots then (R333). -/
def keepSlots (s : State) (u : DUnit) (x : Group) (m : NameSt) : NameSt :=
  match slotVa u x m with
  | none => m
  | some va => { m with entries := ((List.range m.entries.length).zip m.entries).map (fun ie =>
      if !ie.2.held || !standsInSlot m ie.2 then ie.2
      else { ie.2 with words := (List.range ie.2.words.length).map (fun k =>
        match memCheck s x.core (levelAsid x (nameLevel x m)) .store false (va + slotOff m.cls ie.1 + 4 * k) 4 with
        | .ok pa => wordAt (homeRead s pa 4) 0
        | .error _ => (ie.2.words[k]?).getD 0) }) }

/-- A group as its checkpoint keeps it (R333). -/
def keepGroup (s : State) (u : DUnit) (x : Group) : Group :=
  { x with names := x.names.map (keepSlots s u x), gstack := x.gstack.map (fun f => { f with names := f.names.map (keepSlots s u x) }) }

/-- A unit's reservations, by core and partition. -/
def unitRsvs (s : State) (uid : Nat) : List (Nat × Nat × Rsv) :=
  s.cores.flatMap (fun e => e.2.parts.flatMap (fun p => (p.2.rsvs.filter (fun r => r.uid == uid)).map (fun r => (e.1, p.1, r))))

/-- The new interval of a unit begins: signatures 0, the checkpoint is the state now (R331, R333). -/
def newInterval (s : State) (uid : Nat) : State :=
  let s1 := modUnit (clearJournal s uid) uid (fun u =>
    let gs := u.groups.map (fun x => { x with engItems := [], threads := x.threads.map (fun h => { h with items := [] }) })
    { u with groups := gs, rolls := 0, ckpt := some ⟨gs.map (keepGroup s u), u.bars, [], unitRsvs s uid⟩ })
  match unitOf s1 uid with
  | none => s1
  | some u => u.groups.foldl (fun s x => journalTouch s uid x.gidx x.core (2 ^ 44 + x.gidx) 4) s1

/-- The primary of a pair. -/
def primaryOf (s : State) (u : DUnit) : DUnit := if u.primary then u else ((u.twin.bind (fun v => unitOf s v)).getD u)

/-- The commit step of a checked pair (R186, R187, R333, R337): the primary's buffered entries are to perform one at a time, each after the entries of its
POOL that stand before it; the twin's are discarded, and the fences of both wait for the entries committed. (DESIGN CHOICE, log 58) -/
def commitPair (s : State) (u : DUnit) : State :=
  let p := primaryOf s u
  let s1 := (unitCores p).foldl (fun s c => modCore s c (commitCore p.uid)) s
  (pairOf s u.uid).foldl (fun s v => newInterval (commitFences (committedIds s1 p.uid) (discardBuffered s v) v) v) s1

/-- The signatures of a pair agree (R187). -/
def sigsEqual (s : State) (u : DUnit) : Bool :=
  match u.twin.bind (fun v => unitOf s v) with
  | none => true
  | some w => unitSig u == unitSig w

/-- A group has nothing outstanding (R333): no operation, no load or atomic, no result in flight. -/
def outstandingNone (s : State) (u : DUnit) (x : Group) : Bool :=
  let c := coreOf s x.core
  x.oc.all (· == 0) && !(c.loads.any (fun l => l.uid == u.uid && l.mem.any (fun m => m.1.1 == x.gidx))) &&
  !(c.pend.any (fun p => p.uid == u.uid && p.g == x.gidx))

/-- The groups of a unit that have ended have nothing outstanding, as a commit asks (R333). -/
def endedQuiet (s : State) (u : DUnit) : Bool := u.groups.all (fun x => !x.ended || outstandingNone s u x)

/-- An arrival or a lowering of TGT completes the phase when CNT equals TGT (R184); in a checked unit a cell that counts
groups completes with its twin's, in the commit step, once the groups that ended have nothing outstanding, or rolls both back (R187,
R333, R336). -/
def tryComplete (s : State) (uid n : Nat) : State :=
  match unitOf s uid with
  | none => s
  | some u => match cellOf u n with
    | none => s
    | some b =>
      if !phaseFull b then s
      else if !(u.chk && b.zero) then completeCell s uid n
      else match u.twin.bind (fun v => unitOf s v) with
        | none => completeCell s uid n
        | some w =>
          if !(cellOf w n).any phaseFull || !endedQuiet s u || !endedQuiet s w then s
          else if sigsEqual s u then commitPair (completeCell (completeCell s uid n) w.uid n) u
          else startRollback s uid (primaryOf s u).home false

/-- A group that ends lowers TGT of each cell that counts groups (R184); one with an arrival pending lowers it in the phase in which the
last of them counts. (DESIGN CHOICE, log 121) -/
def endOnCell (s : State) (uid g : Nat) (b : BarCell) : State :=
  if !b.zero then s
  else match groupOf s uid g with
    | none => s
    | some x =>
      if x.arrs.any (fun a => a.bar == b.num) then s
      else if b.arrived.contains g then modCell s uid b.num (fun c => { c with lower := c.lower ++ [g] })
      else tryComplete (modCell s uid b.num (fun c => { c with tgt := c.tgt - 1 })) uid b.num

/-- A group ends (R31): its entries of the group-scope classes are dropped (R56), its reservations freed (R191), the cells
that count groups lowered (R184). -/
def endGroup (s : State) (uid g : Nat) : State :=
  match unitOf s uid, groupOf s uid g with
  | some u, some x =>
    let s1 := modGroup s uid g (fun y => endDrops { y with ended := true })
    let s2 := modPart s1 x.core x.part (fun p => { p with rsvs := p.rsvs.filter (fun r => !(r.uid == uid && r.g == g)) })
    u.bars.foldl (fun s b => endOnCell s uid g b) s2
  | _, _ => s

/-- The entries of a thread that the callers of a gable call hold set aside (R194, R303). -/
def asideOf (x : Group) (t : Nat) : List TqEntry := x.gstack.flatMap (fun f => (mget f.aside t).getD [])

/-- Threads of a group exit (R31, R168, R304, R318). -/
def exitThreads (uid : Nat) (x : Group) (ts : List Nat) (s : State) : State :=
  let alu := ((coreOf s x.core).pend.filter (fun p => p.uid == uid && p.g == x.gidx)).map (·.id)
  let s1 := ts.foldl (fun s t => match groupOf s uid x.gidx with
    | none => s
    | some y => match threadOf y t with
      | none => s
      | some h => (h.aside ++ asideOf y t).foldl (fun s e => giveUpLoad s y.core uid y.gidx t e.set) s) s
  let s2 := modGroup s1 uid x.gidx (fun y => exitDrops (modThreads y ts (fun h =>
    { issuedBy y h with exited := true, ready := some (clkOf s y.core + (if wideIssue s x && decide (32 ≤ h.tid) then 1 else 0)), joined := false, aside := [], inHandler := false })) ts alu)
  match groupOf s2 uid x.gidx with
  | none => s2
  | some y => if y.threads.all (·.exited) then endGroup s2 uid x.gidx else s2

/-- The group arrives at a barrier (R185): release fences at unit scope in every thread's TQ; the arrival counts when they
are done. -/
def arrive (s : State) (uid g n : Nat) : State :=
  let tag := s.seq
  modGroup (placeFences s uid g 2 1 tag) uid g (fun x => { x with arrs := x.arrs ++ [⟨n, tag, none⟩] })

/-- The last pending arrival of the group on the barrier is counted: its `sync.bar` waits for that phase. -/
def notePhase (x : Group) (n p : Nat) : Group :=
  match x.wait.kind with
  | .bar k none => if k == n && !(x.arrs.any (fun a => a.bar == n)) then { x with wait := { x.wait with kind := .bar n (some p) } } else x
  | _ => x

/-- One arrival counts at a cell (R184, R185); an arrival of a group that has ended lowers TGT at the phase's end. -/
def countArrival (s : State) (uid n : Nat) (who : Option Nat) (ended : Bool) : State :=
  tryComplete (modCell s uid n (fun b =>
    { b with cnt := b.cnt + 1
             arrived := match who with | none => b.arrived | some g => b.arrived ++ [g]
             lower := match who with | none => b.lower | some g => if ended && b.zero && !b.lower.contains g then b.lower ++ [g] else b.lower })) uid n

/-- BARRIER_ARRIVAL (R185, R333): the group's oldest pending arrival on the barrier counts once its fences are done. With none left, an
ended group's outstanding operations may have been what the phase of a checked unit waited for. -/
def execBarrierArrival (uid g bar : Nat) (s : State) : Host.Outcome State Fault Refusal :=
  .next (match unitOf s uid, groupOf s uid g with
  | some u, some x => match x.arrs.find? (fun a => a.bar == bar), cellOf u bar with
    | some a, some b =>
      if u.cancel != 0 || u.rollPhase != 0 || !a.due.any (reached s) || (u.chk && b.zero && !outstandingNone s u x) then s
      else
        let s1 := modGroup s uid g (fun y => notePhase { y with arrs := y.arrs.filter (fun c => c.tag != a.tag), ar := mset y.ar bar b.ph } bar b.ph)
        countArrival s1 uid bar (some g) (x.ended && !(x.arrs.any (fun c => c.bar == bar && c.tag != a.tag)))
    | none, some _ => if u.cancel == 0 && u.rollPhase == 0 && u.chk && x.ended then tryComplete s uid bar else s
    | _, none => s
  | _, _ => s)

/-- Groups of a partition whose barrier phase has completed are released, with their acquire (R185, R198, R319). (DEDUCED, log 14) -/
def releaseBarriers (s : State) (core part : Nat) : State :=
  (groupsAt s core part).foldl (fun s ux =>
    match unitOf s ux.1, groupOf s ux.1 ux.2.gidx with
    | some u, some x =>
      if x.wait.woken && x.relAt.any (reached s) && canRelease s u x then
        (match x.wait.kind with
         | .bar _ _ => releaseWait (acquireGroup s u.uid x.gidx) u.uid x.gidx
         | .wt _ => releaseWait (acquireGroup s u.uid x.gidx) u.uid x.gidx
         | _ => s)
      else s
    | _, _ => s) s

/-- The unit in whose group the word in progress runs. -/
def issUnit (s : State) : Option DUnit := unitOf s s.iss.uid

/-- The cell counts the groups of a checked unit (R333). -/
def checkedCell (s : State) (n : Nat) : Bool := (issUnit s).any (fun u => u.chk && (cellOf u n).any (·.zero))

/-- `sync.bar` (R185). -/
def execSyncBar (d : BitVec 7) (s : State) : Host.Outcome State Fault Refusal :=
  .next (groupWord (.syncBar d) noGDyn addrWord (fun uid x ts s =>
    arrive (groupWait (.syncBar d) (.bar d.toNat none) uid x ts s) uid x.gidx d.toNat) s)

/-- `sync.arr` (R185); on a cell that counts groups of a checked unit it acts as `sync.bar` (R333). -/
def execSyncArr (d : BitVec 7) (s : State) : Host.Outcome State Fault Refusal :=
  .next (groupWord (.syncArr d) noGDyn addrWord (fun uid x ts s =>
    if checkedCell s d.toNat then arrive (groupWait (.syncArr d) (.bar d.toNat none) uid x ts s) uid x.gidx d.toNat
    else arrive (groupPlain (.syncArr d) uid x ts s) uid x.gidx d.toNat) s)

/-- `sync.wt` (R185, R186): it waits for a pending arrival's phase; no wait when no phase was recorded, and none but the
acquire when that phase has completed. (DEDUCED, log 56) -/
def execSyncWt (d : BitVec 7) (s : State) : Host.Outcome State Fault Refusal :=
  .next (groupWord (.syncWt d) noGDyn addrWord (fun uid x ts s =>
    if x.arrs.any (fun a => a.bar == d.toNat) then groupWait (.syncWt d) (.bar d.toNat none) uid x ts s
    else match mget x.ar d.toNat, (issUnit s).bind (fun u => cellOf u d.toNat) with
      | some p, some b => if p = b.ph then groupWait (.syncWt d) (.wt d.toNat) uid x ts s
        else acquireGroup (groupPlain (.syncWt d) uid x ts s) uid x.gidx
      | _, _ => groupPlain (.syncWt d) uid x ts s) s)

/-- `sync.oc` (R98): the group waits until the counter is at or below the threshold. -/
def execSyncOc (d : BitVec 7) (a : BitVec 7) (s : State) : Host.Outcome State Fault Refusal :=
  .next (groupWord (.syncOc d a) noGDyn addrWord (fun uid x ts s => groupWait (.syncOc d a) (.oc d.toNat a.toNat) uid x ts s) s)

/-- `sync.fence` (R95): a fence entry in every non-exited thread's TQ; the group continues. -/
def execSyncFence (d : BitVec 7) (a : BitVec 7) (s : State) : Host.Outcome State Fault Refusal :=
  .next (groupWord (.syncFence d a) noGDyn addrWord (fun uid x ts s =>
    placeFences (groupPlain (.syncFence d a) uid x ts s) uid x.gidx a.toNat d.toNat 0) s)

/-- The load of `sync.mwait` joins the lead thread's TQ (R188). -/
def placeMwait (s : State) (uid g va : Nat) (widx : Nat) (sparw word : Word) : State :=
  modGroup { s with seq := s.seq + 1 } uid g (fun x => modThread x (leadTid x) (fun h => pushTq (coreOf s x.core) h
    { id := s.seq, kind := .mwaitLoad, ord := 1, scope := 4, va := va, size := 4, data := [], set := s.seq, lane := 0, pa := none, parked := none,
      snap := none, tag := 0, widx := widx, sparw := sparw, word := word, group := true, clk := clkOf s x.core, pmask := liveTids x, pooled := false }))

/-- `sync.mwait` (R188). -/
def execSyncMwait (a : BitVec 7) (b : BitVec 7) (s : State) : Host.Outcome State Fault Refusal :=
  .next (groupWord (.syncMwait a b) noGDyn addrWord (fun uid x ts s =>
    let i : Instr := .syncMwait a b
    let va := eaOf (gA s x i) (gA1 s x i) 0 4
    placeMwait (groupWait i (.mwait va (gB s x i) true) uid x ts s) uid x.gidx va (s.iss.off / 4) s.iss.sparw s.iss.word) s)

/-- `sync.trig` (R189): system release fences; the group is marked triggered when they are done. -/
def execSyncTrig (s : State) : Host.Outcome State Fault Refusal :=
  .next (groupWord .syncTrig noGDyn addrWord (fun uid x ts s =>
    let tag := s.seq
    modGroup (placeFences (groupPlain .syncTrig uid x ts s) uid x.gidx 2 5 tag) uid x.gidx
      (fun y => { y with trigger := if y.trigger = 0 then tag + 2 else y.trigger })) s)

/-- `sync.dwait` (R189). -/
def execSyncDwait (s : State) : Host.Outcome State Fault Refusal :=
  .next (groupWord .syncDwait noGDyn addrWord (fun uid x ts s => groupWait .syncDwait .dwait uid x ts s) s)

/-- GROUP_TRIGGERED (R189). -/
def execGroupTriggered (uid g : Nat) (s : State) : Host.Outcome State Fault Refusal :=
  .next (modGroup s uid g (fun x => if decide (2 ≤ x.trigger) && fencesDone x (x.trigger - 2) then { x with trigger := 1 } else x))

/-- Every producer of a unit's launch has triggered (R189). -/
def prodsTriggered (s : State) (u : DUnit) : Bool :=
  u.prods.all (fun p => match s.hub.launches.find? (fun l => l.order == p) with
    | none => true
    | some l => l.triggered)

/-- A waiting group is released with its acquire when a condition holds (R179, R319). -/
def releaseWhen (s : State) (uid g : Nat) (p : DUnit → Group → Bool) : State :=
  match unitOf s uid, groupOf s uid g with
  | some u, some x => if p u x && canRelease s u x then releaseWait (acquireGroup s uid g) uid g else s
  | _, _ => s

/-- DWAIT_RELEASE (R189). -/
def execDwaitRelease (uid g : Nat) (s : State) : Host.Outcome State Fault Refusal :=
  .next (releaseWhen s uid g (fun u x => x.wait.kind == .dwait && prodsTriggered s u))

/-- OC_WAIT_RELEASE (R98). -/
def execOcWaitRelease (uid g : Nat) (s : State) : Host.Outcome State Fault Refusal :=
  .next (releaseWhen s uid g (fun _ x => match x.wait.kind with
    | .oc cls thr => decide ((x.oc[cls]?).getD 0 ≤ thr)
    | _ => false))

/-- The spar and word at a kernel offset, as the group would fetch them. -/
def wordsAtOff (s : State) (x : Group) (off : Nat) : Word × Word :=
  let w := fun o => match fetchWord s x.core x.asid (entryVa x.kernel + o) with | .ok v => v | .error _ => 0
  if fld (w off).toNat 31 25 = 63 then (w off, w (off + 4)) else (0, w off)

/-- The group of a monitored wait loads its word again (R188). -/
def mwaitAgain (s : State) (uid g : Nat) (p : Group → Bool) : State :=
  match unitOf s uid, groupOf s uid g with
  | some u, some x => match x.wait.kind with
    | .mwait va cmp false =>
      if p x && canRelease s u x then
        let off := ((threadOf x (leadTid x)).map (·.off)).getD 0
        let w := wordsAtOff s x off
        placeMwait (modGroup s uid g (fun y => { y with wait := { y.wait with kind := .mwait va cmp true, woken := false } })) uid g va (off / 4) w.1 w.2
      else s
    | _ => s
  | _, _ => s

/-- MWAIT_WAKE (R188). -/
def execMwaitWake (uid g : Nat) (s : State) : Host.Outcome State Fault Refusal := .next (mwaitAgain s uid g (fun x => x.wait.woken))

/-- MWAIT_TIMEOUT (R188). -/
def execMwaitTimeout (uid g : Nat) (s : State) : Host.Outcome State Fault Refusal :=
  .next (mwaitAgain s uid g (fun x => decide (x.wait.since + 65536 ≤ clkOf s x.core)))

/-- Every group of a twin has ended, with nothing outstanding (R332). -/
def allEnded (s : State) (w : DUnit) : Bool :=
  w.rollPhase == 0 && w.cancel == 0 && w.groups.all (fun x => x.ended && outstandingNone s w x && x.threads.all (fun h => h.tq.isEmpty))

/-- FINAL_COMMIT (R332): every group of both twins has ended, with nothing outstanding. -/
def execFinalCommit (uid : Nat) (s : State) : Host.Outcome State Fault Refusal :=
  .next (match unitOf s uid with
  | none => s
  | some u =>
    if !u.chk || !((pairOf s uid).all (fun v => (unitOf s v).any (allEnded s))) then s
    else if sigsEqual s u then (pairOf s uid).foldl (fun s v => modUnit s v (fun w => { w with rollPhase := 3 })) (commitPair s u)
    else startRollback s uid (primaryOf s u).home false)

/-- The unit's started operations have ended (R336): nothing runs for it in channels, array, solver or window port. -/
def startedEnded (s : State) (uid : Nat) : Bool :=
  match unitOf s uid with
  | none => true
  | some u => u.groups.all (fun x => x.eq.all (fun q => q.all (fun e => !e.started || e.fin)))

/-- An entry's value goes back to the checkpoint in a resource, or without one to be written to its slot (R333, R336). -/
def restoreEntry (bound : Bool) (e : Entry) : Entry :=
  if bound then { e with inSlot := false, wt := 0 } else if e.held then { e with inSlot := true, wt := 1 } else e

/-- A name's value goes back to the checkpoint in the binding that the name has now (R333, R336). -/
def restoreName (m now : NameSt) : NameSt := { now with entries := m.entries.map (restoreEntry (!now.res.isEmpty)) }

/-- A name of a kernel that the group has left since the checkpoint, whose binding is gone. -/
def unbindName (m : NameSt) : NameSt :=
  { m with res := [], staged := false, spilled := false, out := false, claimed := false, slot := none, entries := m.entries.map (restoreEntry false) }

/-- The names of the checkpoint, each in the binding that the name of its kernel has now. -/
def restoreNames (x : Group) (l : List NameSt) : List NameSt :=
  l.map (fun m => match (levelNames x).find? (fun k => k.2.cls == m.cls && k.2.num == m.num && k.2.depth == m.depth) with
    | none => unbindName m
    | some now => restoreName m now.2)

/-- A group goes back to its checkpoint; its bindings, its spill slots, a running rebinding and a stop under way stay. -/
def restoreGroup (y x : Group) : Group :=
  { y with
    names := restoreNames x y.names
    gstack := y.gstack.map (fun f => { f with names := restoreNames x f.names })
    nslot := x.nslot, stopAt := x.stopAt, pause := x.pause }

/-- The names of a group, with their levels, that hold a value of the checkpoint and were dropped in the interval. -/
def droppedNames (x : Group) : List (Nat × NameSt) :=
  (levelNames x).filter (fun lm => lm.2.res.isEmpty && !lm.2.out && !lm.2.spilled && lm.2.entries.any (·.held))

/-- A name that was dropped in the interval is bound again, or spilled, with its value (R336). (DESIGN CHOICE, log 98) -/
def rebindDropped (uid g : Nat) (s : State) (lm : Nat × NameSt) : State :=
  let m := lm.2
  let q := bindName s uid g lm.1 m.owner m.cls m.num false
  if q.2 then modGroup q.1 uid g (fun x => modLevelName x lm.1 m.cls m.num (fun n => { n with entries := n.entries.map (restoreEntry true) }))
  else markSpilled q.1 uid g lm.1 m.cls m.num

/-- The names dropped in the interval of every group of a unit are bound again, and permutation registers take their values. -/
def restoreDropped (s : State) (uid : Nat) : State :=
  match unitOf s uid with
  | none => s
  | some u => u.groups.foldl (fun s x => ((levelNames x).filter (fun lm => lm.2.cls == .perm)).foldl (fun s lm => syncPerm s uid x.gidx lm.2.num)
      ((droppedNames x).foldl (rebindDropped uid x.gidx) s)) s

/-- A unit's state goes back to its checkpoint (R336): its groups, its cells of ZERO = 0, the phase counts of the others,
its scratchpad sectors. (DEDUCED, log 61) -/
def restoreUnit (s : State) (uid : Nat) : State :=
  match unitOf s uid with
  | none => s
  | some u => match u.ckpt with
    | none => s
    | some k =>
      let gs := k.groups.map (fun y => match groupIn u y.gidx with | none => y | some x => restoreGroup y x)
      let bars := u.bars.map (fun b => if b.zero then { b with cnt := 0, arrived := [], lower := ((k.bars.find? (fun c => c.num == b.num)).map (·.lower)).getD [] , tgt := ((k.bars.find? (fun c => c.num == b.num)).map (·.tgt)).getD b.tgt }
        else (k.bars.find? (fun c => c.num == b.num)).getD b)
      let s1 := { s with mem := k.scratch.foldr (fun e m => Memory.writeAll m e.1 e.2) s.mem }
      let s2 := modUnit s1 uid (fun w => { w with groups := gs, bars := bars, rollPhase := 2, rollClk := rollAt s u 32, ckpt := some { k with scratch := [] } })
      restoreDropped { s2 with cores := s2.cores.map (fun e => (e.1, { e.2 with
          pool := e.2.pool.filter (fun p => p.uid != uid || p.after.isSome)
          loads := e.2.loads.filter (fun l => l.uid != uid)
          solverQ := e.2.solverQ.filter (fun o => o.uid != uid)
          chans := e.2.chans.map (fun ch => { ch with waiting := ch.waiting.filter (fun r => r.uid != uid) })
          parts := e.2.parts.map (fun p => (p.1, { p.2 with
            mxq := p.2.mxq.filter (fun m => m.uid != uid)
            rsvs := p.2.rsvs.filter (fun r => r.uid != uid) ++ (k.rsvs.filter (fun r => r.1 == e.1 && r.2.1 == p.1)).map (·.2.2) }))
          pend := e.2.pend.filter (fun p => p.uid != uid)
          journal := e.2.journal.filter (fun j => j.1 / 2 ^ 48 != uid) })) } uid

/-- ROLLBACK_REPLAY (R336): 64 cycles on, once the started operations have ended, the interval's buffered entries are
discarded and the journal replayed. -/
def execRollbackReplay (uid : Nat) (s : State) : Host.Outcome State Fault Refusal :=
  .next (match unitOf s uid with
  | none => s
  | some u =>
    if u.rollPhase ≠ 1 ∨ !reached s u.rollClk ∨ !((pairOf s uid).all (startedEnded s)) then s
    else (pairOf s uid).foldl (fun s v => restoreUnit (discardBuffered s v) v) s)

/-- ROLLBACK_RESUME (R336): 32 cycles after the replay the groups run again. -/
def execRollbackResume (uid : Nat) (s : State) : Host.Outcome State Fault Refusal :=
  .next (match unitOf s uid with
  | none => s
  | some u =>
    if u.rollPhase ≠ 2 ∨ !reached s u.rollClk then s
    else (pairOf s uid).foldl (fun s v => modUnit s v (fun w => { w with rollPhase := 0, rollClk := (0, 0) })) s)

end Sys2Proof.Machine
end

