-- ==== Sys2Proof/Machine/DebugStop.lean ====
section
/-! DEFINITION. The start of a debug stop (R344, R345, R347-R350): a hit group, and the stop broadcast to the other groups
of its unit. -/

namespace Sys2Proof.Machine

open Sys2Proof

/-- CORE.DBGCTL[slot].EN of the slot a group runs in (R343, R356). -/
def dbgEnabled (s : State) (x : Group) : Bool := bitN (rdReg s (.dbgctl x.core x.slot)) 63

/-- The domain slot of a core that holds a domain identifier (R279). -/
def slotOfDom (s : State) (core dom : Nat) : Option Nat :=
  (List.range 8).find? (fun k => slotState s core k != 0 && domDom (rdReg s (.domtab core k)) == dom)

/-- CORE.DBGSTAT of the slot where a unit is homed shows a new stop (R353); a further hit of the same stop changes nothing. -/
def dbgStatStop (s : State) (u : DUnit) (kind : Nat) (first : Bool) : State :=
  if !first then s
  else match slotOfDom s u.home u.dom with
  | none => s
  | some k => wrReg s (.dbgstat u.home k) (2 ^ 63 + kind * 2 ^ 60 + u.lid * 2 ^ 44 + u.unitidx * 2 ^ 20)

/-- CORE.DBGSTAT no longer shows a unit as stopped; STOP stays while another unit of the slot is (R353). -/
def dbgStatClear (s : State) (u : DUnit) : State :=
  match slotOfDom s u.home u.dom with
  | none => s
  | some k => wrReg s (.dbgstat u.home k) (setFld (rdReg s (.dbgstat u.home k)) 63 63
      (if s.units.any (fun w => w.uid != u.uid && w.home == u.home && w.dom == u.dom && w.dbgSrc != 0) then 1 else 0))

/-- The stop broadcast of a debug stop reaches a unit's groups after the delays (R349, R350); `src` is the DBGSRC of the
unit's first stop. -/
def dbgBroadcast (s : State) (u : DUnit) (core : Nat) (except : Option Nat) (src : Nat) : State :=
  modUnit s u.uid (fun w => { w with
    dbgSrc := if w.dbgSrc = 0 then src else w.dbgSrc
    groups := w.groups.map (fun y => if y.ended || some y.gidx == except || y.dbg.mode != 0 || y.stopAt.isSome || y.trap.any (fun t => t.dbg != 0) then y
      else let at1 := cyclesOn s core y.core (bcastDelay core y.core)
        { y with stopAt := some (at1.1, at1.2, 2) }) })

/-- A debug stop joins a trap (R356): a frame already written is written again, with DBGSRC. -/
def Trap.stopped (t : Trap) (src clk : Nat) (rep : Option Report) : Trap :=
  { (if t.frame = 0 then t else t.again clk) with dbg := src, rep := rep }

/-- The word of the breakpoint of a hit (R355): the offset, or none for another kind. -/
def brkWord (kind : Nat) (c : Cond) : Option Nat := if kind = 1 then some (4 * c.widx) else none

/-- A group is hit (R348): its debug stop starts, beside a trap of the same clock (R356), and the broadcast is raised. A
unit in checked mode and a group already stopped are not stopped (R347, R356); a hit in a step ends the step (R354). (DEDUCED, log 84) -/
def hitGroup (s : State) (uid g : Nat) (c : Cond) (kind n : Nat) (rep : Option Report) : State :=
  match unitOf s uid, groupOf s uid g with
  | some u, some x =>
    if u.chk || u.cancel != 0 || !dbgEnabled s x || x.ended || x.dbg.mode == 1 || x.dbg.mode == 2 ||
      x.trap.any (fun t => t.dbg != 0 || (t.fatal && t.frame != 0)) then s
    else
      let src := if x.dbg.mode = 3 then 128 + 16 * 4 else 128 + 16 * kind + n
      let s1 := modGroup s uid g (fun y => { y with
        stopAt := none
        dbg := { y.dbg with brk := brkWord kind c }
        trap := some (match y.trap with
          | none => ⟨c, false, 0, false, src, 0, rep, clkOf s x.core, false, false⟩
          | some t => t.stopped src (clkOf s x.core) rep) })
      if x.dbg.mode = 3 then dbgStatStop s1 u 4 true else dbgBroadcast (dbgStatStop s1 u kind (u.dbgSrc == 0)) u x.core (some g) (src % 128)
  | _, _ => s

/-- The debug condition of a group's word (R351). -/
def debugCond (s : State) (x : Group) (widx : Nat) (sparw word : Word) (addr : Nat) (lmask pmask : List Nat) (async group : Bool) : Cond :=
  { cause := 0x30, detail := 2, kind := if async then .async else .sync, widx := widx, sparw := sparw, word := word, addr := addr,
    group := group, fetch := false, lmask := lmask, pmask := pmask, taddr := [], clk := clkOf s x.core, time := timeOf s x.core,
    cls := 9, more := false }

end Sys2Proof.Machine
end

