-- ==== Sys2Proof/Machine/Rings.lean ====
section
/-! DEFINITION. Sample rings (R262, R263, R296): a record is reserved, written, or dropped. -/

namespace Sys2Proof.Machine

open Sys2Proof

/-- The base of a slot's ring and its number of records (R262). -/
def ringBase (v : Nat) : Nat := fld v 116 61
def ringSize (v : Nat) : Nat := 2 ^ (fld v 120 117 + 6)

/-- The ring lies in translated device memory of the core's die or in host memory (R263). -/
def ringPa (s : State) (core slot va : Nat) (w : Bool) : Option Nat :=
  match vlocOf va with
  | .mapped => match memCheck s core (domAsid (rdReg s (.domtab core slot))) (if w then .engWrite else .engRead) false va 8 with
    | .ok pa => some pa
    | .error _ => none
  | _ => none

/-- A ring whose place breaks R263 is closed and reported to the die controller's firmware (R296). -/
def closeRing (s : State) (core slot : Nat) : State :=
  let s1 := wrReg s (.sring core slot) (setFld (rdReg s (.sring core slot)) 127 127 0)
  { s1 with hub := { s1.hub with reports := s1.hub.reports ++ [(dieOfCore core, 5)] } }

/-- Bytes of a slot's ring perform at HOME, as an engine's write (R97, R188, R263). -/
def ringPut (s : State) (core slot pa : Nat) (bs : List Byte) : State :=
  wakeMwait (memWriteNow s (domDom (rdReg s (.domtab core slot))) pa bs) none pa bs.length

/-- A record for the ring of a slot (R263): written at its place, or counted in LOST when the ring or the core's record
buffer is full. A ring whose place breaks R263 is closed (R296). (DESIGN CHOICE, log 102) -/
def ringRecord (s : State) (core slot : Nat) (bs : List Byte) : State :=
  let v := rdReg s (.sring core slot)
  if !bitN v 127 then s
  else
    let wr := ((coreOf s core).ringWr[slot]?).getD 0
    let place := ringBase v + 64 + 32 * (wr % ringSize v)
    match ringPa s core slot (ringBase v + 8) false, ringPa s core slot (ringBase v + 16) true, ringPa s core slot place true with
    | some rd, some lost, some pa =>
      if wr - natOfBytes (homeRead s rd 8) ≥ ringSize v ∨ (coreOf s core).ringRecs.length ≥ 32
      then ringPut s core slot lost (bytesOfNat 8 (natOfBytes (homeRead s lost 8) + 1))
      else modCore (ringPut s core slot pa bs) core (fun c => { c with ringWr := setAt c.ringWr slot (wr + 1), ringRecs := c.ringRecs ++ [⟨slot, wr⟩] })
    | _, _, _ => closeRing s core slot

/-- RING_WR_ADVANCE (R263): the oldest record of the ring has performed and WR equals its index; a safe die sends nothing (R327). -/
def execRingWrAdvance (core slot : Nat) (s : State) : Host.Outcome State Fault Refusal :=
  .next (match if (dieOf s (dieOfCore core)).safe then none else (coreOf s core).ringRecs.find? (fun r => r.slot == slot) with
    | none => s
    | some r =>
      let v := rdReg s (.sring core slot)
      let s1 := modCore s core (fun c => { c with ringRecs := c.ringRecs.filter (fun q => !(q.slot == slot && q.idx == r.idx)) })
      match ringPa s core slot (ringBase v) true with
      | none => s1
      | some pa => if natOfBytes (homeRead s pa 8) = r.idx then ringPut s1 core slot pa (bytesOfNat 8 (r.idx + 1)) else s)

/-- A mark record (R272). -/
def markRecord (s : State) (x : Group) (u : DUnit) (v : Word) : List Byte :=
  bytesOfNat 1 3 ++ bytesOfNat 1 0 ++ bytesOfNat 1 x.part ++ bytesOfNat 1 x.core ++ bytesOfNat 2 x.dom ++ bytesOfNat 2 x.gidx ++
  bytesOfNat 8 (issueVa s x) ++ bytesOfNat 8 (timeOf s x.core) ++ bytesOfNat 4 v.toNat ++ bytesOfNat 2 u.lid ++ bytesOfNat 2 0

end Sys2Proof.Machine
end

