-- ==== Sys2Proof/Machine/Control.lean ====
section
/-! DEFINITION. Control words (R165-R168), selection, identity, indexing and system words (R175-R178), the spar (R120), and
the illegal word (R126, R293). -/

namespace Sys2Proof.Machine

open Sys2Proof

/-- The target of a J word, as a kernel offset that may lie outside (R119, R165). -/
def jTarget (s : State) (off : BitVec 18) : Int := Int.ofNat (wordOff s) + 4 * off.toInt

/-- The offset lies outside the kernel's words (R292 CTRL 1). -/
def outside (x : Group) (o : Int) : Bool := decide (o < 0) || decide (o ≥ 4 * Int.ofNat x.kernel.nwords)

/-- The virtual address of a target, modulo 2^64 (R373). -/
def targetVa (x : Group) (o : Int) : Nat := wrapN 64 (Int.ofNat (entryVa x.kernel) + o)

/-- A lane-set branch (R165): each thread for itself; `taken` by its A. -/
def branchWord (i : Instr) (off : BitVec 18) (taken : Word → Bool) (s : State) : State :=
  let go := fun (x : Group) t => taken (valA x t s.iss.spar i 0)
  laneWord i (fun x t => if go x t && outside x (jTarget s off) then [(0x05, 1)] else [])
    (fun s x _ cd => if cd.1 = 0x05 then targetVa x (jTarget s off) else issueVa s x)
    (fun uid x ok s => advance (beginWord s i uid x.gidx ok false [] s.seq) uid x.gidx ok
      (fun t => if go x t then (jTarget s off).toNat else nextOff s) (go x)) s

/-- `brz` (R165). -/
def execBrz (a : BitVec 7) (off : BitVec 18) (s : State) : Host.Outcome State Fault Refusal :=
  .next (branchWord (.brz a off) off (fun v => v == 0) s)

/-- `brnz` (R165). -/
def execBrnz (a : BitVec 7) (off : BitVec 18) (s : State) : Host.Outcome State Fault Refusal :=
  .next (branchWord (.brnz a off) off (fun v => v != 0) s)

/-- `jmp` (R166): every thread transfers; a link name receives the kernel offset of the word after it. -/
def jumpWord (i : Instr) (off : BitVec 18) (s : State) : State :=
  laneWord i (fun x _ => if outside x (jTarget s off) then [(0x05, 1)] else [])
    (fun s x _ cd => if cd.1 = 0x05 then targetVa x (jTarget s off) else issueVa s x)
    (fun uid x ok s =>
      let id := s.seq
      let dsts := outsOf s.iss.spar i
      let s1 := beginWord { s with seq := id + 1 } i uid x.gidx ok false dsts id
      let s2 := if dsts.isEmpty then s1 else pushPend s1 x.core
        ⟨id, uid, x.gidx, .lane, ok.flatMap (fun t => dsts.map (fun d => (t, d.2, [BitVec.ofNat 32 (nextOff s)]))), s.iss.clk + 2⟩
      advance s2 uid x.gidx ok (fun _ => (jTarget s off).toNat) (fun _ => true)) s

/-- `jmp` whose field a is 0: a link name only by the spar's extension (R121, R166). -/
def execJmp (off : BitVec 18) (s : State) : Host.Outcome State Fault Refusal := .next (jumpWord (.jmp off) off s)

/-- `jmp` with a link name (R166). -/
def execJmpLink (a : BitVec 7) (off : BitVec 18) (s : State) : Host.Outcome State Fault Refusal := .next (jumpWord (.jmpLink a off) off s)

/-- `ctl.jr` (R167): to kernel entry plus A. -/
def execCtlJr (a : BitVec 7) (s : State) : Host.Outcome State Fault Refusal :=
  .next (
    let i : Instr := .ctlJr a
    let v := fun (x : Group) t => (valA x t s.iss.spar i 0).toNat
    laneWord i (fun x t => (if v x t ≥ 4 * x.kernel.nwords then [(0x05, 1)] else []) ++ (if v x t % 4 ≠ 0 then [(0x05, 2)] else []))
      (fun s x t cd => if cd.1 = 0x05 then targetVa x (Int.ofNat (v x t)) else issueVa s x)
      (fun uid x ok s => advance (beginWord s i uid x.gidx ok false [] s.seq) uid x.gidx ok (v x) (fun _ => true)) s)

/-- `ctl.exit` (R31, R168). -/
def execCtlExit (s : State) : Host.Outcome State Fault Refusal :=
  .next (laneWord .ctlExit noDyn addrWord (fun uid x ok s =>
    exitThreads uid x ok (beginWord s .ctlExit uid x.gidx ok false [] s.seq)) s)

/-- `sel` (R175). -/
def execSel (d : BitVec 7) (a : BitVec 7) (b : BitVec 7) (s : State) : Host.Outcome State Fault Refusal :=
  .next (laneDAB (.sel d a b) 2 (fun _ _ d a b => if d ≠ 0 then a else b) s)

/-- The value of an `sr` selector (R27, R176, R259). -/
def srValue (s : State) (u : DUnit) (x : Group) (t sel : Nat) : Nat :=
  let c := coreOf s x.core
  if sel = 0 then t
  else if sel = 1 then (x.base + t) % 32
  else if sel = 2 then x.gidx
  else if sel = 3 then x.width
  else if sel = 4 then u.unitidx
  else if sel = 5 then u.usize
  else if sel = 6 then x.core
  else if sel = 7 then u.dom
  else if sel = 8 then c.clk % 2 ^ 32
  else if sel = 9 then c.clk / 2 ^ 32 % 2 ^ 32
  else if sel = 10 then (c.rtmr[x.slot]?).getD 0 % 2 ^ 32
  else if sel = 11 then timeOf s x.core % 2 ^ 32
  else timeOf s x.core / 2 ^ 32 % 2 ^ 32

/-- `sr` (R176). -/
def execSr (d : BitVec 7) (b : BitVec 7) (s : State) : Host.Outcome State Fault Refusal :=
  .next (laneResult (.sr d b) 2 (fun s x _ t => [BitVec.ofNat 32 (match issUnit s with | none => 0 | some u => srValue s u x t b.toNat)]) s)

/-- `ix.rd` (R177): the indexed entry is read and counted, then the destination is written. -/
def execIxRd (d : BitVec 7) (a : BitVec 7) (b : BitVec 7) (s : State) : Host.Outcome State Fault Refusal :=
  .next (
    let i : Instr := .ixRd d a b
    laneWord i noDyn addrWord (fun uid x ok s =>
      let s1 := modGroup s uid x.gidx (fun y => ok.foldl (fun y t => match ixName x t s.iss.spar i with
        | none => y
        | some n => readName y .lane n [t]) y)
      writeResult i 2 (fun s x _ t => [match ixName x t s.iss.spar i with | none => 0 | some n => valOf x .lane n t]) uid x ok s1) s)

/-- `ix.wr` (R177): each thread writes D to its own indexed name, which is bound at the write. -/
def execIxWr (d : BitVec 7) (a : BitVec 7) (b : BitVec 7) (s : State) : Host.Outcome State Fault Refusal :=
  .next (
    let i : Instr := .ixWr d a b
    laneWord i noDyn addrWord (fun uid x ok s =>
      let id := s.seq
      let ns := ok.filterMap (fun t => (ixName x t s.iss.spar i).map (fun n => (t, n)))
      let s1 := beginWord { s with seq := id + 1 } i uid x.gidx ok false [] id
      let ops := (opnds s.iss.spar i).map (fun o => (o.cls, o.num)) ++ ns.map (fun tn => (NClass.lane, tn.2))
      let s2 := (nub (ns.map (·.2))).foldl (fun s n => journalNames (bindAtWrite s uid x.gidx .lane n ops) uid x.gidx ok [(.lane, n)]) s1
      let s3 := modGroup s2 uid x.gidx (fun y => ns.foldl (fun y tn => beginWrite y .lane tn.2 s.iss.spar.cc id [tn.1]) y)
      let s4 := pushPend s3 x.core ⟨id, uid, x.gidx, .lane, ns.map (fun tn => (tn.1, tn.2, [valD x tn.1 s.iss.spar i 0])), s.iss.clk + 2⟩
      advanceNext s4 uid x.gidx ok) s)

/-- `sys.nop` (R178). -/
def execSysNop (s : State) : Host.Outcome State Fault Refusal :=
  .next (laneWord .sysNop noDyn addrWord (fun uid x ok s => advanceNext (beginWord s .sysNop uid x.gidx ok false [] s.seq) uid x.gidx ok) s)

/-- `sys.brk` (R178, R345): a nop that stops its group when breakpoints are enabled. -/
def execSysBrk (b : BitVec 7) (s : State) : Host.Outcome State Fault Refusal :=
  .next (laneWord (.sysBrk b) noDyn addrWord (fun uid x ok s =>
    let s1 := advanceNext (beginWord s (.sysBrk b) uid x.gidx ok false [] s.seq) uid x.gidx ok
    hitGroup s1 uid x.gidx (debugCond s x (s.iss.off / 4) s.iss.sparw s.iss.word 0 (liveTids x) ok false false) 3 0 none) s)

/-- `sys.trap` (R178): the software cause with code b. -/
def execSysTrap (b : BitVec 7) (s : State) : Host.Outcome State Fault Refusal :=
  .next (laneWord (.sysTrap b) (fun _ _ => [(0x07, b.toNat)]) addrWord (fun _ _ _ s => s) s)

/-- `spar` (R120-R122): its fields stand for the word that follows it in the same issue. -/
def execSpar (cc dx ax bx : BitVec 4) (ta tb : BitVec 1) (q : BitVec 3) (o : BitVec 2) (s : State) : Host.Outcome State Fault Refusal :=
  .next { s with iss := { s.iss with
    spar := ⟨true, cc.toNat, dx.toNat, ax.toNat, bx.toNat, ta.toNat == 1, tb.toNat == 1, q.toNat, o.toNat⟩
    sparw := BitVec.ofNat 32 ((encode (.spar cc dx ax bx ta tb q o)).getD 0) } }

/-- The spar of the issue has bits [1:0] that are not 0 (R120, R293). (DEDUCED, log 9) -/
def sparBroken (s : State) : Bool := fld s.iss.sparw.toNat 1 0 != 0

/-- The DETAIL of an illegal word (R126, R293), the lowest that it and its spar meet: of the word's own bits; 6 or 7 behind
a spar with bits [1:0]; 7 or 8 a spar after a spar, 9 a spar as the last word. -/
def wordDetail (s : State) (w : Word) : Option Nat :=
  match decode w.toNat with
  | .error e => some e.detail
  | .ok i =>
    if sparBroken s then some ((illegalOf s.iss.spar i).getD 7)
    else match i with
      | .spar _ _ _ _ _ _ _ _ => if s.iss.spar.present then (if sparOk s.iss.spar i then some 8 else some 7) else some 9
      | _ => none

/-- ILLEGAL_WORD (R126, R293): the threads of the issue trap with ILLEGAL; of a group-set word, every non-exited thread. -/
def execIllegalWord (w : Word) (s : State) : Host.Outcome State Fault Refusal :=
  .next (match wordDetail s w with
    | none => s
    | some d => s.iss.sets.foldl (fun s gt => match groupOf s s.iss.uid gt.1 with
      | none => s
      | some x =>
        let ts := if w.msb then liveTids x else gt.2
        raiseSync s s.iss.uid gt.1 w.msb false ts (ts.map (fun t => (t, (0x01, d)))) (fun _ _ => issueVa s x) (fun _ _ => [])) s)

end Sys2Proof.Machine
end

