-- ==== Sys2Proof/Machine/CrossLane.lean ====
section
/-! DEFINITION. The cross-lane words (R162-R164). -/

namespace Sys2Proof.Machine

open Sys2Proof

/-- The issue takes two clocks: a set of a width-64 group with threads of both halves (R37). -/
def twoClocks (s : State) : Bool := s.iss.sets.any (fun g => g.2.any (fun t => decide (t < 32)) && g.2.any (fun t => decide (32 ≤ t)))

/-- The latency of an `xl` or `pl` word (R151). -/
def xlLat (s : State) : Nat := if twoClocks s then 7 else 6

/-- X[0] to X[W-1] of R162: A of each present thread, 0 for the absent ones. -/
def xlVals (s : State) (i : Instr) (x : Group) (ok : List Nat) : List Word :=
  (List.range x.width).map (fun u => if ok.contains u then valA x u s.iss.spar i 0 else 0)

/-- A cross-lane word (R162): each present thread receives a function of X, its own index and its B. (DEDUCED, log 50) -/
def xlWord (i : Instr) (f : Group → List Word → Nat → Word → Word) (s : State) : State :=
  laneResult i (xlLat s) (fun s x ok t => [f x (xlVals s i x ok) t (valB x t s.iss.spar i 0)]) s

/-- The element of a vector, 0 beyond it. -/
def xAt (l : List Word) (u : Nat) : Word := (l[u]?).getD 0

/-- The bits of a ballot from thread index `lo` on (R163). -/
def ballot (l : List Word) (lo : Nat) : Word :=
  BitVec.ofNat 32 (maskOf ((List.range 32).filter (fun u => xAt l (lo + u) != 0)))

/-- The sum modulo 2^32. -/
def sumW (l : List Word) : Word := l.foldl (· + ·) 0

/-- The rounding mode and FTZ of the group's sum tree (R113). -/
def redMode (s : State) (x : Group) : Nat := if 1 ≤ s.iss.spar.q ∧ s.iss.spar.q ≤ 4 then s.iss.spar.q else x.fmode.toNat % 8

/-- `xl.shfl` (R163). -/
def execXlShfl (d : BitVec 7) (a : BitVec 7) (b : BitVec 7) (s : State) : Host.Outcome State Fault Refusal :=
  .next (xlWord (.xlShfl d a b) (fun x l _ b => xAt l (b.toNat % x.width)) s)

/-- `xl.shflx` (R163). -/
def execXlShflx (d : BitVec 7) (a : BitVec 7) (b : BitVec 7) (s : State) : Host.Outcome State Fault Refusal :=
  .next (xlWord (.xlShflx d a b) (fun x l t b => xAt l (t ^^^ (b.toNat % x.width))) s)

/-- `xl.any` (R163). -/
def execXlAny (d : BitVec 7) (a : BitVec 7) (s : State) : Host.Outcome State Fault Refusal :=
  .next (xlWord (.xlAny d a) (fun _ l _ _ => ofBool (l.any (fun v => v != 0))) s)

/-- `xl.all` (R163). -/
def execXlAll (d : BitVec 7) (a : BitVec 7) (s : State) : Host.Outcome State Fault Refusal :=
  .next (xlWord (.xlAll d a) (fun _ l _ _ => ofBool (l.all (fun v => v != 0))) s)

/-- `xl.ballotl` (R163). -/
def execXlBallotl (d : BitVec 7) (a : BitVec 7) (s : State) : Host.Outcome State Fault Refusal :=
  .next (xlWord (.xlBallotl d a) (fun _ l _ _ => ballot l 0) s)

/-- `xl.ballh` (R163). -/
def execXlBallh (d : BitVec 7) (a : BitVec 7) (s : State) : Host.Outcome State Fault Refusal :=
  .next (xlWord (.xlBallh d a) (fun _ l _ _ => ballot l 32) s)

/-- `xl.scan` (R163). -/
def execXlScan (d : BitVec 7) (a : BitVec 7) (s : State) : Host.Outcome State Fault Refusal :=
  .next (xlWord (.xlScan d a) (fun _ l t _ => sumW (l.take t)) s)

/-- `xl.red` (R163). -/
def execXlRed (d : BitVec 7) (a : BitVec 7) (s : State) : Host.Outcome State Fault Refusal :=
  .next (xlWord (.xlRed d a) (fun _ l _ _ => sumW l) s)

/-- `xl.redmax` (R163). -/
def execXlRedmax (d : BitVec 7) (a : BitVec 7) (s : State) : Host.Outcome State Fault Refusal :=
  .next (xlWord (.xlRedmax d a) (fun _ l _ _ => (l.drop 1).foldl maxS (xAt l 0)) s)

/-- `xl.fred` (R113). -/
def execXlFred (d : BitVec 7) (a : BitVec 7) (s : State) : Host.Outcome State Fault Refusal :=
  .next (xlWord (.xlFred d a) (fun x l _ _ => BitVec.ofNat 32 (treeFold (fAdd f32 (redMode s x) (bitN x.fmode.toNat 3)) 6 (l.map BitVec.toNat))) s)

/-- `xl.fredmax` (R113). -/
def execXlFredmax (d : BitVec 7) (a : BitVec 7) (s : State) : Host.Outcome State Fault Refusal :=
  .next (xlWord (.xlFredmax d a) (fun _ l _ _ => BitVec.ofNat 32 (treeFold (fMinMax f32 true) 6 (l.map BitVec.toNat))) s)

/-- `xl.match` (R163). -/
def execXlMatch (d : BitVec 7) (a : BitVec 7) (s : State) : Host.Outcome State Fault Refusal :=
  .next (xlWord (.xlMatch d a) (fun x l t _ => BitVec.ofNat 32 (((List.range x.width).find? (fun u => xAt l u == xAt l t)).getD t)) s)

/-- `xl.popc` (R163). -/
def execXlPopc (d : BitVec 7) (a : BitVec 7) (s : State) : Host.Outcome State Fault Refusal :=
  .next (xlWord (.xlPopc d a) (fun _ l _ _ => BitVec.ofNat 32 (l.filter (fun v => v != 0)).length) s)

end Sys2Proof.Machine
end

