-- ==== Sys2Proof/Machine/Perm.lean ====
section
/-! DEFINITION. Permutation registers (R216-R220): the twelve words of the saved form, the map a register stands for, and
the looping algorithm that routes a map. -/

namespace Sys2Proof.Machine

open Sys2Proof

/-- The size code of a register (R219). -/
def permCode (ws : List Word) : Nat := ((ws[11]?).getD 0).toNat % 4

/-- The size N of a register (R216). -/
def permSize (ws : List Word) : Nat := 8 * 2 ^ permCode ws

/-- The setting of a switch (R219). -/
def permBit (ws : List Word) (stage sw : Nat) : Bool := bitN ((ws[stage]?).getD 0).toNat sw

/-- The saved form has zeros where R219 requires them. -/
def permOk (ws : List Word) : Bool :=
  let n := permCode ws + 3
  decide (((ws[11]?).getD 0).toNat < 4) &&
  (List.range 11).all (fun s => decide (((ws[s]?).getD 0).toNat < (if s < 2 * n - 1 then 2 ^ 2 ^ (n - 1) else 1)))

/-- The first byte of a saved form with a bit that R219 requires to be 0. -/
def permBadByte (ws : List Word) : Nat :=
  let n := permCode ws + 3
  let bad := fun (i : Nat) =>
    let b := ((ws[i / 4]?).getD 0).toNat / 256 ^ (i % 4) % 256
    let most := if i < 44 then (if i / 4 < 2 * n - 1 then 2 ^ 2 ^ (n - 1) else 1) / 256 ^ (i % 4) else if i = 44 then 4 else 1
    decide (Nat.max 1 most ≤ b)
  ((List.range 48).find? bad).getD 0

/-- Follows an output back to its input through the subnetwork of 2^n at depth l with index m (R217), in a network whose
last stage is `last`. -/
def permBack (ws : List Word) (last : Nat) : Nat → Nat → Nat → Nat → Nat
  | 0, _, _, out => out
  | 1, l, m, out => if permBit ws l m then 1 - out else out
  | n + 2, l, m, out =>
    let half := 2 ^ (n + 1)
    let side := if permBit ws (last - l) (m * half + out / 2) then 1 - out % 2 else out % 2
    let k := permBack ws last (n + 1) (l + 1) (2 * m + side) (out / 2)
    2 * k + (if permBit ws l (m * half + k) then 1 - side else side)

/-- The map s of a register (R218). -/
def permMap (ws : List Word) : List Nat :=
  let n := permCode ws + 3
  (List.range (permSize ws)).map (fun i => permBack ws (2 * n - 2) n 0 0 i)

/-- The value of a map at an index. -/
def pAt (s : List Nat) (i : Nat) : Nat := (s[i]?).getD 0

/-- The inverse of a map at a value. -/
def pInv (s : List Nat) (v : Nat) : Nat := s.findIdx (fun x => x == v)

/-- The sides of the looping algorithm (R220): `cur` is the input reached in the inner loop; false is upper. -/
def permSides (pi : List Nat) : Nat → List (Option Bool) → Option Nat → List (Option Bool)
  | 0, sides, _ => sides
  | fuel + 1, sides, none =>
    let x := sides.findIdx (·.isNone)
    if x < sides.length then permSides pi fuel sides (some x) else sides
  | fuel + 1, sides, some x =>
    let x2 := pInv pi (pAt pi x ^^^ 1)
    let sides' := setAt (setAt sides x (some false)) x2 (some true)
    let x3 := x2 ^^^ 1
    if (sides'[x3]?).getD none |>.isSome then permSides pi fuel sides' none else permSides pi fuel sides' (some x3)

/-- The crossed switches that the procedure of R220 sets for a map of 2^n inputs, as (stage, switch). -/
def permRoute (last : Nat) : Nat → Nat → Nat → List Nat → List (Nat × Nat)
  | 0, _, _, _ => []
  | 1, l, m, pi => if pAt pi 0 = 1 then [(l, m)] else []
  | n + 2, l, m, pi =>
    let half := 2 ^ (n + 1)
    let sides := permSides pi (4 * half + 2) (List.replicate (2 * half) none) none
    let low := fun x => (sides[x]?).getD none == some true
    let sub := fun (b : Bool) => (List.range half).map (fun w =>
      let x := if low (2 * w) == b then 2 * w else 2 * w + 1
      pAt pi x / 2)
    ((List.range half).filter (fun w => low (2 * w))).map (fun w => (l, m * half + w)) ++
    ((List.range half).filter (fun w => low (pInv pi (2 * w)))).map (fun w => (last - l, m * half + w)) ++
    permRoute last (n + 1) (l + 1) (2 * m) (sub false) ++ permRoute last (n + 1) (l + 1) (2 * m + 1) (sub true)

/-- The saved form of settings and a size code (R219). -/
def permWords (code : Nat) (crossed : List (Nat × Nat)) : List Word :=
  (List.range 11).map (fun s => BitVec.ofNat 32 ((crossed.filter (fun c => c.1 == s)).foldl (fun a c => a + 2 ^ c.2) 0)) ++ [BitVec.ofNat 32 code]

/-- The register that the route solver makes of a map s of size 8·2^code (R220). -/
def permOf (code : Nat) (s : List Nat) : List Word :=
  let n := code + 3
  permWords code (permRoute (2 * n - 2) n 0 0 ((List.range (2 ^ n)).map (fun i => pInv s i)))

/-- The identity of a size (R218, R224). -/
def permIdent (code : Nat) : List Word := permWords code []

/-- The inverse by reversed stages (R224). -/
def permInverse (ws : List Word) : List Word :=
  let last := 2 * (permCode ws + 3) - 2
  (List.range 11).map (fun s => if s ≤ last then (ws[last - s]?).getD 0 else (ws[s]?).getD 0) ++ [(ws[11]?).getD 0]

/-- The cycle of a map that holds t, from t on. -/
def permCycle (s : List Nat) : Nat → Nat → Nat → List Nat
  | 0, _, _ => []
  | fuel + 1, t, u => if pAt s u = t then [u] else u :: permCycle s fuel t (pAt s u)

/-- The cycle that holds t. -/
def cycleOf (s : List Nat) (t : Nat) : List Nat := permCycle s s.length t t

/-- The number of cycles (R227). -/
def cycleCount (s : List Nat) : Nat := ((List.range s.length).filter (fun t => minOf (cycleOf s t) == some t)).length

/-- The shuffle of R226: v, i descending, and the xorshift state. -/
def permShuffle : Nat → List Nat → BitVec 64 → List Nat × BitVec 64
  | 0, v, x => (v, x)
  | i + 1, v, x =>
    let x' := xorshift x
    let j := x'.toNat * (i + 2) / 2 ^ 64
    permShuffle i (setAt (setAt v (i + 1) (pAt v j)) j (pAt v (i + 1))) x'

/-- `pm.rand`'s map and new state (R226). -/
def permRand (code : Nat) (x : BitVec 64) : List Nat × BitVec 64 :=
  let n := 8 * 2 ^ code
  permShuffle (n - 1) (List.range n) (if x = 0 then 0x9E3779B97F4A7C15#64 else x)

/-- Numbers below `n` that a list does not hold, ascending. -/
def missing (n : Nat) (l : List Nat) : List Nat := (List.range n).filter (fun v => !l.contains v)

/-- The vector of `pm.load` (R223): the exited threads, ascending, take the values that no other thread holds. -/
def loadVec (n : Nat) (vec : List (Nat × Word)) : List Nat → List Nat → List Nat
  | [], _ => []
  | t :: ts, free =>
    match vec.find? (fun v => v.1 == t) with
    | some v => v.2.toNat :: loadVec n vec ts free
    | none => free.headD 0 :: loadVec n vec ts (free.drop 1)

end Sys2Proof.Machine
end

