-- ==== Sys2Proof/Machine/Spill.lean ====
section
/-! DEFINITION. The spill engine (R60, R61, R64, R65, R316, R340, R371): fills, write-throughs, and the write-outs
of a rebinding. -/

namespace Sys2Proof.Machine

open Sys2Proof

/-- Writes words to slots one after another, each checked as a store (R371). -/
def spillPut (core dom asid : Nat) : List (Nat × Word) → State → Except ((Nat × Nat) × Nat) State
  | [], s => .ok s
  | (va, w) :: l, s => match memCheck s core asid .store false va 4 with
    | .error e => .error (e, va)
    | .ok pa => spillPut core dom asid l (memWriteNow s dom pa (bytesOfNat 4 w.toNat))

/-- Slots that are to be read come through the L2: `false` while a transfer is still to bring one (R80, R361, R363). -/
def spillFetch (core dom asid : Nat) (vas : List Nat) (s : State) : State × Bool :=
  vas.foldl (fun q va => match memCheck q.1 core asid .store false va 4 with
    | .error _ => q
    | .ok pa => let r := l2Read q.1 dom pa 4
      (r.1, q.2 && r.2)) (s, true)

/-- An aligned block that is to be read comes through the L2: `false` while a transfer is still to bring some of it (R80, R361). -/
def blockFetch (core dom asid va n : Nat) (s : State) : State × Bool :=
  match memCheck s core asid .store false va n with
  | .error _ => (s, true)
  | .ok pa => l2Read s dom pa n

/-- Reads words from slots, each checked for a page with W = 1 (R371); a poisoned sector stops it (R360). -/
def spillGet (core asid : Nat) (s : State) : List Nat → Except (((Nat × Nat) × Nat) ⊕ Nat) (List Word)
  | [] => .ok []
  | va :: l => match memCheck s core asid .store false va 4 with
    | .error e => .error (.inl (e, va))
    | .ok pa => match poisoned s pa 4 with
      | some sec => .error (.inr sec)
      | none => match spillGet core asid s l with
        | .error e => .error e
        | .ok ws => .ok (wordAt (homeRead s pa 4) 0 :: ws)

/-- The words of some entries of a name that are still to be written to its slots. -/
def pendingWords (va : Nat) (m : NameSt) (ixs : List Nat) : List (Nat × Word) :=
  ((List.range m.entries.length).zip m.entries).flatMap (fun ie =>
    if ie.2.wt = 0 || !ixs.contains ie.1 then [] else ((List.range ie.2.words.length).zip ie.2.words).map (fun kw => (va + slotOff m.cls ie.1 + 4 * kw.1, kw.2)))

/-- An entry whose slot bytes have performed: a write-through sets F (R61). -/
def Entry.flushed (e : Entry) : Entry := if e.wt = 0 then e else { e with wt := 0, full := e.full || (e.wt == 2 && e.q.isEmpty && e.held) }

/-- Some entries of a name changed. -/
def modEntries (m : NameSt) (ixs : List Nat) (f : Entry → Entry) : NameSt :=
  { m with entries := ((List.range m.entries.length).zip m.entries).map (fun ie => if ixs.contains ie.1 then f ie.2 else ie.2) }

/-- The pending words of some entries of a name are written to its slots, or the group meets a fatal condition and the
bytes are lost (R61, R371). -/
def flushIxs (s : State) (uid g level : Nat) (c : NClass) (n : Nat) (ixs : List Nat) : State :=
  match unitOf s uid, groupOf s uid g with
  | some u, some x => match levelName x level c n with
    | none => s
    | some m => match slotVa u x m with
      | none => s
      | some va =>
        let on := fun (s : State) (f : Entry → Entry) => modGroup s uid g (fun y => modLevelName y level c n (fun k => modEntries k ixs f))
        match spillPut x.core (levelDom x (nameLevel x m)) (levelAsid x (nameLevel x m)) (pendingWords va m ixs) s with
        | .ok s' => on s' Entry.flushed
        | .error e => startTrap (on s (fun e => { e with wt := 0 })) uid g (spillCond s x e.1 e.2) true
  | _, _ => s

/-- The pending words of a name are written to its slots (R61). -/
def flushName (s : State) (uid g level : Nat) (c : NClass) (n : Nat) : State :=
  flushIxs s uid g level c n (List.range ((((groupOf s uid g).bind (fun x => levelName x level c n)).map (fun m => m.entries.length)).getD 0))

/-- One place of the queue of claimed rows is written out (R47). -/
def flushItem (s : State) (i : OutItem) : State :=
  match groupOf s i.uid i.g with
  | none => s
  | some x => flushIxs s i.uid i.g (x.gstack.length - i.depth) i.cls i.num i.ixs

/-- The queue of claimed rows up to a name's last place in it, and what remains. -/
def outUpTo (p : OutItem → Bool) (q : List OutItem) : List OutItem × List OutItem :=
  let rest := (q.reverse.takeWhile (fun i => !p i)).reverse
  (q.take (q.length - rest.length), rest)

/-- A claimed name's rows are written out, with the rows that stand before them in the order (R47). -/
def drainOut (s : State) (core : Nat) (p : OutItem → Bool) : State :=
  let q := outUpTo p (coreOf s core).outQ
  q.1.foldl flushItem (modCore s core (fun c => { c with outQ := q.2 }))

/-- SPILL_WRITE_THROUGH (R47, R61): the innermost level of the group whose name has words to write; those of a claim go in
the order of R47. -/
def execSpillWriteThrough (uid g : Nat) (cls : NClass) (num : Nat) (s : State) : Host.Outcome State Fault Refusal :=
  .next (match groupOf s uid g with
  | none => s
  | some x => match (levelNames x).find? (fun lm => lm.2.cls == cls && lm.2.num == num && lm.2.slot.isSome && lm.2.entries.any (fun e => e.wt != 0)) with
    | none => s
    | some lm =>
      let mine := fun (i : OutItem) => i.uid == uid && i.g == g && i.cls == cls && i.num == num && i.depth == lm.2.depth
      flushName (if (coreOf s x.core).outQ.any mine then drainOut s x.core mine else s) uid g lm.1 cls num)

/-- A thread stands at a word that reads the name (R48, R61, R65). -/
def wantsName (s : State) (x : Group) (c : NClass) (n : Nat) : Bool :=
  (liveThreads x).any (fun h =>
    let w := wordsAtOff s x h.off
    match decode w.2.toNat with
    | .error _ => false
    | .ok i =>
      let sp := if w.1 == 0 then noSpar else sparOfWord w.1.toNat
      ((opnds sp i).filter (·.rd)).any (fun o => o.cls == c && o.num == n) || (c == .lane && ixName x h.tid sp i == some n))

/-- The staging places of a class in a partition (R61). -/
def stagingCap (c : NClass) : Nat :=
  match c with
  | .lane => 8
  | .uniform => 4
  | .perm => 2
  | .acc => 2

/-- A name takes a staging place, the least recently used of its class making room (R61). -/
def takeStaging (s : State) (core part uid g : Nat) (c : NClass) (n : Nat) : State :=
  let l := ((partOf (coreOf s core) part).staging).filter (fun p => !(p.1 == uid && p.2.1 == g && p.2.2.1 == c && p.2.2.2 == n))
  let same := l.filter (fun p => p.2.2.1 == c)
  let out := same.take (same.length + 1 - stagingCap c)
  let s1 := out.foldl (fun s p => modGroup s p.1 p.2.1 (fun x => modName x p.2.2.1 p.2.2.2 (fun m =>
    { m with staged := false, entries := m.entries.map (fun e => if e.held then { e with inSlot := true } else e) }))) s
  modPart s1 core part (fun p => { p with staging := l.filter (fun q => !out.contains q) ++ [(uid, g, c, n)] })

/-- The entries that a fill delivers, with their slot addresses. -/
def fillEntries (va : Nat) (m : NameSt) : List (Nat × List Nat) :=
  ((List.range m.entries.length).zip m.entries).filterMap (fun ie =>
    if ie.2.inSlot && ie.2.held then some (ie.1, (List.range (entWords m.cls)).map (fun k => va + slotOff m.cls ie.1 + 4 * k)) else none)

/-- Fills a name's entries from its slots (R48, R61, R65, R371); `staged` says where they go. -/
def fillName (s : State) (u : DUnit) (x : Group) (m : NameSt) (staged : Bool) : State :=
  match slotVa u x m with
  | none => s
  | some va =>
    (fillEntries va m).foldl (fun s e =>
      match spillGet x.core (levelAsid x (nameLevel x m)) s e.2 with
      | .error (.inl f) => startTrap s u.uid x.gidx (spillCond s x f.1 f.2) true
      | .error (.inr sec) => consumePoison s u.uid x.gidx sec []
      | .ok ws =>
        let s1 := modGroup s u.uid x.gidx (fun y => modName y m.cls m.num (fun k =>
          { (modEntry k e.1 (fun t => { t with words := ws, inSlot := false })) with staged := staged }))
        if m.cls == .perm && !staged then syncPerm s1 u.uid x.gidx m.num else s1) s

/-- A name's slots come through the L2 for a fill (R80). -/
def fetchName (s : State) (u : DUnit) (x : Group) (m : NameSt) : State × Bool :=
  match slotVa u x m with
  | none => (s, true)
  | some va => spillFetch x.core (levelDom x (nameLevel x m)) (levelAsid x (nameLevel x m)) ((fillEntries va m).flatMap (·.2)) s

/-- A spilled name is filled into a staging place (R61); a tile is filled when its word starts (R214). -/
def fillStaging (s : State) (u : DUnit) (x : Group) (m : NameSt) : State :=
  if m.cls = .acc then s
  else fillName (takeStaging (countEvent s x.core x.part x.dom 11 1) x.core x.part u.uid x.gidx m.cls m.num) u x m true

/-- A name is filled (R48, R61, R65): into its new row, into the lowest free resource of a readmitted name, or into a
staging place. -/
def fillWhere (s : State) (u : DUnit) (x : Group) (cls : NClass) (num : Nat) (m : NameSt) : State :=
  if !m.res.isEmpty then fillName s u x m false
  else if m.spilled then fillStaging s u x m
  else match freeRes s x cls false with
    | some r => if quotaLeft s x m.owner cls then fillName (setRes s u.uid x.gidx 0 m.owner cls num r) u x { m with res := r } false
        else fillStaging (markSpilled s u.uid x.gidx 0 cls num) u x m
    | none => fillStaging (markSpilled s u.uid x.gidx 0 cls num) u x m

/-- SPILL_FILL (R48, R61, R65): a name that a standing word reads is filled. (DEDUCED, log 13) -/
def execSpillFill (uid g : Nat) (cls : NClass) (num : Nat) (s : State) : Host.Outcome State Fault Refusal :=
  .next (match unitOf s uid, groupOf s uid g with
  | some u, some x => match nameOf x cls num with
    | none => s
    | some m =>
      if tqHalted s u x || x.pause.isSome || m.slot.isNone || m.entries.any (fun e => e.wt != 0) || !(m.entries.any (fun e => e.inSlot && e.held)) || !wantsName s x cls num
      then s
      else
        let f := fetchName s u x m
        if f.2 then fillWhere f.1 u x cls num m else f.1
  | _, _ => s)

/-- The resources that a name counts for in a pause (R64). -/
def moveCost (x : Group) (c : NClass) : Nat := if c == .lane && x.width == 64 then 2 else 1

/-- The name of a paused group whose resource moves next (R64). -/
def movingName (x : Group) (c : NClass) (n : Nat) : Option (Nat × NameSt) :=
  (levelNames x).find? (fun lm => lm.2.cls == c && lm.2.num == n && lm.2.spilled && !lm.2.res.isEmpty)

/-- A moving resource still has a write outstanding that does not wait in a TQ (R64, R340). -/
def moveBusy (s : State) (x : Group) (uid : Nat) (m : NameSt) : Bool :=
  ((List.range m.entries.length).zip m.entries).any (fun ie => ie.2.q.any (fun id => !inTq (coreOf s x.core) uid x.gidx ie.1 id))

/-- The pause with its next move of `k` resources done at clock `clk`; the later cycles shift by the wait (R64). -/
def Pause.moved (p : Pause) (k clk : Nat) : Pause :=
  let start := Nat.max p.start (clk - (32 + 2 * (p.done + k) - 2))
  { p with moves := p.moves.drop 1, done := p.done + k, start := start, till := Nat.max p.till (start + 32 + 2 * p.n) }

/-- REBIND_WRITE_OUT (R64, R340): the next moving resource of a paused group is written out and released; one whose
write-out fails stays bound (R371). -/
def execRebindWriteOut (uid g : Nat) (s : State) : Host.Outcome State Fault Refusal :=
  .next (match groupOf s uid g with
  | some x => match x.pause with
    | none => s
    | some p => match p.moves with
      | [] => s
      | (c, n) :: _ =>
        let k := moveCost x c
        let clk := clkOf s x.core
        match movingName x c n with
        | none => modGroup s uid g (fun y => { y with pause := y.pause.map (fun q => { q with moves := q.moves.drop 1, done := q.done + k }) })
        | some (level, m) =>
          if clk < p.start + 32 + 2 * (p.done + k) - 2 || moveBusy s x uid m then s
          else
            let s0 := modGroup s uid g (fun y => { y with pause := y.pause.map (fun q => q.moved k clk) })
            match slotFault s0 uid g level c n with
            | some e => writeOutFailed s0 uid g level c n e
            | none => flushName (claimName s0 uid g level c n false) uid g level c n
  | none => s)

/-- A name bound after a pause for want of a slot (R316): what arrived meanwhile stands in the resource. -/
def Entry.settle (e : Entry) : Entry := if e.wt = 0 then e else { e with wt := 0, inSlot := false, full := e.wt == 2 && e.q.isEmpty }

/-- The written names that wait for a resource take those that come free within the quota, in order (R316); one that a rebinding has
spilled meanwhile (R64) waits for none, its value going to its slots. -/
def serveWants (s : State) (uid g : Nat) (x : Group) : List (NClass × Nat) → State
  | [] => modGroup s uid g (fun y => { y with pause := y.pause.map (fun p => { p with wants := [] }) })
  | (c, n) :: l =>
    if (nameOf x c n).any (·.spilled) then serveWants s uid g x l
    else match (if quotaLeft s x x.slot c then freeRes s x c false else none) with
    | none => modGroup s uid g (fun y => { y with pause := y.pause.map (fun p => { p with wants := (c, n) :: l }) })
    | some r => serveWants (modGroup (setRes s uid g 0 x.slot c n r) uid g (fun y => modName y c n (fun m => { m with entries := m.entries.map Entry.settle }))) uid g x l

end Sys2Proof.Machine
end

