-- ==== Sys2Proof/Machine/EngineOps.lean ====
section
/-! DEFINITION. What engines, the array and the solver share: EQ entries (R96, R97), asynchronous conditions (R291, R296),
the unit's buffers (R137), the on-chip map and who owns what stands there (R76, R77), and the reads and writes of an
engine at HOME (R78, R97, R331, R333, R346, R360). -/

namespace Sys2Proof.Machine

open Sys2Proof

/-- An EQ entry of a class (R96). -/
def eqOf (x : Group) (cls id : Nat) : Option EqEntry := ((x.eq[cls]?).getD []).find? (fun e => e.id == id)

/-- An EQ entry changed. -/
def modEq (s : State) (uid g cls id : Nat) (f : EqEntry → EqEntry) : State :=
  modGroup s uid g (fun x => { x with eq := modAt x.eq cls (fun q => q.map (fun e => if e.id == id then f e else e)) })

/-- The entry may start (R97): every older store and atomic of its threads has performed; in a checked unit, those in the
commit buffer count as performed (R331). -/
def depsDone (s : State) (x : Group) (e : EqEntry) : Bool :=
  e.deps.all (fun d =>
    !(x.threads.any (fun h => h.tq.any (fun o => o.id == d) || h.aside.any (fun o => o.id == d))) &&
    !((coreOf s x.core).pool.any (fun p => p.id == d && !p.buffered)))

/-- The debugger holds a group's operations of a class (R198, R348, R349, R354): those of a group stopped in place as in a
halted slot, which lets `mx` words run (R213), and of a swapped-out group all. (DEDUCED, log 71) -/
def debugHeld (x : Group) (cls : Nat) : Bool := x.dbg.mode == 1 || (x.dbg.mode == 2 && cls != 1)

/-- A group's entry of a class may start: its unit goes on, the group is not stopped by the debugger (R198, R349, R354), and
R97 is met. -/
def mayStart (s : State) (uid g cls id : Nat) : Bool :=
  match unitOf s uid, groupOf s uid g with
  | some u, some x => u.cancel == 0 && u.rollPhase == 0 && !debugHeld x cls && (eqOf x cls id).any (fun e => depsDone s x e)
  | _, _ => false

/-- The entry has started. -/
def startEq (s : State) (uid g cls id : Nat) : State := modEq s uid g cls id (fun e => { e with started := true })

/-- The entry has finished (R96). -/
def finEq (s : State) (uid g cls id : Nat) : State := modEq s uid g cls id (fun e => { e with fin := true })

/-- EQ_RETIRE (R96, R347): the head of a class retires when it has finished and no watch report of it is on its way. -/
def execEqRetire (uid g cls : Nat) (s : State) : Host.Outcome State Fault Refusal :=
  .next (match groupOf s uid g with
  | none => s
  | some x => match (x.eq[cls]?).getD [] with
    | [] => s
    | e :: _ =>
      if e.fin && !reportPending s e.id
      then modGroup s uid g (fun y => { y with oc := modAt y.oc cls (fun n => n - 1), eq := modAt y.eq cls (fun q => q.drop 1) })
      else s)

/-- The condition of an operation that ends by itself (R291, R296, R300): its word, issue clock and class. -/
def asyncCond (s : State) (x : Group) (cls : Nat) (e : EqEntry) (cd : Nat × Nat) (addr : Nat) (group : Bool) (lmask pmask : List Nat) : Cond :=
  { cause := cd.1, detail := cd.2, kind := .async, widx := e.widx, sparw := e.sparw, word := e.word, addr := addr, group := group,
    fetch := false, lmask := lmask, pmask := pmask, taddr := [], clk := e.clk, time := timeOf s x.core, cls := cls, more := false }

/-- An operation of a group-set word meets a condition, which its group takes, and finishes (R296). (DEDUCED, log 15) (DEDUCED, log 24) -/
def failOp (s : State) (uid g cls id : Nat) (cd : Nat × Nat) (addr : Nat) : State :=
  match groupOf s uid g with
  | none => s
  | some x => match eqOf x cls id with
    | none => s
    | some e => raiseAsync (finEq s uid g cls id) uid g (asyncCond s x cls e cd addr true (liveTids x) (liveTids x)) false

/-- The buffers of a unit on a core (R63). -/
def bufsOn (u : DUnit) (core : Nat) : List Buffer := u.bufs.filter (fun b => b.core == core)

/-- A range of core-local offsets lies within one buffer of the unit, of the size that its record gives. (DEDUCED, log 124) -/
def inBuf (u : DUnit) (core off n : Nat) : Bool := (bufsOn u core).any (fun b => decide (b.off ≤ off) && decide (off + n ≤ b.off + b.size))

/-- The first of `n` bytes that no buffer of the unit on the core holds. -/
def outsideByte (u : DUnit) (core off n : Nat) : Option Nat :=
  ((List.range n).map (· + off)).find? (fun a => !(inBuf u core a 1))

/-- The address of a die-local place in the on-chip map's aperture (R69). -/
def onChipVa (h : Nat) : Nat := 255 * 2 ^ 48 + 2 ^ 47 + h

/-- The scratchpad aperture address of a core-local offset (R69). -/
def apertureVa (off : Nat) : Nat := 255 * 2 ^ 48 + off

/-- What stands at an on-chip address that R77 admits: the domain identifier it belongs to, and for a pinned resource the
unit, group, name, thread and byte of its entry. -/
structure ChipSite where
  dom : Nat
  ent : Option (Nat × Nat × NClass × Nat × Nat × Nat)
deriving DecidableEq, Repr

/-- The kernel that a group's unit runs, outside its gable calls (R194). -/
def outerKernel (x : Group) : Kernel := ((x.gstack.getLast?).map (·.kernel)).getD x.kernel

/-- The pinned name that holds a resource of a partition. -/
def pinSite (s : State) (core part : Nat) (c : NClass) (n : Nat) (who : Group → NameSt → Option (Nat × Nat)) : Option ChipSite :=
  (groupsAt s core part).findSome? (fun ux => (levelNames ux.2).findSome? (fun lm =>
    if lm.2.cls == c && lm.2.res.contains n && (lm.1 == ux.2.gstack.length || lm.2.shared) && (recOf (outerKernel ux.2) c lm.2.num).any (·.pin) then
      match who ux.2 lm.2, unitOf s ux.1 with
      | some tb, some u => some ⟨u.dom, some (ux.1, ux.2.gidx, c, lm.2.num, tb.1, tb.2)⟩
      | _, _ => none
    else none))

/-- The thread of a group whose entry stands at lane `l` of row `n` of a lane name (R28, R50, R76). -/
def laneTid (x : Group) (m : NameSt) (n l : Nat) : Option Nat :=
  let t := (l + 32 - x.base % 32) % 32
  if Nat.min x.width 32 ≤ t then none
  else some (t + (if x.width = 64 ∧ m.res[1]? = some n then 32 else 0))

/-- What stands at a byte of a die's on-chip map (R76, R77); nothing where no domain has a granule, reservation or pinned
resource. A buffer's domain has its 4 KiB granules whole. (DEDUCED, log 124) -/
def chipSite (s : State) (die h : Nat) : Option ChipSite :=
  let core := die * 28 + h / 2 ^ 27
  let o := h % 2 ^ 27
  if h / 2 ^ 27 ≥ 28 then none
  else if o < 0x300000 then
    s.units.findSome? (fun u => if (bufsOn u core).any (fun b => decide (b.off / 4096 ≤ o / 4096) && decide (o / 4096 < (b.off + b.size + 4095) / 4096))
      then some ⟨u.dom, none⟩ else none)
  else if o < 0x1000000 then none
  else if o < 0x2000000 then
    let p := (o - 0x1000000) / 0x20000
    let r := (o - 0x1000000) % 0x20000
    if p ≥ 12 then none
    else pinSite s core p .acc (r / 2048) (fun _ m => some ((r / 2048 - (minOf m.res).getD 0) * 8 + r % 2048 / 256, r % 256))
  else if o < 0x3000000 then
    let p := (o - 0x2000000) / 0x40000
    let r := (o - 0x2000000) % 0x40000
    if p ≥ 12 ∨ r ≥ 192 * 1024 then none
    else ((partOf (coreOf s core) p).rsvs.find? (fun v => decide (v.start ≤ r / 1024) && decide (r / 1024 < v.start + v.size))).map (fun v => ⟨v.dom, none⟩)
  else if o < 0x4000000 then
    let p := (o - 0x3000000) / 0x10000
    let r := (o - 0x3000000) % 0x10000
    if p ≥ 12 then none else pinSite s core p .lane (r / 128) (fun x m => (laneTid x m (r / 128) (r % 128 / 4)).map (fun t => (t, r % 4)))
  else if o < 0x5000000 then
    let p := (o - 0x4000000) / 0x8000
    let r := (o - 0x4000000) % 0x8000
    if p ≥ 12 then none else pinSite s core p .uniform (r / 4) (fun _ _ => some (0, r % 4))
  else
    let p := (o - 0x5000000) / 0x1000
    let r := (o - 0x5000000) % 0x1000
    if p ≥ 12 then none else pinSite s core p .perm (r / 64) (fun _ _ => some (0, r % 64))

/-- The words of a physical permutation register (R219). -/
def permReg (s : State) (core part : Nat) (res : List Nat) : List Word :=
  ((res[0]?).bind (mget (partOf (coreOf s core) part).permRegs)).getD (List.replicate 12 0)

/-- The words that stand in a name's resource for an entry. -/
def siteWords (s : State) (x : Group) (m : NameSt) (t : Nat) : List Word :=
  match m.cls with
  | .perm => permReg s x.core x.part m.res
  | .lane => ((m.entries[t]?).getD (noEntry .lane)).words
  | .uniform => ((m.entries[0]?).getD (noEntry .uniform)).words
  | .acc => ((m.entries[t]?).getD (noEntry .acc)).words

/-- The byte at an on-chip address: a pinned entry or register as it stands, or memory (R77, R219). -/
def chipByte (s : State) (die h : Nat) : Byte :=
  match (chipSite s die h).bind (·.ent) with
  | none => homeByte s (chipPa die h)
  | some (uid, g, c, n, t, b) =>
    match groupOf s uid g with
    | none => 0
    | some x => match (levelNames x).find? (fun lm => lm.2.cls == c && lm.2.num == n) with
      | none => 0
      | some lm => if c == .perm && b ≥ 48 then 0 else ((bytesOfNat 4 (((siteWords s x lm.2 t)[b / 4]?).getD 0).toNat)[b % 4]?).getD 0

/-- A pinned entry, whose words are `old`, after an engine writes one of its bytes (R54, R77, R219): F is set with the last byte
of the entry that the write covers, which `last` says this step delivers. -/
def Entry.putByte (c : NClass) (old : List Word) (b : Nat) (v : Byte) (last : Bool) (e : Entry) : Entry :=
  let ws := modAt old (b / 4) (fun w => BitVec.ofNat 32 (setFld w.toNat (8 * (b % 4) + 7) (8 * (b % 4)) v.toNat))
  if c == .perm then
    if b ≥ 48 then e
    else
      let got := e.got ||| 2 ^ b
      if got = 2 ^ 48 - 1 then { e with words := ws, full := true, held := true, got := 0 } else { e with words := ws, held := true, got := got }
  else { e with words := ws, full := e.full || last, held := true }

/-- A byte that an engine writes in a pinned tile meets the unfinished array words that read its row (R213). -/
def rowSees (s : State) (x : Group) (uid tile t b : Nat) (v : Byte) : State :=
  if (Config.freeWord s.free).toNat % 2 = 0 then { s with free := s.free + 1 }
  else modPart { s with free := s.free + 1 } x.core x.part (fun p => { p with mxrun := p.mxrun.map (fun r =>
    if r.ent.uid == uid && r.ent.g == x.gidx && r.ent.tile == tile then
      { r with olds := r.olds.map (fun o => if o.1 = t then (o.1, modAt o.2 (b / 4) (fun w => BitVec.ofNat 32 (setFld w.toNat (8 * (b % 4) + 7) (8 * (b % 4)) v.toNat))) else o) }
    else r) })

/-- An engine writes one byte of a pinned entry. -/
def chipPut (s : State) (uid g : Nat) (c : NClass) (n t b : Nat) (v : Byte) (last : Bool) : State :=
  match groupOf s uid g with
  | none => s
  | some x => match (levelNames x).find? (fun lm => lm.2.cls == c && lm.2.num == n) with
    | none => s
    | some lm =>
      let s1 := modGroup s uid g (fun y => modLevelName y lm.1 c n (fun m => modEntry m (entIx c t) (Entry.putByte c (siteWords s x lm.2 t) b v last)))
      match c with
      | .perm => syncPerm s1 uid g n
      | .acc => rowSees s1 x uid n t b v
      | .lane => s1
      | .uniform => s1

/-- Pieces of a range that stay within a 64-byte sector: start and length. -/
def pieces : Nat → Nat → Nat → List (Nat × Nat)
  | 0, _, _ => []
  | fuel + 1, a, n =>
    if n = 0 then []
    else
      let k := Nat.min n (64 - a % 64)
      (a, k) :: pieces fuel (a + k) (n - k)

/-- The check of one piece of an engine access by a domain (R77, R78, R292, R297): its physical address. -/
def engPiece (s : State) (core asid dom : Nat) (w : Bool) (va n : Nat) : Except ((Nat × Nat) × Nat) Nat :=
  match vlocOf va with
  | .chip h =>
    let die := dieOfCore core
    match ((List.range n).map (· + h)).find? (fun a => !((chipSite s die a).any (fun c => c.dom == dom))) with
    | some a => .error ((0x15, if (chipSite s die a).isSome then 2 else 1), va + (a - h))
    | none => .ok (chipPa die h)
  | _ => match memCheck s core asid (if w then .engWrite else .engRead) false va n with
    | .error e => .error (e, va)
    | .ok pa => .ok pa

/-- The pieces of an engine access with their physical addresses, or the first condition. -/
def engCheck (s : State) (core asid dom : Nat) (w : Bool) : List (Nat × Nat) → Except ((Nat × Nat) × Nat) (List (Nat × Nat × Nat))
  | [] => .ok []
  | (va, n) :: l => match engPiece s core asid dom w va n with
    | .error e => .error e
    | .ok pa => match engCheck s core asid dom w l with
      | .error e => .error e
      | .ok r => .ok ((va, pa, n) :: r)

/-- A byte as it stands at a physical address: on chip in its resource. -/
def placeByte (s : State) (pa : Nat) : Byte :=
  match plocOf pa with
  | .chip d h => chipByte s d h
  | .hbm _ => homeByte s pa
  | .host => homeByte s pa
  | .none => homeByte s pa

/-- The byte an engine of a unit reads (R97, R331): in a checked unit the newest one that its core's commit buffer holds. -/
def engByte (s : State) (uid core : Nat) (pa : Nat) : Byte :=
  match (coreOf s core).pool.reverse.find? (fun p => p.buffered && p.uid == uid && decide (p.pa ≤ pa) && decide (pa < p.pa + p.size)) with
  | some p => (p.data[pa - p.pa]?).getD 0
  | none => placeByte s pa

/-- The command that makes an access: unit, group, class and EQ entry, domain, word, and of the write it makes the ranges that
later steps are still to deliver (R77). -/
structure Cmd where
  uid : Nat
  g : Nat
  cls : Nat
  id : Nat
  dom : Nat
  asid : Nat
  core : Nat
  widx : Nat
  word : Word
  later : List (Nat × Nat)
deriving DecidableEq, Repr

/-- The command of an EQ entry. -/
def cmdOf (x : Group) (uid cls dom asid : Nat) (e : EqEntry) : Cmd := ⟨uid, x.gidx, cls, e.id, dom, asid, x.core, e.widx, e.word, []⟩

/-- A watched access of a command (R346, R347): ACC 4 a read, 5 a write. -/
def watchCmd (old s : State) (c : Cmd) (w : Bool) (pa n : Nat) : State :=
  watchHitBy placeByte old s ⟨if w then 1 else 0, c.dom, pa, n, c.uid, c.g, c.widx, c.word, if w then 5 else 4, c.id, []⟩

/-- What an engine's read gives: bytes, a condition with its address, or a poisoned sector (R360). -/
inductive EngRead where
  | bytes (bs : List Byte)
  | cond (cd : Nat × Nat) (addr : Nat)
  | poison (sec : Nat)
deriving DecidableEq, Repr

/-- An engine reads a range through an address space, at HOME (R78, R97, R360). -/
def engRead (s : State) (c : Cmd) (va n : Nat) : EngRead :=
  match engCheck s c.core c.asid c.dom false (pieces (n + 1) va n) with
  | .error e => .cond e.1 e.2
  | .ok ps => match ps.findSome? (fun p => poisoned s p.2.1 p.2.2) with
    | some sec => .poison sec
    | none => .bytes (ps.flatMap (fun p => (List.range p.2.2).map (fun i => engByte s c.uid c.core (p.2.1 + i))))

/-- The physical ranges of a check. -/
def checkedPas (r : Except ((Nat × Nat) × Nat) (List (Nat × Nat × Nat))) : List (Nat × Nat) :=
  match r with | .ok ps => ps.map (·.2) | .error _ => []

/-- FLAGS of an engine's request for some physical ranges (R269): an engine's, an L2 hit where every sector of memory that it touches is in the
L2, host memory. (DESIGN CHOICE, log 78) -/
def engFlags (s : State) (pas : List (Nat × Nat)) : Nat :=
  let secs := (pas.flatMap (fun p => sectorsOf p.1 p.2)).filter l1Holds
  8 + (if !secs.isEmpty && secs.all (inL2 s) then 2 else 0) + (if secs.any (fun sec => isHost (64 * sec)) then 16 else 0)

/-- What an engine's read takes from memory comes through the L2: `false` while a transfer is still to bring it (R80, R361, R363). -/
def engFetch (s : State) (c : Cmd) (va n : Nat) : State × Bool :=
  match engCheck s c.core c.asid c.dom false (pieces (n + 1) va n) with
  | .error _ => (s, true)
  | .ok ps => ps.foldl (fun q p => let r := l2Read q.1 c.dom p.2.1 p.2.2
    (r.1, q.2 && r.2)) (s, true)

/-- The watch hits of an engine's read. -/
def readHits (s : State) (c : Cmd) (va n : Nat) : State :=
  match engCheck s c.core c.asid c.dom false (pieces (n + 1) va n) with
  | .error _ => s
  | .ok ps => ps.foldl (fun s p => watchCmd s s c false p.2.1 p.2.2) s

/-- A command's later steps write bytes of the entry that holds byte `b` of its bytes at die-local address `h` (R77). -/
def Cmd.moreOf (c : Cmd) (k : NClass) (h b : Nat) : Bool := c.later.any (fun r => overlap r.1 r.2 (onChipVa h - b) (4 * entWords k))

/-- Bytes of an engine's write take their places (R97): journaled in a checked unit (R333); a pinned entry takes them in
its resource (R77). -/
def engStore (s : State) (c : Cmd) (pa : Nat) (bs : List Byte) : State :=
  let s1 := journalScratch s c.uid c.g pa bs.length
  match plocOf pa with
  | .chip d h => ((List.range bs.length).zip bs).foldl (fun s ib =>
      match (chipSite s d (h + ib.1)).bind (·.ent) with
      | some (uid, g, k, n, t, b) => chipPut (journalNames s uid g [t] [(k, n)]) uid g k n t b ib.2 (!c.moreOf k (h + ib.1) b)
      | none => homeWrite s (pa + ib.1) [ib.2]) (arraysSee s1 pa bs)
  | .hbm _ => memWrite s1 c.dom pa bs
  | .host => homeWrite s1 pa bs
  | .none => s1

/-- Bytes of an engine's write perform at a checked location (R97), watched (R346), with the wake of monitored waits (R188). -/
def engPut (s : State) (c : Cmd) (pa : Nat) (bs : List Byte) : State :=
  wakeMwait (watchCmd s (engStore s c pa bs) c true pa bs.length) none pa bs.length

/-- The location is a window-counter cell from now on (R85, R86). -/
def markCell (s : State) (pa : Nat) : State :=
  match plocOf pa with
  | .hbm d => modDie s d (fun k => { k with cells := if k.cells.contains (pa / 8 * 8) then k.cells else k.cells ++ [pa / 8 * 8] })
  | .chip _ _ => s
  | .host => s
  | .none => s

/-- One 64-bit add at a cell's HOME (R243), watched as an atomic with ACC 6 (R346, R351); a poisoned cell is consumed (R360). -/
def cellAdd (s : State) (c : Cmd) (pa n : Nat) : State :=
  match poisoned s pa 8 with
  | some sec => consumePoison s c.uid c.g sec []
  | none =>
    let v := natOfBytes ((List.range 8).map (fun i => engByte s c.uid c.core (pa + i))) + n
    wakeMwait (watchHitBy placeByte s (engStore (markCell s pa) c pa (bytesOfNat 8 v)) ⟨2, c.dom, pa, 8, c.uid, c.g, c.widx, c.word, 6, c.id, []⟩) none pa 8

/-- An engine's write of a checked unit to translated or host memory enters the commit buffer (R94, R331, R334): the first piece of
a step, none of whose ids from `base` on the POOL holds yet, stands for its 3 entries. -/
def engBuffer (base : Nat) (s : State) (c : Cmd) (va pa : Nat) (bs : List Byte) : State :=
  let p : PoolEntry :=
    { id := s.seq, uid := c.uid, g := c.g, t := 0, kind := .store, va := va, pa := pa, data := bs, size := bs.length
      ord := if (coreOf s c.core).pool.any (fun q => decide (base ≤ q.id)) then 6 else 7, scope := 4
      set := c.id, onPath := false, buffered := true, host := isHost pa, dom := c.dom, widx := c.widx, word := c.word, after := none }
  modCore { s with seq := s.seq + 1 } c.core (fun k => { k with pool := k.pool ++ [p] })

/-- The checked pieces of some ranges with their bytes: address, physical address, bytes. -/
def engPieces (s : State) (c : Cmd) : List (Nat × List Byte) → Except ((Nat × Nat) × Nat) (List (Nat × Nat × List Byte))
  | [] => .ok []
  | (va, bs) :: l => match engCheck s c.core c.asid c.dom true (pieces (bs.length + 1) va bs.length) with
    | .error e => .error e
    | .ok ps => match engPieces s c l with
      | .error e => .error e
      | .ok r => .ok (ps.map (fun p => (p.1, p.2.1, (bs.drop (p.1 - va)).take p.2.2)) ++ r)

/-- What a step is to perform over comes through the L2 (R80): `false` while a transfer is still to bring a sector that it covers in part
(R361, R363). -/
def engWriteFetch (s : State) (c : Cmd) (runs : List (Nat × List Byte)) : State × Bool :=
  match engPieces s c runs, unitOf s c.uid with
  | .ok ps, some u => writeFetchAll s c.dom ((ps.filter (fun p => !bufferedPa u p.2.1)).map (fun p => (p.2.1, p.2.2.length)))
  | _, _ => (s, true)

/-- A piece of a step performs, or in a checked unit enters the commit buffer (R94, R97). -/
def engPieceTo (u : DUnit) (c : Cmd) (base : Nat) (s : State) (p : Nat × Nat × List Byte) : State :=
  if bufferedPa u p.2.1 then engBuffer base s c p.1 p.2.1 p.2.2 else engPut s c p.2.1 p.2.2

/-- An engine writes one step's ranges through an address space (R78, R97): every piece is checked before the first byte moves. In
a checked unit the step's bytes in translated or host memory are one item, at its first byte (R331), and 3 entries (R334). -/
def engWrite (s : State) (c : Cmd) (runs : List (Nat × List Byte)) : Except ((Nat × Nat) × Nat) State :=
  match engPieces s c runs with
  | .error e => .error e
  | .ok ps => match unitOf s c.uid with
    | none => .ok s
    | some u =>
      if !ps.any (fun p => bufferedPa u p.2.1) then .ok (ps.foldl (engPieceTo u c s.seq) s)
      else if (coreOf s c.core).cbuf + 3 > 8192 then .ok (cbufTake s c.core c.uid c.g 3)
      else
        let s1 := modGroup (cbufTake s c.core c.uid c.g 3) c.uid c.g (fun x => { x with
          engItems := addItem x.engItems c.id (((runs[0]?).map (·.1)).getD 0) (runs.flatMap (·.2)) })
        .ok (ps.foldl (engPieceTo u c s1.seq) s1)

end Sys2Proof.Machine
end

