-- ==== Sys2Proof/Machine/Image.lean ====
section
/-! DEFINITION. KJO images as the hub and the binder read them (R131-R144): the header, the section table, one kernel's
records, and the checks of R143. -/

namespace Sys2Proof.Machine

open Sys2Proof

/-- A byte read through an address space from the root on a die (R74, R131): device memory or host memory. -/
def spaceByte (s : State) (die asid va : Nat) : Option Byte :=
  match walk s die asid va with
  | .error _ => none
  | .ok e => if isHbm (tlbPa e va) || isHost (tlbPa e va) then some (homeByte s (tlbPa e va)) else none

/-- An image: where it is read from. -/
structure Img where
  die : Nat
  asid : Nat
  base : Nat
deriving DecidableEq, Repr

/-- The number of `n` bytes at a byte of an image; nothing when a byte cannot be read. -/
def imgNum (s : State) (m : Img) (off : Nat) : Nat → Option Nat
  | 0 => some 0
  | n + 1 => match spaceByte s m.die m.asid (m.base + off), imgNum s m (off + 1) n with
    | some b, some v => some (b.toNat + 256 * v)
    | _, _ => none

/-- A field of an image; an unreadable one is given as a number that no check admits. (DESIGN CHOICE, log 123) -/
def imgFld (s : State) (m : Img) (off n : Nat) : Nat := (imgNum s m off n).getD (2 ^ 64)

/-- A section table entry (R133). -/
structure Sect where
  stype : Nat
  flags : Nat
  align : Nat
  off : Nat
  size : Nat
  rsvd : Nat
deriving DecidableEq, Repr

/-- The section table (R132, R133). -/
def sections (s : State) (m : Img) : List Sect :=
  let base := imgFld s m 16 8
  (List.range (Nat.min 32 (imgFld s m 10 2))).map (fun i =>
    let f := fun (o n : Nat) => imgFld s m (base + 32 * i + o) n
    ⟨f 0 2, f 2 2, f 4 4, f 8 8, f 16 8, f 24 8⟩)

/-- Record size of a section type (R134); 1 for an unknown one. -/
def recSize (t : Nat) : Nat := ([1, 4, 64, 16, 8, 16, 8, 16, 1, 24, 1, 12, 24, 4712][t]?).getD 1

/-- Alignment of a section type (R134). -/
def secAlign (t : Nat) : Nat := if t = 1 ∨ t = 8 then 256 else if t = 10 ∨ 13 < t ∨ t = 0 then 1 else 8

/-- A power of two. -/
def isPow2 (n : Nat) : Bool := (List.range 64).any (fun k => n == 2 ^ k)

/-- The place of a section type in the order of R134: SIG comes last. -/
def sectKey (t : Nat) : Nat := if t = 13 then 2 ^ 16 else t

/-- SIG is last in the file: it ends where the file ends, with the section table before it (R134). (DEDUCED, log 115) -/
def sigLast (tabEnd fsize : Nat) (l : List Sect) : Bool := l.all (fun e => e.stype != 13 || (e.off + e.size == fsize && decide (tabEnd ≤ e.off)))

/-- Sections stand in the file in ascending STYPE order, at most one of each type, and SIG last (R134). (DEDUCED, log 115) -/
def sectsOrdered (l : List Sect) : Bool :=
  ((List.range l.length).zip l).all (fun a => ((List.range l.length).zip l).all (fun b =>
    a.1 == b.1 || (a.2.stype != b.2.stype && (decide (sectKey b.2.stype ≤ sectKey a.2.stype) || decide (a.2.off + a.2.size ≤ b.2.off)))))

/-- A section is as R133, R134, R142 and R143 require. -/
def sectOk (fsize : Nat) (e : Sect) : Bool :=
  (e.stype != 13 || e.size == 4712) && decide (e.flags < 2) && isPow2 e.align && e.off % e.align == 0 && e.off % secAlign e.stype == 0 && decide (e.off + e.size ≤ fsize) &&
  e.size % recSize e.stype == 0 && e.rsvd == 0 && e.stype != 12 && ((decide (1 ≤ e.stype) && decide (e.stype ≤ 13)) || e.flags == 1)

/-- The header is as R132 and R144 require. -/
def headerOk (s : State) (m : Img) : Bool :=
  let ver := rdReg s .kjover
  let f := fun (o n : Nat) => imgFld s m o n
  f 0 4 == 0x004F4A4B && f 4 2 == fld ver 47 32 && decide (fld ver 31 16 ≤ f 6 2) && decide (f 6 2 ≤ fld ver 15 0) && f 8 2 == 2 &&
  decide (1 ≤ f 10 2) && decide (f 10 2 ≤ 32) && f 12 4 == 0 && f 16 8 % 8 == 0 && decide (f 16 8 + 32 * f 10 2 ≤ f 24 8) &&
  (List.range 4).all (fun i => f (32 + 8 * i) 8 == 0)

/-- The section of a type. -/
def sectOf (l : List Sect) (t : Nat) : Option Sect := l.find? (fun e => e.stype == t)

/-- The number of records in a section. -/
def sectCount (l : List Sect) (t : Nat) : Nat := ((sectOf l t).map (fun e => e.size / recSize t)).getD 0

/-- The offset of record i of a section. -/
def recOff (l : List Sect) (t i : Nat) : Nat := ((sectOf l t).map (·.off)).getD 0 + recSize t * i

/-- A field of record i of a section. -/
def recFld (s : State) (m : Img) (l : List Sect) (t i o n : Nat) : Nat := imgFld s m (recOff l t i + o) n

/-- The intervals of a name record (R136). -/
def recInts (s : State) (m : Img) (l : List Sect) (i : Nat) : List (Nat × Nat) :=
  (List.range (Nat.min 8 (recFld s m l 3 i 6 1))).map (fun j =>
    (recFld s m l 4 (recFld s m l 3 i 8 4 + j) 0 4, recFld s m l 4 (recFld s m l 3 i 8 4 + j) 4 4))

/-- The name records of a kernel (R136). -/
def readNames (s : State) (m : Img) (l : List Sect) (k0 n : Nat) : List NameRec :=
  (List.range n).map (fun j =>
    let f := fun (o w : Nat) => recFld s m l 3 (k0 + j) o w
    ⟨classOf (f 2 1), f 0 2, f 3 1 % 2 == 1, f 4 2, recInts s m l (k0 + j)⟩)

/-- The raw fields of a name record lie in their ranges (R136). -/
def nameOk (s : State) (m : Img) (l : List Sect) (i : Nat) : Bool :=
  let f := fun (o w : Nat) => recFld s m l 3 i o w
  let cap := ([2048, 256, 16, 8][f 2 1]?).getD 0
  decide (f 0 2 < cap) && decide (f 3 1 < 2) && (f 3 1 == 1 || f 4 2 == 0) && decide (1 ≤ f 6 1) && decide (f 6 1 ≤ 8) && f 7 1 == 0

/-- Intervals ascend, are disjoint and lie in the kernel (R51, R136). -/
def intsOk (nwords : Nat) : List (Nat × Nat) → Bool
  | [] => true
  | [iv] => decide (iv.1 ≤ iv.2) && decide (iv.2 < nwords)
  | iv :: jv :: l => decide (iv.1 ≤ iv.2) && decide (iv.2 < jv.1) && intsOk nwords (jv :: l)

/-- The intervals of a name record lie in LIFE, ascend and are disjoint (R136, R143). -/
def nameInts (s : State) (m : Img) (l : List Sect) (i : Nat) : Bool :=
  decide (recFld s m l 3 i 8 4 + recFld s m l 3 i 6 1 ≤ sectCount l 4) && intsOk (2 ^ 32) (recInts s m l i)

/-- The names of a kernel of the image live within its words, a pinned one throughout (R136, R143). -/
def kernInts (s : State) (m : Img) (l : List Sect) (i : Nat) : Bool :=
  let f := fun (o n : Nat) => recFld s m l 2 i o n
  (List.range (Nat.min 2328 (f 28 4))).all (fun j => let n := f 24 4 + j
    decide (sectCount l 3 ≤ n) || (intsOk (f 8 4) (recInts s m l n) && (recFld s m l 3 n 3 1 % 2 == 0 || recInts s m l n == [(0, f 8 4 - 1)])))

/-- Records are sorted by class, then number, without repeats (R136). (DEDUCED, log 67) -/
def namesSorted : List NameRec → Bool
  | [] => true
  | [_] => true
  | a :: b :: l => decide (4096 * clsCode a.cls + a.num < 4096 * clsCode b.cls + b.num) && namesSorted (b :: l)

/-- The kernel of an image, as its records stand (R135-R138). -/
def readKernel (s : State) (m : Img) (l : List Sect) (kidx : Nat) : Kernel :=
  let f := fun (o n : Nat) => recFld s m l 2 kidx o n
  { img := m.base, kidx := kidx, code := recOff l 1 0 + f 4 4, nwords := f 8 4, hndl := f 12 4, widths := f 16 1, chk := f 17 1 % 2 == 1
    maxunit := f 20 4, names := readNames s m l (f 24 4) (Nat.min 2328 (f 28 4))
    bufs := (List.range (Nat.min 32 (f 34 2))).map (fun i => ⟨recFld s m l 5 (f 32 2 + i) 0 4, recFld s m l 5 (f 32 2 + i) 4 2⟩)
    bars := (List.range (Nat.min 64 (f 38 2))).map (fun i => ⟨recFld s m l 6 (f 36 2 + i) 0 1, recFld s m l 6 (f 36 2 + i) 2 2⟩)
    args := (List.range (Nat.min 256 (f 44 2))).map (fun i =>
      let g := fun (o n : Nat) => recFld s m l 7 (f 40 4 + i) o n
      ⟨g 0 1, g 1 1, g 2 2, g 4 2, g 8 8⟩) }

/-- A kernel table entry's fields lie in their ranges (R135, R143). -/
def entryFields (s : State) (m : Img) (l : List Sect) (kidx : Nat) : Bool :=
  let f := fun (o n : Nat) => recFld s m l 2 kidx o n
  f 4 4 % 4 == 0 && decide (f 4 4 + 4 * f 8 4 ≤ ((sectOf l 1).map (·.size)).getD 0) && decide (1 ≤ f 8 4) && decide (f 8 4 ≤ 2 ^ 24) && (decide (f 12 4 < f 8 4) || f 12 4 == 0xFFFFFFFF) &&
  decide (f 16 1 < 16) && decide (f 17 1 < 2) && f 18 2 == 0 && decide (8 ≤ f 20 4) && decide (f 20 4 ≤ 65536) && decide (f 28 4 ≤ 2328) &&
  decide (f 34 2 ≤ 32) && decide (f 38 2 ≤ 64) && decide (f 44 2 ≤ 256) && f 46 2 == 0 && f 56 8 == 0

/-- The named kernel exists, and its index ranges lie within their sections (R143). -/
def entryOk (s : State) (m : Img) (l : List Sect) (kidx : Nat) : Bool :=
  let f := fun (o n : Nat) => recFld s m l 2 kidx o n
  let within := fun (first n t : Nat) => n == 0 || decide (first + n ≤ sectCount l t)
  decide (kidx < sectCount l 2) &&
  within (f 24 4) (f 28 4) 3 && within (f 32 2) (f 34 2) 5 && within (f 36 2) (f 38 2) 6 && within (f 40 4) (f 44 2) 7 && within (f 48 4) (f 52 4) 11

/-- A uniform name is declared. -/
def uniDecl (k : Kernel) (n : Nat) : Bool := (recOf k .uniform n).isSome

/-- The names that the records of a kernel write (R138). -/
def writtenNames (k : Kernel) : List (NClass × Nat) :=
  (k.names.filter (·.pin)).map (fun r => (NClass.uniform, r.pink)) ++ k.bufs.map (fun b => (NClass.uniform, b.offk)) ++
  k.args.flatMap (fun a => (List.range (Nat.min 64 a.nw)).map (fun i => (if a.cls = 0 then NClass.lane else NClass.uniform, a.name + i)))

/-- A list has no repeats. -/
def noRepeats : List (NClass × Nat) → Bool
  | [] => true
  | x :: l => !l.contains x && noRepeats l

/-- A buffer record's fields lie in their ranges (R137). -/
def bufOk (s : State) (m : Img) (l : List Sect) (i : Nat) : Bool :=
  let g := fun (o n : Nat) => recFld s m l 5 i o n
  decide (1 ≤ g 0 4) && decide (g 0 4 ≤ 3 * 2 ^ 20) && g 6 2 == 0 && g 12 4 == 0

/-- A barrier record's fields lie in their ranges (R137). -/
def barOk (s : State) (m : Img) (l : List Sect) (i : Nat) : Bool := decide (recFld s m l 6 i 0 1 < 64) && recFld s m l 6 i 1 1 == 0

/-- An argument record's fields lie in their ranges (R138). -/
def argOk (s : State) (m : Img) (l : List Sect) (i : Nat) : Bool :=
  let g := fun (o n : Nat) => recFld s m l 7 i o n
  decide (g 0 1 < 3) && decide (g 1 1 < 2) && (if g 0 1 = 0 then decide (1 ≤ g 4 2) && decide (g 4 2 ≤ 64) && g 8 8 % 4 == 0 else g 4 2 == 2) &&
  g 6 2 == 0 && (g 0 1 != 2 || g 8 8 == 0)

/-- The reserved fields of a symbol, and of the signature, are 0 (R139, R142). -/
def symOk (s : State) (m : Img) (l : List Sect) (i : Nat) : Bool := recFld s m l 9 i 7 1 == 0 && recFld s m l 9 i 16 8 == 0
def sigPadOk (s : State) (m : Img) (l : List Sect) (i : Nat) : Bool := recFld s m l 13 i 4707 5 == 0

/-- The fields of all records of an image lie in their ranges, every interval obeys R136, and the reserved fields are 0 (R143). The STR
offsets KNAME, SNAME, BNAME and RNAME have no range. (DESIGN CHOICE, log 122) -/
def recordsOk (s : State) (m : Img) (l : List Sect) : Bool :=
  [(2, entryFields), (2, kernInts), (3, nameOk), (3, nameInts), (5, bufOk), (6, barOk), (7, argOk), (9, symOk), (13, sigPadOk)].all (fun tf => (List.range (sectCount l tf.1)).all (tf.2 s m l))

/-- The relations among a kernel's records hold (R136, R138, R143). -/
def kernelOk (k : Kernel) : Bool :=
  namesSorted k.names && k.names.all (fun r => intsOk k.nwords r.ints && (!r.pin || (r.ints == [(0, k.nwords - 1)] && uniDecl k r.pink))) &&
  (writtenNames k).all (fun cn => (recOf k cn.1 cn.2).any (fun r => liveAt r 0)) && noRepeats (writtenNames k)

/-- The kernel of a well-formed image (R143), without the launch's own fields; nothing when the image is not well formed. (DESIGN CHOICE, log 87) -/
def loadKernel (s : State) (m : Img) (kidx : Nat) : Option Kernel :=
  let l := sections s m
  let k := readKernel s m l kidx
  if headerOk s m && l.all (sectOk (imgFld s m 24 8)) && sectsOrdered l &&
    sigLast (imgFld s m 16 8 + 32 * l.length) (imgFld s m 24 8) l && [1, 2, 3, 4].all (fun t => (sectOf l t).isSome) && entryOk s m l kidx &&
    recordsOk s m l && kernelOk k
  then some k else none

/-- The launch's own conditions of R143. -/
def launchFits (k : Kernel) (wcode usize argb : Nat) : Bool :=
  bitN k.widths wcode && decide (usize ≤ k.maxunit) && (argb != 0 || !k.args.any (fun a => a.kind == 0))

/-- `n` bytes of an image. -/
def imgBytes (s : State) (m : Img) (off n : Nat) : Option (List Byte) :=
  (List.range n).foldr (fun i acc => match spaceByte s m.die m.asid (m.base + off + i), acc with | some b, some l => some (b :: l) | _, _ => none) (some [])

/-- The signature of an image verifies under the key that a domain's slot names (R142, R283). -/
def sigOk (s : State) (m : Img) (key : Nat) : Bool :=
  match sectOf (sections s m) 13, s.hub.img.keys[key]? with
  | some e, some (kid, pub) =>
    match imgBytes s m 0 e.off, imgBytes s m e.off 4712 with
    | some body, some sig =>
      let digest := (sig.drop 16).take 64
      (sig.take 16 == kid) && digest == Config.sha3 body && Config.mldsaVerify pub digest ((sig.drop 80).take 4627) && zeroRangeB sig 4707 5
    | _, _ => false
  | _, _ => false
where
  /-- The bytes of a range are 0. -/
  zeroRangeB (b : List Byte) (i n : Nat) : Bool := ((b.drop i).take n).all (· == 0)

end Sys2Proof.Machine
end

