-- ==== Sys2Proof/Machine/Place.lean ====
section
/-! DEFINITION. Placement: the choice of spilled names (R59, R60), seats (R26-R28), the binding of a group's names (R52,
R67), of buffers and barriers (R63, R184, R328), what is written at placement (R138, R76), and a unit on the cores of a
die (R39, R258, R329). -/

namespace Sys2Proof.Machine

open Sys2Proof

/-- The demand of names of a class at a word index (R59). -/
def demandAt (width : Nat) (c : NClass) (l : List NameRec) (w : Nat) : Nat := bindSize width c * (l.filter (fun r => liveAt r w)).length

/-- The peak of the demand (R59); it is reached where some interval starts. -/
def peakOf (width : Nat) (c : NClass) (l : List NameRec) : Nat :=
  maxOf ((0 :: l.flatMap (fun r => r.ints.map (·.1))).map (demandAt width c l))

/-- The unpinned name with the latest lifetime end, then the highest number (R59). -/
def latestName (l : List NameRec) : Option NameRec :=
  (l.filter (fun r => !r.pin)).foldl (fun best r => match best with
    | none => some r
    | some b => if lifeEnd b < lifeEnd r || (lifeEnd b == lifeEnd r && decide (b.num < r.num)) then some r else some b) none

/-- The names of a class that R59 marks spilled, in order of choice; nothing when the group is not placed. -/
def spillPlan (width : Nat) (c : NClass) (avail : Nat) : Nat → List NameRec → Option (List NameRec)
  | 0, l => if peakOf width c l ≤ avail then some [] else none
  | fuel + 1, l =>
    if peakOf width c l ≤ avail then some []
    else match latestName l with
      | none => none
      | some r => (spillPlan width c avail fuel (l.filter (fun q => q.num != r.num))).map (fun rs => r :: rs)

/-- The names of a class that a kernel declares. -/
def declared (k : Kernel) (c : NClass) : List NameRec := k.names.filter (fun r => r.cls == c)

/-- The domain slot of a group outside its gable calls. -/
def outerSlot (x : Group) : Nat := ((x.gstack.getLast?).map (·.slot)).getD x.slot

/-- A group's committed demand of a class (R59). -/
def commOf (x : Group) (c : NClass) : Nat :=
  peakOf x.width c (((levelNames x).filter (fun lm => lm.2.cls == c && lm.2.comm)).filterMap (fun lm => recOf (outerKernel x) c lm.2.num))

/-- The committed demand of a domain slot in a partition (R59); a group that has ended counts until its unit leaves. (DESIGN CHOICE, log 106) -/
def committed (s : State) (core part slot : Nat) (c : NClass) : Nat :=
  sumOf (((groupsAt s core part).filter (fun ux => outerSlot ux.2 == slot)).map (fun ux => commOf ux.2 c))

/-- A declared name before it is bound. -/
def newName (slot width : Nat) (comm : Bool) (depth : Nat) (r : NameRec) : NameSt :=
  { cls := r.cls, num := r.num, res := [], spilled := false, out := false, claimed := false, stuck := false, slot := none, staged := false, chosen := 0, comm := comm
    depth := depth, shared := false, owner := slot
    entries := List.replicate (match r.cls with | .lane => width | .uniform => 1 | .perm => 1 | .acc => width) (noEntry r.cls) }

/-- Spills names of a group in an order, each with its slots; nothing when a slot would lie at or above SPSZ (R60, R316). -/
def spillAll (s : State) (uid g : Nat) : List NameRec → Option State
  | [] => some s
  | r :: l => match groupOf s uid g with
    | none => none
    | some x => match nameOf x r.cls r.num with
      | none => none
      | some m => if canSlot s uid g m then spillAll (markSpilled s uid g 0 r.cls r.num) uid g l else none

/-- Binds names of a group in an order (R52, R59, R67): one that finds no resource spills, but a pinned one leaves the
group not placed. -/
def bindAll (s : State) (uid g : Nat) : List NameRec → Option State
  | [] => some s
  | r :: l =>
    let q := bindName s uid g 0 (((groupOf s uid g).map (·.slot)).getD 0) r.cls r.num r.pin
    if q.2 then bindAll q.1 uid g l
    else if r.pin then none
    else match spillAll q.1 uid g [r] with
      | none => none
      | some s' => bindAll s' uid g l

/-- Names in ascending number, class by class. -/
def byNum (l : List NameRec) : List NameRec := sortBy (fun r => 4096 * clsCode r.cls + r.num) l

/-- The names that a spilled directory of a core holds (R61). -/
def spilledOn (s : State) (core : Nat) : Nat :=
  sumOf (s.units.flatMap (fun u => (u.groups.filter (fun x => x.core == core)).map (fun x => ((levelNames x).filter (fun lm => lm.2.spilled)).length)))

/-- Binds the names of a placed group that has none yet (R59, R52, R67): `avail` is what each class may use; `early` says
which classes bind now their names that are live at word index `w0`. (DEDUCED, log 66) -/
def bindGroup (s : State) (uid g : Nat) (k : Kernel) (avail : NClass → Nat) (early : NClass → Bool) (comm : Bool) : Option State :=
  match groupOf s uid g with
  | none => none
  | some x =>
    let own := fun (r : NameRec) => !(x.names.any (fun m => m.shared && m.cls == r.cls && m.num == r.num))
    let plan := fun (c : NClass) => if early c then spillPlan x.width c (avail c) (declared k c).length ((declared k c).filter own) else some []
    match plan .lane, plan .uniform, plan .perm, plan .acc with
    | some a, some b, some p, some t =>
      let out := a ++ b ++ p ++ t
      let isOut := fun (r : NameRec) => out.any (fun q => q.cls == r.cls && q.num == r.num)
      let s1 := modGroup s uid g (fun y => { y with names := y.names.filter (·.shared) ++
        (k.names.filter (fun r => !(y.names.any (fun m => m.cls == r.cls && m.num == r.num)))).map (fun r => newName y.slot y.width (comm && !isOut r) y.gstack.length r) })
      match spillAll s1 uid g out with
      | none => none
      | some s2 =>
        let live := (k.names.filter (fun r => !r.pin && liveAt r 0 && early r.cls && !isOut r && own r))
        match bindAll s2 uid g (byNum (k.names.filter (·.pin)) ++ byNum live) with
        | none => none
        | some s3 => if spilledOn s3 x.core ≤ 8192 then some s3 else none
    | _, _, _, _ => none

/-- A thread at placement: at word index 0. -/
def newThread (base tslot t : Nat) : Thread :=
  { tid := t, lane := (base + t) % 32, tslot := tslot + t / 32, off := 0, exited := false, ready := none, joined := false, tq := [], aside := []
    floors := [], items := [], inHandler := false, cond := none, condAt := 0, skid := 0, stepLeft := 0, last := none }

/-- A group at placement (R104: GRP.FMODE at its reset value). -/
def newGroup (g core part tslot base width slot dom asid placed : Nat) (k : Kernel) : Group :=
  { gidx := g, core := core, part := part, tslot := tslot, base := base, width := width, slot := slot, dom := dom, asid := asid, kernel := k
    fmode := 1, oc := [0, 0, 0, 0, 0], eq := [[], [], [], [], []], names := [], gstack := [], ar := [], arrs := [], wait := ⟨.none, 0, 0, false⟩
    trap := none, heldConds := [], pause := none, dbg := ⟨0, 0, 0, [], false, none⟩, trigger := 0, engItems := [], spill := 0, spsz := 0, nslot := 0
    placed := placed, stopAt := none, relAt := none, ended := false, threads := (List.range width).map (newThread base tslot) }

/-- The thread slots of a seat (R28). -/
def seatSlots (width tslot : Nat) : List Nat := if width = 64 then [tslot, tslot + 1] else [tslot]

/-- The seats of a width in a partition, lowest slot first, then lowest base (R28, R258). -/
def seats (width : Nat) : List (Nat × Nat) :=
  if width = 64 then (List.range 8).map (fun j => (2 * j, 0))
  else if width = 32 then (List.range 16).map (fun j => (j, 0))
  else (List.range 16).flatMap (fun j => (List.range 4).map (fun b => (j, 8 * b)))

/-- The lowest free seat of a partition. -/
def freeSeat (s : State) (core part width : Nat) : Option (Nat × Nat) :=
  let here := (groupsAt s core part).map (·.2)
  (seats width).find? (fun sb => !(here.any (fun y =>
    (seatSlots y.width y.tslot).any (fun t => (seatSlots width sb.1).contains t) &&
    (octetsOf y).any (fun o => (octetsOf (newGroup 0 core part sb.1 sb.2 width 0 0 0 0 y.kernel)).contains o))))

/-- A group offered to a core's binder (R258): the partitions in order; nothing when it cannot be placed. -/
def placeGroup (s : State) (uid g core width dom : Nat) (k : Kernel) : Option State :=
  match slotOfDom s core dom with
  | none => none
  | some slot =>
    let dp := rdReg s (.dpart core slot)
    (List.range 12).findSome? (fun p => match freeSeat s core p width with
      | none => none
      | some sb =>
        let x := newGroup g core p sb.1 sb.2 width slot dom (domAsid (rdReg s (.domtab core slot))) s.seq k
        let s1 := modUnit { s with seq := s.seq + 1 } uid (fun u => { u with groups := u.groups ++ [x] })
        bindGroup s1 uid g k (fun c => quotaOf dp c - committed s core p slot c) (fun _ => true) true)

/-- Offers a unit's groups to cores in order (R258): each core takes groups until it cannot place the next. -/
def placeGroups (uid width dom : Nat) (k : Kernel) : Nat → List Nat → Nat → Nat → State → Option State
  | 0, _, _, _, _ => none
  | _ + 1, [], g, n, s => if g = n then some s else none
  | fuel + 1, core :: cores, g, n, s =>
    if g = n then some s
    else match placeGroup s uid g core width dom k with
      | some s' => placeGroups uid width dom k fuel (core :: cores) (g + 1) n s'
      | none => placeGroups uid width dom k fuel cores g n s

/-- The banks of a core in which a domain slot's buffers may lie (R63, R328). -/
def bankOk (s : State) (core dom slot b : Nat) : Bool :=
  bitN (dpSbank (rdReg s (.dpart core slot))) b && !bitN (fld (rdReg s (.chkctl core)) 63 16) b &&
  !(s.units.any (fun u => u.dom != dom && (bufsOn u core).any (fun f => decide (f.off / 65536 ≤ b) && decide (b ≤ (f.off + f.size - 1) / 65536))))

/-- The lowest free run of 4 KiB granules for a buffer (R63). -/
def freeRun (s : State) (core dom slot size : Nat) : Option Nat :=
  let n := (size + 4095) / 4096
  let taken := s.units.flatMap (fun u => bufsOn u core)
  ((List.range (769 - n)).find? (fun g =>
    (List.range n).all (fun i => bankOk s core dom slot ((g + i) / 16)) &&
    !(taken.any (fun f => overlap (4096 * g) (4096 * n) f.off ((f.size + 4095) / 4096 * 4096))))).map (· * 4096)

/-- Binds the buffers of a unit on a core, in record order (R63, R137). -/
def bindBuffers (s : State) (uid core dom slot : Nat) : Nat → List BufRec → Option State
  | _, [] => some s
  | i, b :: l => match freeRun s core dom slot b.size with
    | none => none
    | some off => bindBuffers (modUnit s uid (fun u => { u with bufs := u.bufs ++ [⟨core, i, off, b.size⟩] })) uid core dom slot (i + 1) l

/-- Binds a unit's buffers on each of its cores. -/
def bindAllBuffers (uid dom : Nat) (k : Kernel) : List Nat → State → Option State
  | [], s => some s
  | core :: l, s => match slotOfDom s core dom with
    | none => none
    | some slot => (bindBuffers s uid core dom slot 0 k.bufs).bind (bindAllBuffers uid dom k l)

/-- The barrier cells in use on a core, with their domain (R63). -/
def cellsOn (s : State) (core : Nat) : List (Nat × Nat) :=
  (s.units.filter (fun u => u.home == core)).flatMap (fun u => u.bars.map (fun b => (u.dom, b.cell)))

/-- Binds a unit's barriers to the lowest free cells of its home core, within BARS (R63, R184), a cell for each record. (DESIGN CHOICE, log 107) -/
def bindBars (s : State) (uid core dom slot groups : Nat) : List BarRec → Option State
  | [] => some s
  | b :: l =>
    let used := cellsOn s core
    match (List.range 256).find? (fun c => !(used.any (fun e => e.2 == c))) with
    | none => none
    | some c =>
      if (used.filter (fun e => e.1 == dom)).length + 1 > dpBars (rdReg s (.dpart core slot)) then none
      else
        let cell : BarCell := ⟨b.num, c, 0, 0, if b.count = 0 then groups else b.count, b.count == 0, [], []⟩
        bindBars (modUnit s uid (fun u => { u with bars := u.bars ++ [cell] })) uid core dom slot groups l

/-- The on-chip address of a resource (R76). -/
def resAddr (x : Group) (c : NClass) (n : Nat) : Nat :=
  x.core % 28 * 2 ^ 27 + (match c with
    | .lane => 0x3000000 + 0x10000 * x.part + 128 * n
    | .uniform => 0x4000000 + 0x8000 * x.part + 4 * n
    | .perm => 0x5000000 + 0x1000 * x.part + 64 * n
    | .acc => 0x1000000 + 0x20000 * x.part + 2048 * n)

/-- A value written at placement into a name (R138): every thread's entry of a lane name. -/
def placeWrite (s : State) (uid g : Nat) (c : NClass) (n : Nat) (w : Word) : State :=
  modGroup s uid g (fun x => (match c with | .lane => List.range x.width | .uniform => [0] | .perm => [0] | .acc => [0]).foldl
    (fun x t => storeEntry x c n t [w]) x)

/-- The class of an argument record. -/
def ArgRec.nclass (a : ArgRec) : NClass := if a.cls = 0 then .lane else .uniform

/-- One argument word from the argument block (R138), or the fatal condition that its read meets; a poisoned word gives STOP 6.
(DESIGN CHOICE, log 125) -/
def argRead (s : State) (u : DUnit) (x : Group) (a : ArgRec) (i : Nat) : State :=
  let va := u.argb + a.aval + 4 * i
  match memCheck s x.core x.asid .load false va 4 with
  | .error cd => startTrap s u.uid x.gidx { spillCond s x cd va with cls := 7 } true
  | .ok pa => match poisoned s pa 4 with
    | some sec => fatalStop s u.uid x.gidx 6 (sec * 64) []
    | none => placeWrite s u.uid x.gidx a.nclass (a.name + i) (wordAt (homeRead s pa 4) 0)

/-- An argument record is written (R138). -/
def argWrite (u : DUnit) (x : Group) (s : State) (a : ArgRec) : State :=
  let v := if a.kind = 1 then x.kernel.img + a.aval else u.argb
  (List.range a.nw).foldl (fun s i =>
    if a.kind = 0 then argRead s u x a i else placeWrite s u.uid x.gidx a.nclass (a.name + i) (BitVec.ofNat 32 (v / 2 ^ (32 * i)))) s

/-- What is written when a group is placed (R138): pin addresses, buffer offsets, argument records. -/
def placeWrites (uid : Nat) (s : State) (g : Nat) : State :=
  match unitOf s uid, groupOf s uid g with
  | some u, some x =>
    let pins := sortBy (·.num) (x.kernel.names.filter (·.pin))
    let s1 := pins.foldl (fun s r => placeWrite s uid g .uniform r.pink
      (BitVec.ofNat 32 (resAddr x r.cls (((nameOf x r.cls r.num).bind (fun m => minOf m.res)).getD 0)))) s
    let s2 := ((List.range x.kernel.bufs.length).zip x.kernel.bufs).foldl (fun s ib =>
      placeWrite s uid g .uniform ib.2.offk (BitVec.ofNat 32 ((((bufsOn u x.core).find? (fun f => f.idx == ib.1)).map (·.off)).getD 0))) s1
    x.kernel.args.foldl (argWrite u x) s2
  | _, _ => s

/-- The lowest unit tag that no resident unit of a core holds, nor one held in this clock (R39). -/
def freeTag (s : State) (core : Nat) : Nat :=
  let c := coreOf s core
  ((List.range 1024).find? (fun t => !(s.units.any (fun u => mget u.tags core == some t)) && !c.freed.contains (t, c.clk))).getD 0

/-- A unit before its groups are placed. -/
def newUnit (uid lid dom asid pasid unitidx usize width argb spill spsz die : Nat) (prods : List Nat) (k : Kernel) : DUnit :=
  { uid := uid, lid := lid, dom := dom, asid := asid, pasid := pasid, unitidx := unitidx, usize := usize, width := width, argb := argb
    spill := spill, spsz := spsz, nslot := 0, die := die, home := 0, tags := [], groups := [], bars := [], bufs := [], prods := prods, cancel := 0
    fatalClk := none, dbgSrc := 0, chk := k.chk, twin := none, primary := true, rolls := 0, rollPhase := 0, rollClk := (0, 0), ckpt := none }

/-- Places a unit on cores in a search order: groups on at most 11 cores, then tags, buffers and barriers (R30, R39, R63,
R258). Nothing is written yet. (DEDUCED, log 90) -/
def placeUnit (s : State) (u : DUnit) (k : Kernel) (cores : List Nat) : Option State :=
  let n := u.usize / u.width
  match placeGroups u.uid u.width u.dom k (n + cores.length + 1) cores 0 n { s with units := s.units ++ [u] } with
  | none => none
  | some s1 => match unitOf s1 u.uid with
    | none => none
    | some v =>
      let on := nub (v.groups.map (·.core))
      let home := ((v.groups.find? (fun x => x.gidx == 0)).map (·.core)).getD 0
      if on.length > 11 then none
      else
        let s2 := modUnit s1 u.uid (fun w => { w with home := home, tags := on.foldl (fun m c => mset m c (freeTag s c)) [] })
        match bindAllBuffers u.uid u.dom k on s2, slotOfDom s2 home u.dom with
        | some s3, some slot => bindBars s3 u.uid home u.dom slot n k.bars
        | _, _ => none

/-- The writes at placement of every group of a unit, in ascending gidx. -/
def unitWrites (s : State) (uid : Nat) : State :=
  match unitOf s uid with
  | none => s
  | some u => (u.groups.map (·.gidx)).foldl (placeWrites uid) s

end Sys2Proof.Machine
end

