-- ==== Sys2Proof/Machine/Uniform.lean ====
section
/-! DEFINITION. The uniform words (R180-R183), the mode word (R192), counters and marks (R196). -/

namespace Sys2Proof.Machine

open Sys2Proof

/-- A uniform branch (R183): the group decides once. -/
def groupBranch (i : Instr) (off : BitVec 18) (taken : Word → Bool) (s : State) : State :=
  groupWord i (fun s x => if taken (gA s x i) && outside x (jTarget s off) then [(0x05, 1)] else [])
    (fun s x _ cd => if cd.1 = 0x05 then targetVa x (jTarget s off) else issueVa s x)
    (fun uid x ts s =>
      let go := taken (gA s x i)
      advance (beginWord s i uid x.gidx ts true [] s.seq) uid x.gidx ts (fun _ => if go then (jTarget s off).toNat else nextOff s) (fun _ => go)) s

/-- GRP.FMODE as a write stores it (R104): reserved bits 0, an unused rounding code 1. -/
def fmodeWrite (v : Word) : Word :=
  let rm := v.toNat % 8
  BitVec.ofNat 32 ((if 1 ≤ rm ∧ rm ≤ 4 then rm else 1) + (if bitN v.toNat 3 then 8 else 0))

/-- The value of an event counter as a group reads it (R196, R270). -/
def ctrValue (s : State) (x : Group) (n : Nat) : Nat :=
  let sel := rdReg s (.ctrsel x.core x.part n)
  if bitN sel 31 && !bitN sel 30 && fld sel 23 12 == x.dom then ((partOf (coreOf s x.core) x.part).counters[n]?).getD 0 else 0

/-- A uniform result of a function of the state and the group. -/
def groupValue (i : Instr) (f : State → Group → Word) (s : State) : State :=
  groupWord i noGDyn addrWord (fun uid x ts s => groupResult i 2 (f s x) uid x ts s) s

/-- `ua.add` (R180). -/
def execUaAdd (d : BitVec 7) (a : BitVec 7) (b : BitVec 7) (s : State) : Host.Outcome State Fault Refusal :=
  .next (groupAB (.uaAdd d a b) (fun a b => a + b) s)

/-- `ua.sub` (R180). -/
def execUaSub (d : BitVec 7) (a : BitVec 7) (b : BitVec 7) (s : State) : Host.Outcome State Fault Refusal :=
  .next (groupAB (.uaSub d a b) (fun a b => a - b) s)

/-- `ua.mul` (R180). -/
def execUaMul (d : BitVec 7) (a : BitVec 7) (b : BitVec 7) (s : State) : Host.Outcome State Fault Refusal :=
  .next (groupAB (.uaMul d a b) (fun a b => a * b) s)

/-- `ua.and` (R180). -/
def execUaAnd (d : BitVec 7) (a : BitVec 7) (b : BitVec 7) (s : State) : Host.Outcome State Fault Refusal :=
  .next (groupAB (.uaAnd d a b) (fun a b => a &&& b) s)

/-- `ua.or` (R180). -/
def execUaOr (d : BitVec 7) (a : BitVec 7) (b : BitVec 7) (s : State) : Host.Outcome State Fault Refusal :=
  .next (groupAB (.uaOr d a b) (fun a b => a ||| b) s)

/-- `ua.xor` (R180). -/
def execUaXor (d : BitVec 7) (a : BitVec 7) (b : BitVec 7) (s : State) : Host.Outcome State Fault Refusal :=
  .next (groupAB (.uaXor d a b) (fun a b => a ^^^ b) s)

/-- `ua.shl` (R180). -/
def execUaShl (d : BitVec 7) (a : BitVec 7) (b : BitVec 7) (s : State) : Host.Outcome State Fault Refusal :=
  .next (groupAB (.uaShl d a b) shlW s)

/-- `ua.shr` (R180). -/
def execUaShr (d : BitVec 7) (a : BitVec 7) (b : BitVec 7) (s : State) : Host.Outcome State Fault Refusal :=
  .next (groupAB (.uaShr d a b) shrW s)

/-- `ua.min` (R180). -/
def execUaMin (d : BitVec 7) (a : BitVec 7) (b : BitVec 7) (s : State) : Host.Outcome State Fault Refusal :=
  .next (groupAB (.uaMin d a b) minS s)

/-- `ua.max` (R180). -/
def execUaMax (d : BitVec 7) (a : BitVec 7) (b : BitVec 7) (s : State) : Host.Outcome State Fault Refusal :=
  .next (groupAB (.uaMax d a b) maxS s)

/-- `ua.minn` (R180). -/
def execUaMinn (d : BitVec 7) (a : BitVec 7) (b : BitVec 7) (s : State) : Host.Outcome State Fault Refusal :=
  .next (groupAB (.uaMinn d a b) minU s)

/-- `ua.maxn` (R180). -/
def execUaMaxn (d : BitVec 7) (a : BitVec 7) (b : BitVec 7) (s : State) : Host.Outcome State Fault Refusal :=
  .next (groupAB (.uaMaxn d a b) maxU s)

/-- `uc.eq` (R181). -/
def execUcEq (d : BitVec 7) (a : BitVec 7) (b : BitVec 7) (s : State) : Host.Outcome State Fault Refusal :=
  .next (groupAB (.ucEq d a b) (fun a b => ofBool (a == b)) s)

/-- `uc.ne` (R181). -/
def execUcNe (d : BitVec 7) (a : BitVec 7) (b : BitVec 7) (s : State) : Host.Outcome State Fault Refusal :=
  .next (groupAB (.ucNe d a b) (fun a b => ofBool (a != b)) s)

/-- `uc.lt` (R181). -/
def execUcLt (d : BitVec 7) (a : BitVec 7) (b : BitVec 7) (s : State) : Host.Outcome State Fault Refusal :=
  .next (groupAB (.ucLt d a b) (fun a b => ofBool (decide (a.toInt < b.toInt))) s)

/-- `uc.ltn` (R181). -/
def execUcLtn (d : BitVec 7) (a : BitVec 7) (b : BitVec 7) (s : State) : Host.Outcome State Fault Refusal :=
  .next (groupAB (.ucLtn d a b) (fun a b => ofBool (decide (a.toNat < b.toNat))) s)

/-- `uai` (R182). -/
def execUai (d : BitVec 7) (a : BitVec 7) (imm : BitVec 11) (s : State) : Host.Outcome State Fault Refusal :=
  .next (groupValue (.uai d a imm) (fun s x => gA s x (.uai d a imm) + imm.signExtend 32) s)

/-- `ulim` (R182). -/
def execUlim (d : BitVec 7) (imm : BitVec 18) (s : State) : Host.Outcome State Fault Refusal :=
  .next (groupValue (.ulim d imm) (fun _ _ => imm.signExtend 32) s)

/-- `ulih` (R182). -/
def execUlih (d : BitVec 7) (imm : BitVec 18) (s : State) : Host.Outcome State Fault Refusal :=
  .next (groupValue (.ulih d imm) (fun s x => lihW (gD s x (.ulih d imm)) imm) s)

/-- `ubrz` (R183). -/
def execUbrz (a : BitVec 7) (off : BitVec 18) (s : State) : Host.Outcome State Fault Refusal :=
  .next (groupBranch (.ubrz a off) off (fun v => v == 0) s)

/-- `ubrnz` (R183). -/
def execUbrnz (a : BitVec 7) (off : BitVec 18) (s : State) : Host.Outcome State Fault Refusal :=
  .next (groupBranch (.ubrnz a off) off (fun v => v != 0) s)

/-- `mode.rd` (R192). -/
def execModeRd (d : BitVec 7) (s : State) : Host.Outcome State Fault Refusal :=
  .next (groupValue (.modeRd d) (fun _ x => x.fmode) s)

/-- `mode.wr` (R104, R192): for the words that issue after it. -/
def execModeWr (a : BitVec 7) (s : State) : Host.Outcome State Fault Refusal :=
  .next (groupWord (.modeWr a) noGDyn addrWord (fun uid x ts s =>
    modGroup (groupPlain (.modeWr a) uid x ts s) uid x.gidx (fun y => { y with fmode := fmodeWrite (gA s x (.modeWr a)) })) s)

/-- `ctr.rd` (R196, R270). -/
def execCtrRd (d : BitVec 7) (a : BitVec 7) (s : State) : Host.Outcome State Fault Refusal :=
  .next (groupValue (.ctrRd d a) (fun s x => BitVec.ofNat 32 (ctrValue s x a.toNat)) s)

/-- `ctr.mark` (R196, R272): a mark record when the ring records marks. -/
def execCtrMark (a : BitVec 7) (s : State) : Host.Outcome State Fault Refusal :=
  .next (groupWord (.ctrMark a) noGDyn addrWord (fun uid x ts s =>
    let s1 := groupPlain (.ctrMark a) uid x ts s
    match unitOf s uid with
    | none => s1
    | some u => if bitN (rdReg s (.sring x.core x.slot)) 124 then ringRecord s1 x.core x.slot (markRecord s x u (gA s x (.ctrMark a))) else s1) s)

end Sys2Proof.Machine
end

