-- ==== Sys2Proof/Machine/Gate.lean ====
section
/-! DEFINITION. Gable calls (R193-R195, R308, R309): the call and return words, and the steps that complete them. -/

namespace Sys2Proof.Machine

open Sys2Proof

/-- A gable descriptor (R193). -/
structure Gable where
  tdom : Nat
  flags : Nat
  kidx : Nat
  kimg : Nat
  entry : Nat
  rrows : Nat
  runi : Nat
  lmask : Nat
  umask : Nat
  rsvd : Nat
  spill : Nat
  spsz : Nat
deriving DecidableEq, Repr

/-- The fields of 64 descriptor bytes. -/
def gableOf (b : List Byte) : Gable :=
  ⟨numAt b 0 2, numAt b 2 2, numAt b 4 4, numAt b 8 8, numAt b 16 4, numAt b 20 2, numAt b 22 2, numAt b 24 8, numAt b 32 4,
    numAt b 36 4 + numAt b 52 8 + numAt b 60 4, numAt b 40 8, numAt b 48 4⟩

/-- `gate.call` (R194): the group waits; the rest is GATE_CALL_ENTRY's. -/
def execGateCall (a : BitVec 7) (s : State) : Host.Outcome State Fault Refusal :=
  .next (groupWord (.gateCall a) noGDyn addrWord (fun uid x ts s => groupWait (.gateCall a) (.gateCall (gA s x (.gateCall a)).toNat 0) uid x ts s) s)

/-- `gate.ret` (R195); GATE 7 with an empty gable stack (R308). -/
def execGateRet (s : State) : Host.Outcome State Fault Refusal :=
  .next (groupWord .gateRet (fun _ x => if x.gstack.isEmpty then [(0x08, 7)] else []) addrWord
    (fun uid x ts s => groupWait .gateRet (.gateRet 0) uid x ts s) s)

/-- The kernel offset at which a group's threads stand in a waiting word. -/
def standOff (x : Group) : Nat := ((threadOf x (leadTid x)).map (·.off)).getD 0

/-- A GATE condition, or one met on the descriptor's read, of a group that stands at its `gate.call` (R308, R373). -/
def gateCond (s : State) (x : Group) (off : Nat) (cd : Nat × Nat) (addr : Nat) : Cond :=
  let w := wordsAtOff s x off
  { cause := cd.1, detail := cd.2, kind := .sync, widx := off / 4, sparw := w.1, word := w.2, addr := addr, group := true, fetch := false
    lmask := liveTids x, pmask := liveTids x, taddr := [], clk := clkOf s x.core, time := timeOf s x.core, cls := 0, more := false }

/-- Every non-exited thread of the group meets the condition. -/
def gateTrap (s : State) (uid : Nat) (x : Group) (off : Nat) (cd : Nat × Nat) (addr : Nat) : State :=
  let c := gateCond s x off cd addr
  (liveTids x).foldl (fun s t => raiseThread s uid x.gidx t c) (modGroup s uid x.gidx (fun y => { y with wait := ⟨.none, 0, 0, false⟩ }))

/-- Octet rows that a number of row numbers gives a group (R63, R193). (DEDUCED, log 68) -/
def rowsFor (x : Group) (rrows : Nat) : Nat := rrows * (octetsOf x).length

/-- The descriptor's condition, in the order of R308, or the target's slot and kernel. -/
def gableCheck (s : State) (x : Group) (idx : Nat) (d : Gable) : Except Nat (Nat × Kernel) :=
  let dt := rdReg s (.domtab x.core x.slot)
  if idx ≥ domGsize dt then .error 1
  else if d.flags ≠ 1 ∨ d.tdom ≥ 4096 ∨ d.rsvd ≠ 0 then .error 2
  else match slotOfDom s x.core d.tdom with
    | none => .error 3
    | some t =>
      let dp := rdReg s (.dpart x.core t)
      match loadKernel s ⟨dieOfCore x.core, domAsid (rdReg s (.domtab x.core t)), d.kimg⟩ d.kidx with
      | none => .error 4
      | some k =>
        if d.kimg % 256 ≠ 0 ∨ d.entry ≥ k.nwords ∨ !k.bufs.isEmpty ∨ !k.bars.isEmpty ∨ k.names.any (·.pin) ∨ !bitN k.widths (widthIx x.width) then .error 4
        else if rowsFor x d.rrows > quotaOf dp .lane ∨ d.runi > quotaOf dp .uniform then .error 5
        else if x.gstack.length ≥ 4 then .error 6
        else .ok (t, k)
where
  /-- The code of a width (R135). -/
  widthIx (w : Nat) : Nat := if w = 8 then 0 else if w = 16 then 1 else if w = 32 then 2 else 3

/-- The target runs and has the room that the descriptor asks for (R194). -/
def gableRoom (s : State) (x : Group) (d : Gable) (t : Nat) : Bool :=
  let hs := holders s x.core x.part .lane
  let us := holders s x.core x.part .uniform
  let dp := rdReg s (.dpart x.core t)
  slotRuns s x.core t &&
  decide (d.rrows ≤ ((List.range 512).filter (fun n => !(hs.any (fun h => h.uses .lane (octetsOf x) n)))).length) &&
  decide (d.runi + us.length ≤ 8192) &&
  decide (heldAmount hs .lane t + rowsFor x d.rrows ≤ quotaOf dp .lane) && decide (heldAmount us .uniform t + d.runi ≤ quotaOf dp .uniform)

/-- The caller's names that a descriptor shares (R193). -/
def sharedIn (d : Gable) (c : NClass) (n : Nat) : Bool :=
  match c with
  | .lane => decide (n < 64) && bitN d.lmask n
  | .uniform => decide (n < 32) && bitN d.umask n
  | .perm => false
  | .acc => false

/-- The names of a descriptor's masks that the caller does not declare: they become names of its own (R194). (DEDUCED, log 42) -/
def shareUndeclared (d : Gable) (x : Group) : Group :=
  let new := fun (c : NClass) (k : Nat) => (List.range k).filterMap (fun n =>
    if sharedIn d c n && (nameOf x c n).isNone then some (newName x.slot x.width false x.gstack.length ⟨c, n, false, 0, []⟩) else none)
  { x with names := x.names ++ new .lane 64 ++ new .uniform 32 }

/-- A shared name that the caller holds no entry of is bound for it, empty (R194, log 42). -/
def bindShared (s0 : State) (uid g : Nat) (d : Gable) : State :=
  let s := modGroup s0 uid g (shareUndeclared d)
  match groupOf s uid g with
  | none => s
  | some x => (x.names.filter (fun m => sharedIn d m.cls m.num && !(m.entries.any (·.held)))).foldl (fun s m =>
      modGroup (bindAtWrite s uid g m.cls m.num []) uid g (fun y => modName y m.cls m.num (fun k =>
        { k with entries := k.entries.map (fun e => { e with full := false, held := true, cnt := 0, wt := 0, inSlot := false }) }))) s

/-- The call's push and entry (R194): shared names stay reachable, the callee's other names bind in slot t. A callee whose spilled names
would not find slots is not entered; its group waits on. (DESIGN CHOICE, log 119) -/
def gableEnter (s : State) (uid g idx : Nat) (d : Gable) (t : Nat) (k : Kernel) : State :=
  let s1 := bindShared s uid g d
  let s2 := modGroup s1 uid g (fun x =>
    let fr : GableFrame :=
      { slot := x.slot, kernel := x.kernel, next := x.wait.next, fmode := x.fmode, names := x.names.filter (fun m => !sharedIn d m.cls m.num)
        callOff := standOff x, spill := x.spill, spsz := x.spsz, nslot := x.nslot, dom := x.dom, asid := x.asid
        inHand := (x.threads.filter (·.inHandler)).map (·.tid), aside := (x.threads.filter (fun h => !h.aside.isEmpty)).map (fun h => (h.tid, h.aside))
        held := x.heldConds }
    { x with slot := t, dom := d.tdom, asid := domAsid (rdReg s (.domtab x.core t)), kernel := k, gstack := fr :: x.gstack
             names := (x.names.filter (fun m => sharedIn d m.cls m.num)).map (fun m => { m with shared := true })
             spill := d.spill, spsz := d.spsz, nslot := 0, heldConds := []
             threads := x.threads.map (fun h => { releasedAt (clkOf s x.core) (entryVa x.kernel + h.off) x.wait.kind h with inHandler := false, aside := [] }) })
  match groupOf s2 uid g with
  | none => s
  | some x =>
    let avail := fun (c : NClass) => match c with | .lane => rowsFor x d.rrows | .uniform => d.runi | .perm => 0 | .acc => 0
    match bindGroup s2 uid g k avail (fun c => c == .lane || c == .uniform) false with
    | none => modGroup s uid g (fun y => { y with wait := { y.wait with kind := .gateCall idx 0 } })
    | some s3 => modGroup (acquireGroup s3 uid g) uid g (fun y => { y with
        fmode := 1
        wait := ⟨.none, 0, 0, false⟩
        threads := y.threads.map (fun h => if h.exited then h else { h with off := 4 * d.entry, ready := none, joined := false }) })

/-- Results of the group's words are on their way to names of its level; they arrive before a call or return changes the
names (R194, R195, R298). -/
def resultsDue (s : State) (uid g core : Nat) : Bool :=
  let c := coreOf s core
  c.pend.any (fun p => p.uid == uid && p.g == g) ||
  c.loads.any (fun l => l.uid == uid && l.mem.any (fun m => m.1.1 == g && m.2.1.isSome))

/-- GATE_CALL_ENTRY (R194, R308): once the counters are 0 the fences are placed; once they are done the descriptor is read
and checked, and when the target has room the callee is entered. -/
def execGateCallEntry (uid g : Nat) (s : State) : Host.Outcome State Fault Refusal :=
  .next (match unitOf s uid, groupOf s uid g with
  | some u, some x => match x.wait.kind with
    | .gateCall idx tag =>
      if !canRelease s u x || resultsDue s uid g x.core then s
      else if tag = 0 then
        if x.oc.any (fun n => n != 0) then s
        else modGroup (placeFences s uid g 2 5 s.seq) uid g (fun y => { y with wait := { y.wait with kind := .gateCall idx s.seq } })
      else if !fencesDone x tag then s
      else
        let dt := rdReg s (.domtab x.core x.slot)
        let va := domGbase dt + 64 * idx
        if idx ≥ domGsize dt then gateTrap s uid x (standOff x) (0x08, 1) (entryVa x.kernel + standOff x)
        else match memCheck s x.core x.asid .engRead false va 64 with
          | .error cd => gateTrap s uid x (standOff x) cd va
          | .ok pa =>
            let d := gableOf (homeRead s pa 64)
            match gableCheck s x idx d with
            | .error e => gateTrap s uid x (standOff x) (0x08, e) (entryVa x.kernel + standOff x)
            | .ok tk => if gableRoom s x d tk.1 then gableEnter s uid g idx d tk.1 tk.2 else s
    | _ => s
  | _, _ => s)

/-- The caller as it stands when the callee's frame is popped (R195): unshared callee names go, shared ones stay; its threads are in their
handler as at the call, and what the callee still held is gone (R304, R309). (DESIGN CHOICE, log 120) -/
def gablePop (x : Group) : Group :=
  match x.gstack with
  | [] => x
  | fr :: rest =>
    let keep := (x.names.filter (·.shared)).map (fun m => { m with shared := m.depth != rest.length })
    { x with slot := fr.slot, dom := fr.dom, asid := fr.asid, kernel := fr.kernel, fmode := fr.fmode, gstack := rest, names := fr.names ++ keep
             spill := fr.spill, spsz := fr.spsz, nslot := fr.nslot, heldConds := fr.held
             threads := x.threads.map (fun h => { h with cond := none, inHandler := fr.inHand.contains h.tid && !h.exited, aside := if h.exited then [] else (mget fr.aside h.tid).getD [] }) }

/-- The staging places of the callee's names go with them (R61). -/
def dropStaging (s : State) (uid : Nat) (x : Group) : State :=
  modPart s x.core x.part (fun p => { p with staging := p.staging.filter (fun q =>
    !(q.1 == uid && q.2.1 == x.gidx && x.names.any (fun m => !m.shared && m.cls == q.2.2.1 && m.num == q.2.2.2))) })

/-- The entries that the callee's handler still holds set aside are given up (R304). (DESIGN CHOICE, log 120) -/
def dropAside (s : State) (uid : Nat) (x : Group) : State :=
  x.threads.foldl (fun s h => h.aside.foldl (fun s e => giveUpLoad s x.core uid x.gidx h.tid e.set) s) s

/-- GATE_RETURN (R195, R309, R315): as the call, once counters and fences allow; a return after a fatal trap of the callee,
marked `woken`, waits for no counter, and its caller takes GATE 8 at its `gate.call`. -/
def execGateReturn (uid g : Nat) (s : State) : Host.Outcome State Fault Refusal :=
  .next (match unitOf s uid, groupOf s uid g with
  | some u, some x => match x.wait.kind with
    | .gateRet tag =>
      if !canRelease s u x || resultsDue s uid g x.core then s
      else if tag = 0 then
        if !x.wait.woken && x.oc.any (fun n => n != 0) then s
        else modGroup (placeFences s uid g 2 5 s.seq) uid g (fun y => { y with wait := { y.wait with kind := .gateRet s.seq } })
      else if !fencesDone x tag || !(x.gstack.head?.all (fun f => slotRuns s x.core f.slot)) then s
      else
        let fatal := x.wait.woken
        let fr := x.gstack.head?
        let off1 := ((fr.map (fun f => if fatal then f.callOff else f.next)).getD 0)
        let s1 := modGroup (dropStaging (dropAside s uid x) uid x) uid g (fun y => { gablePop y with wait := ⟨.none, 0, 0, false⟩ })
        let s2 := modGroup (acquireGroup s1 uid g) uid g (fun y => { y with
          threads := y.threads.map (fun h => if h.exited then h
            else { releasedAt (clkOf s x.core) (entryVa x.kernel + h.off) x.wait.kind h with off := off1, ready := none, joined := false }) })
        match fatal, groupOf s2 uid g with
        | true, some y => gateTrap s2 uid y off1 (0x08, 8) (entryVa y.kernel + off1)
        | _, _ => s2
    | _ => s
  | _, _ => s)

end Sys2Proof.Machine
end

