-- ==== Sys2Proof/Machine/Matrix.lean ====
section
/-! DEFINITION. The matrix words and the array (R199-R214), and operand-buffer reservations (R191, R203). -/

namespace Sys2Proof.Machine

open Sys2Proof

/-- Panel bytes of a format (R204); 0 for an invalid one. -/
def panelBytes (fmt : Nat) : Nat := if fmt = 1 then 2048 else if fmt = 2 then 1024 else if fmt = 3 then 4096 else if fmt = 4 then 4096 else 0

/-- Bytes of 32 K values of a format (R204, R205). -/
def kBytes (fmt : Nat) : Nat := panelBytes fmt / 64

/-- The 32 values that bytes hold in a format (R107, R109, R204). -/
def elemVals (fmt : Nat) (bs : List Byte) : List Fl :=
  if fmt = 1 then bs.map (fun b => lt8Val b.toNat)
  else if fmt = 2 then bs.flatMap (fun b => [lt4Val (b.toNat % 16), lt4Val (b.toNat / 16)])
  else (List.range (bs.length / 2)).map (fun k => (if fmt = 3 then f16 else bf16).val (numAt bs (2 * k) 2))

/-- One, exactly. -/
def flOne : Fl := .fin false 1 0

/-- The value of an `e8s` scale (R110). -/
def scaleVal (c : Byte) : Fl := if c.toNat = 255 then .nan else .fin false 1 (Int.ofNat c.toNat - 127)

/-- The scale of each of 32 K values from the scale bytes of a row or column (R110). -/
def scaleList (fmt : Nat) (b16 : Bool) (bs : List Byte) : List Fl :=
  if fmt ≥ 3 then List.replicate 32 flOne
  else if b16 then List.replicate 16 (scaleVal ((bs[0]?).getD 0)) ++ List.replicate 16 (scaleVal ((bs[1]?).getD 0))
  else List.replicate 32 (scaleVal ((bs[0]?).getD 0))

/-- A term of a matrix sum: a, sa, b, sb (R112). -/
abbrev Term := (Fl × Fl) × (Fl × Fl)

/-- The product of a term, exact; NaN first (R112). -/
def termVal (t : Term) : Fl := mulFl (mulFl t.1.1 t.1.2) (mulFl t.2.1 t.2.2)

/-- The exact sum of a step's products (R112). -/
def stepSum : List Term → Fl
  | [] => .fin false 0 0
  | t :: ts => ts.foldl (fun a u => addFl 1 a (termVal u)) (termVal t)

/-- An accumulator element after a step (R112). (DESIGN CHOICE, log 109) -/
def stepAcc (acc : Word) (ts : List Term) : Word := BitVec.ofNat 32 (roundFl f32 1 (addFl 1 (f32.val acc.toNat) (stepSum ts)))

/-- A record word's fields (R203). -/
def recFmt (r : Word) : Nat := fld r.toNat 31 28
def recB16 (r : Word) : Bool := bitN r.toNat 27
def recSoff (r : Word) : Nat := fld r.toNat 23 12 * 64

/-- The reservation whose handle a group gives (R191). -/
def rsvOf (p : Part) (uid g : Nat) (handle : Word) : Option Rsv :=
  p.rsvs.find? (fun r => r.uid == uid && r.g == g && decide (handle.toNat = r.start * 2 ^ 16 + r.size * 2 ^ 8 + r.slot))

/-- The physical address of a byte of a partition's operand buffer (R76). -/
def obufPa (core part b : Nat) : Nat := chipPa (dieOfCore core) (core % 28 * 2 ^ 27 + 0x2000000 + 0x40000 * part + b)

/-- Scale bytes of a column or row of an A or B operand: 1 or 2 (R204, R205). -/
def scaleBytes (b16 : Bool) : Nat := if b16 then 2 else 1

/-- The bytes of a range that a word has read (R201). -/
def bytesRead (l : List (Nat × List Byte)) (pa n : Nat) : List Byte :=
  match l.find? (fun r => decide (r.1 ≤ pa) && decide (pa + n ≤ r.1 + r.2.length)) with
  | some r => (r.2.drop (pa - r.1)).take n
  | none => List.replicate n 0

/-- The columns of a panel: for each the 32 values and their scales (R204). -/
def panelCols (rd : Nat → Nat → List Byte) (core part : Nat) (r : Rsv) (panel : Nat) : List (List (Fl × Fl)) :=
  let fmt := recFmt r.record
  let b16 := recB16 r.record
  let base := obufPa core part (1024 * r.start)
  (List.range 64).map (fun j =>
    let vs := elemVals fmt (rd (base + panel * panelBytes fmt + j * kBytes fmt) (kBytes fmt))
    let ss := scaleList fmt b16 (rd (base + recSoff r.record + 64 * scaleBytes b16 * panel + scaleBytes b16 * j) (scaleBytes b16))
    vs.zip ss)

/-- The rows of A that a descriptor gives (R205). -/
def aRow (rd : Nat → Nat → List Byte) (core : Nat) (fmt : Nat) (b16 : Bool) (off soff : Nat) : List (Fl × Fl) :=
  (elemVals fmt (rd (scratchPa core off) (kBytes fmt))).zip (scaleList fmt b16 (rd (scratchPa core soff) (scaleBytes b16)))

/-- The source rows that a generator selects for thread i (R207). -/
def genRows (gen kb : Nat) (map : List Nat) (i : Nat) : List Nat :=
  if gen = 1 then List.range 32
  else
    let v := if gen = 0 then pAt map i else i
    if 32 * kb ≤ v ∧ v < 32 * kb + 32 then [v - 32 * kb] else []

/-- The shape record's fields (R208). -/
structure Shape where
  xfmt : Nat
  base : Nat
  iw : Nat
  ih : Nat
  ow : Nat
  c : Nat
  dy : Nat
  dx : Nat
  sy : Nat
  sx : Nat
  kh : Nat
  kw : Nat
  asc : Nat
  pad : Nat
  pt : Nat
  pl : Nat
  q0 : Nat
deriving DecidableEq, Repr

/-- A shape record from its six words (R208). -/
def shapeOf (ws : List Word) : Shape :=
  let w := fun k => ((ws[k]?).getD 0).toNat
  { xfmt := fld (w 0) 31 28, base := fld (w 0) 21 0, iw := fld (w 1) 31 16, ih := fld (w 1) 15 0, ow := fld (w 2) 31 16, c := fld (w 2) 15 0,
    dy := fld (w 3) 31 28, dx := fld (w 3) 27 24, sy := fld (w 3) 23 20, sx := fld (w 3) 19 16, kh := fld (w 3) 15 8, kw := fld (w 3) 7 0,
    asc := fld (w 4) 31 24, pad := fld (w 4) 23 16, pt := fld (w 4) 15 8, pl := fld (w 4) 7 0, q0 := fld (w 5) 23 0 }

/-- Where element k of row i of the unfolded operand stands in the scratchpad (R208): none in the padding; `some none`
beyond the window. -/
def shapeElem (h : Shape) (panel i k : Nat) : Option (Option Nat) :=
  let g := 32 * panel + k
  if g ≥ h.kh * h.kw * h.c then none
  else
    let q := h.q0 + i
    let r := g / h.c
    let y : Int := Int.ofNat (q / h.ow * h.sy) - Int.ofNat h.pt + Int.ofNat (r / h.kw * h.dy)
    let x : Int := Int.ofNat (q % h.ow * h.sx) - Int.ofNat h.pl + Int.ofNat (r % h.kw * h.dx)
    if 0 ≤ y ∧ y < Int.ofNat h.ih ∧ 0 ≤ x ∧ x < Int.ofNat h.iw then
      some (some (h.base + ((y.toNat * h.iw + x.toNat) * h.c + g % h.c) * (if h.xfmt = 1 then 1 else 2)))
    else some none

/-- Row i of the unfolded operand (R208). -/
def shapeRow (rd : Nat → Nat → List Byte) (core : Nat) (h : Shape) (panel i : Nat) : List (Fl × Fl) :=
  let sa := if h.xfmt = 1 then scaleVal (BitVec.ofNat 8 h.asc) else flOne
  let size := if h.xfmt = 1 then 1 else 2
  (List.range 32).map (fun k =>
    (match shapeElem h panel i k with
     | none => .fin false 0 0
     | some none => lt8Val h.pad
     | some (some a) => ((elemVals h.xfmt (rd (scratchPa core a) size))[0]?).getD .nan, sa))

/-- Zeros of a tile row (R200). -/
def zeroRow : List Word := List.replicate 64 0

/-- An entry of a tile at the issue of a word that writes it: one that holds nothing takes +0.0 (R200), or of a spilled
tile what its slots hold (R214). -/
def Entry.fresh (spilled : Bool) (e : Entry) : Entry := if spilled then { e with inSlot := true } else { e with words := zeroRow, inSlot := false }

/-- The tile entries that a word binds (R200): those of its threads that held nothing before it. -/
def freshRows (s : State) (uid g tile : Nat) (ts : List Nat) : State :=
  modGroup s uid g (fun x => modName x .acc tile (fun m => { m with
    entries := ts.foldl (fun es t => modAt es t (Entry.fresh m.spilled)) m.entries }))

/-- One group's part of an `mx` word at its issue (R199, R202, R205, R212): its sources read, its destinations cleared,
its entry in the array queue, in the last clock of the issue, and in its EQ. -/
def mxEff (i : Instr) (tile : Nat) (dst : Bool) (op : Group → List Nat → MxOp) (uid : Nat) (x : Group) (ok : List Nat) (s : State) : State :=
  let id := s.seq
  let dsts := outsOf s.iss.spar i
  let bare := ok.filter (fun t => !(entryOf x .acc tile t).held)
  let s1 := beginWord { s with seq := id + 1 } i uid x.gidx ok false dsts id
  let s2 := if dst then freshRows s1 uid x.gidx tile bare else s1
  let s3 := pushEq s2 uid x.gidx 1 ok id 0 false
  let s4 := modPart s3 x.core x.part (fun p => { p with mxq := p.mxq ++ [⟨uid, x.gidx, id, tile, ok, op x ok, lastClock s x⟩] })
  advanceNext s4 uid x.gidx ok

/-- An `mx` word (R199). (DEDUCED, log 27) -/
def mxWord (i : Instr) (tile : BitVec 7) (dst : Bool) (op : State → Group → List Nat → MxOp) (s : State) : State :=
  laneWord i noDyn addrWord (fun uid x ok s => mxEff i tile.toNat dst (op s) uid x ok s) s

/-- The run of uniform values of field a, and the pair of field b. -/
def runA (s : State) (x : Group) (i : Instr) (n : Nat) : List Word := (List.range n).map (fun k => valA x 0 s.iss.spar i k)
def pairB (s : State) (x : Group) (i : Instr) : Word × Word := (valB x 0 s.iss.spar i 0, valB x 0 s.iss.spar i 1)

/-- `mx.mma` (R205, R206). -/
def execMxMma (d : BitVec 7) (a : BitVec 7) (b : BitVec 7) (s : State) : Host.Outcome State Fault Refusal :=
  .next (mxWord (.mxMma d a b) d true (fun s x _ => .mma (runA s x (.mxMma d a b) 4) (pairB s x (.mxMma d a b)).1 (pairB s x (.mxMma d a b)).2) s)

/-- `mx.mmag` (R207). -/
def execMxMmag (d : BitVec 7) (a : BitVec 7) (b : BitVec 7) (s : State) : Host.Outcome State Fault Refusal :=
  .next (mxWord (.mxMmag d a b) d true (fun s x _ => .mmag (valA x 0 s.iss.spar (.mxMmag d a b) 0) (pairB s x (.mxMmag d a b)).1 (pairB s x (.mxMmag d a b)).2) s)

/-- `mx.mcv` (R208). -/
def execMxMcv (d : BitVec 7) (a : BitVec 7) (b : BitVec 7) (s : State) : Host.Outcome State Fault Refusal :=
  .next (mxWord (.mxMcv d a b) d true (fun s x _ => .mcv (runA s x (.mxMcv d a b) 6) (pairB s x (.mxMcv d a b)).1 (pairB s x (.mxMcv d a b)).2) s)

/-- `mx.zero` (R209). -/
def execMxZero (d : BitVec 7) (s : State) : Host.Outcome State Fault Refusal :=
  .next (mxWord (.mxZero d) d true (fun _ _ _ => .zero) s)

/-- `mx.get` (R209). -/
def execMxGet (d : BitVec 7) (a : BitVec 7) (b : BitVec 7) (s : State) : Host.Outcome State Fault Refusal :=
  .next (mxWord (.mxGet d a b) a false (fun s x ts => .get (128 * s.iss.spar.dx + d.toNat) (ts.map (fun t => (t, valB x t s.iss.spar (.mxGet d a b) 0)))) s)

/-- `mx.put` (R209). -/
def execMxPut (d : BitVec 7) (a : BitVec 7) (b : BitVec 7) (s : State) : Host.Outcome State Fault Refusal :=
  .next (mxWord (.mxPut d a b) d true (fun s x ts => .put (ts.map (fun t => (t, valA x t s.iss.spar (.mxPut d a b) 0)))
    (ts.map (fun t => (t, valB x t s.iss.spar (.mxPut d a b) 0)))) s)

/-- `mx.sto` (R210). -/
def execMxSto (d : BitVec 7) (a : BitVec 7) (s : State) : Host.Outcome State Fault Refusal :=
  .next (mxWord (.mxSto d a) d false (fun s x _ => .sto (runA s x (.mxSto d a) 3)) s)

/-- `mx.rmax` (R209). -/
def execMxRmax (d : BitVec 7) (a : BitVec 7) (s : State) : Host.Outcome State Fault Refusal :=
  .next (mxWord (.mxRmax d a) a false (fun s _ _ => .rmax (128 * s.iss.spar.dx + d.toNat)) s)

/-- `mx.rscale` (R209). -/
def execMxRscale (d : BitVec 7) (a : BitVec 7) (s : State) : Host.Outcome State Fault Refusal :=
  .next (mxWord (.mxRscale d a) d true (fun s x ts => .rscale (ts.map (fun t => (t, valA x t s.iss.spar (.mxRscale d a) 0)))) s)

/-- The words of an entry as they stand: in its resource, or in its slots (R60, R231). -/
def wordsNow (s : State) (u : DUnit) (x : Group) (m : NameSt) (t : Nat) : List Word :=
  let e := (m.entries[entIx m.cls t]?).getD (noEntry m.cls)
  if standsInSlot m e then
    match slotVa u x m with
    | none => e.words
    | some va => match spillGet x.core x.asid s ((List.range (entWords m.cls)).map (fun k => va + slotOff m.cls (entIx m.cls t) + 4 * k)) with
      | .ok ws => ws
      | .error _ => e.words
  else e.words

/-- A permutation register as it stands (R231): the physical register, or its spill slot, whose reading may fail. -/
def permRead (s : State) (u : DUnit) (x : Group) (m : NameSt) : Except (((Nat × Nat) × Nat) ⊕ Nat) (List Word) :=
  let e := (m.entries[0]?).getD (noEntry .perm)
  if standsInSlot m e then
    match slotVa u x m with
    | none => .ok e.words
    | some va => spillGet x.core x.asid s ((List.range 12).map (fun k => va + 4 * k))
  else match m.res with
    | [] => .ok e.words
    | r :: _ => .ok (permReg s x.core x.part [r])

/-- The twelve words of a permutation name as they stand (R231); none where it is not declared. -/
def permNow (s : State) (u : DUnit) (x : Group) (n : Nat) : List Word :=
  match nameOf x .perm n with
  | none => []
  | some m => match permRead s u x m with
    | .ok ws => ws
    | .error _ => ((m.entries[0]?).getD (noEntry .perm)).words

/-- The slot addresses of a permutation name that stands in its slot. -/
def permSlots (u : DUnit) (x : Group) (n : Nat) : List Nat :=
  match nameOf x .perm n with
  | none => []
  | some m => if standsInSlot m ((m.entries[0]?).getD (noEntry .perm)) then
      (match slotVa u x m with | none => [] | some va => (List.range 12).map (fun k => va + 4 * k)) else []

/-- The reading of a permutation name's slot fails (R360, R371): the group's fatal condition, or its unit's rollback. -/
def permFails (s : State) (u : DUnit) (x : Group) (n : Nat) : Option State :=
  match nameOf x .perm n with
  | none => none
  | some m => match permRead s u x m with
    | .ok _ => none
    | .error (.inl f) => some (startTrap s u.uid x.gidx (spillCond s x f.1 f.2) true)
    | .error (.inr sec) => some (consumePoison s u.uid x.gidx sec [])

/-- The permutation of a generator: its map, or the condition met (R211, R231); 99 stands for ROUTE 4. (DEDUCED, log 28) -/
def genMap (s : State) (u : DUnit) (x : Group) (pm : Nat) : Except Nat (List Nat) :=
  match nameOf x .perm pm with
  | none => .error 7
  | some m =>
    if !((m.entries[0]?).any (·.held)) && !((recOf x.kernel .perm pm).any (·.pin)) then .error 7
    else
      let ws := permNow s u x pm
      if !permOk ws then .error 99 else if permSize ws ≠ x.width then .error 7 else .ok (permMap ws)

/-- A code of R203. -/
def fmtOk (f : Nat) : Bool := 1 ≤ f && f ≤ 4

/-- The conditions on the record, handle and panel that every step shares (R203, R204, R211), as DETAIL and ADDR. -/
def panelConds (rs : Option Rsv) (panel : Nat) : List (Nat × Nat) :=
  match rs with
  | none => [(4, 0)]
  | some r =>
    let w := r.record
    let fmt := recFmt w
    (if fld w.toNat 26 24 ≠ 0 ∨ fld w.toNat 11 0 ≠ 0 then [(1, 0)] else []) ++
    (if !fmtOk fmt || (recB16 w && fmt != 2) then [(2, 0)] else []) ++
    (if fmtOk fmt && (decide ((panel + 1) * panelBytes fmt > 1024 * r.size) ||
        (fmt ≤ 2 && decide (recSoff w + 64 * scaleBytes (recB16 w) * (panel + 1) > 1024 * r.size))) then [(5, 0)] else [])

/-- The first byte of several ranges that lies outside the unit's buffers (R205, R208). -/
def firstOutside (u : DUnit) (core : Nat) (rs : List (Nat × Nat)) : List (Nat × Nat) :=
  match rs.findSome? (fun r => outsideByte u core r.1 r.2) with
  | none => []
  | some a => [(6, apertureVa a)]

/-- The conditions of `mx.mma` (R205, R211). (DEDUCED, log 26) -/
def mmaConds (u : DUnit) (x : Group) (rs : Option Rsv) (desc : List Word) (panel : Nat) (ts : List Nat) : List (Nat × Nat) :=
  let w := fun k => ((desc[k]?).getD 0).toNat
  let afmt := fld (w 1) 19 16
  (if fld (w 0) 31 22 ≠ 0 ∨ fld (w 1) 31 20 ≠ 0 ∨ fld (w 2) 31 22 ≠ 0 ∨ fld (w 3) 31 16 ≠ 0 then [(1, 0)] else []) ++
  (if !fmtOk afmt then [(2, 0)] else []) ++ panelConds rs panel ++
  (if w 0 % 16 ≠ 0 ∨ fld (w 1) 15 0 % 16 ≠ 0 then [(9, 0)] else []) ++
  (match rs with
   | none => []
   | some r =>
     let fmt := recFmt r.record
     (if afmt ≠ fmt then [(3, 0)] else []) ++
     (if fmtOk fmt then firstOutside u x.core (ts.flatMap (fun i => (fld (w 0) 21 0 + i * fld (w 1) 15 0, kBytes fmt) ::
        (if fmt ≤ 2 then [(fld (w 2) 21 0 + i * fld (w 3) 15 0, scaleBytes (recB16 r.record))] else []))) else []))

/-- The conditions of `mx.mmag` (R207, R211): a PM that must be 0 stands with the reserved bits, a KB of 1 with the formats. (DEDUCED,
log 129) -/
def mmagConds (s : State) (u : DUnit) (x : Group) (rs : Option Rsv) (gen panel : Nat) : List (Nat × Nat) :=
  let k := fld gen 31 28
  (if fld gen 27 8 ≠ 0 ∨ fld gen 6 4 ≠ 0 ∨ (k ≠ 0 ∧ fld gen 3 0 ≠ 0) then [(1, 0)] else []) ++
  (if k > 2 ∨ (k = 1 ∧ bitN gen 7) then [(2, 0)] else []) ++ panelConds rs panel ++
  (if k = 0 then (match genMap s u x (fld gen 3 0) with | .ok _ => [] | .error d => [(d, 0)]) else [])

/-- The conditions of `mx.mcv` (R208, R211). -/
def mcvConds (u : DUnit) (x : Group) (rs : Option Rsv) (shape : List Word) (panel : Nat) (ts : List Nat) : List (Nat × Nat) :=
  let h := shapeOf shape
  let w := fun k => ((shape[k]?).getD 0).toNat
  (if fld (w 0) 27 22 ≠ 0 ∨ fld (w 5) 31 24 ≠ 0 then [(1, 0)] else []) ++
  (if h.xfmt ≠ 1 ∧ h.xfmt ≠ 3 ∧ h.xfmt ≠ 4 then [(2, 0)] else []) ++ panelConds rs panel ++
  (if h.base % 16 ≠ 0 then [(9, 0)] else []) ++
  (match rs with
   | none => []
   | some r =>
     (if h.xfmt ≠ recFmt r.record then [(3, 0)] else []) ++
     (if h.ow = 0 then [] else firstOutside u x.core (ts.flatMap (fun i => (List.range 32).filterMap (fun k =>
        match shapeElem h panel i k with | some (some a) => some (a, if h.xfmt = 1 then 1 else 2) | _ => none)))))

/-- The row size of a store format (R210). -/
def stoSize (ofmt : Nat) : Nat := if ofmt = 0 then 256 else 128

/-- A row's address (R210). -/
def stoVa (desc : List Word) (i : Nat) : Nat :=
  let w := fun k => ((desc[k]?).getD 0).toNat
  (w 1 * 2 ^ 32 + w 0 + i * fld (w 2) 23 0) % 2 ^ 64

/-- The physical address of a row, or none where it is misaligned or unreachable (R210, R211). -/
def stoPa (s : State) (u : DUnit) (x : Group) (va size : Nat) : Option Nat :=
  if va % size ≠ 0 then none
  else match vlocOf va with
    | .wptr _ => none
    | _ => match memCheck s x.core x.asid .stoRow u.chk va size with
      | .ok pa => some pa
      | .error _ => none

/-- The conditions of `mx.sto` (R210, R211). -/
def stoConds (s : State) (u : DUnit) (x : Group) (desc : List Word) (ts : List Nat) : List (Nat × Nat) :=
  let w2 := ((desc[2]?).getD 0).toNat
  let ofmt := fld w2 31 28
  (if fld w2 27 24 ≠ 0 then [(1, 0)] else []) ++
  (if ofmt ≠ 0 ∧ ofmt ≠ 3 ∧ ofmt ≠ 4 then [(2, 0)]
   else match ts.find? (fun i => (stoPa s u x (stoVa desc i) (stoSize ofmt)).isNone) with
     | none => []
     | some i => [(8, stoVa desc i)])

/-- The bytes of a stored row (R210). -/
def stoBytes (ofmt : Nat) (row : List Word) : List Byte :=
  if ofmt = 0 then bytesOfWords row
  else row.flatMap (fun w => bytesOfNat 2 (cvtFmt f32 (if ofmt = 3 then f16 else bf16) 1 false w.toNat))

/-- The conditions that a word meets when it starts (R211). (DEDUCED, log 25) -/
def mxConds (s : State) (u : DUnit) (x : Group) (e : MxEntry) : List (Nat × Nat) :=
  let p := partOf (coreOf s x.core) x.part
  match e.op with
  | .mma desc handle panel => mmaConds u x (rsvOf p e.uid e.g handle) desc panel.toNat e.tids
  | .mmag gen handle panel => mmagConds s u x (rsvOf p e.uid e.g handle) gen.toNat panel.toNat
  | .mcv shape handle panel => mcvConds u x (rsvOf p e.uid e.g handle) shape panel.toNat e.tids
  | .sto desc => stoConds s u x desc e.tids
  | .zero => []
  | .get _ _ => []
  | .put _ _ => []
  | .rmax _ => []
  | .rscale _ => []

/-- The lowest DETAIL of several (R211, R296). (DEDUCED, log 32) -/
def firstDetail : List (Nat × Nat) → Option (Nat × Nat)
  | [] => none
  | c :: l => match firstDetail l with
    | none => some c
    | some d => if c.1 ≤ d.1 then some c else some d

/-- A value for a lane from a list of them. -/
def forTid (l : List (Nat × Word)) (t : Nat) : Word := (mget l t).getD 0

/-- The reservation of a word's handle (R191). -/
def opRsv (p : Part) (e : MxEntry) : Option Rsv :=
  match e.op with
  | .mma _ h _ => rsvOf p e.uid e.g h
  | .mmag _ h _ => rsvOf p e.uid e.g h
  | .mcv _ h _ => rsvOf p e.uid e.g h
  | _ => none

/-- The ranges of a panel: its columns, and their scales (R204). -/
def panelRanges (core part : Nat) (r : Rsv) (panel : Nat) : List (Nat × Nat) :=
  let fmt := recFmt r.record
  let base := obufPa core part (1024 * r.start)
  let nb := 64 * scaleBytes (recB16 r.record)
  (base + panel * panelBytes fmt, panelBytes fmt) :: (if fmt ≤ 2 then [(base + recSoff r.record + nb * panel, nb)] else [])

/-- The ranges of operand bytes that a word reads at HOME (R201, R204-R208). -/
def opRanges (core part : Nat) (e : MxEntry) (r : Rsv) : List (Nat × Nat) :=
  match e.op with
  | .mma desc _ panel =>
    let w := fun k => ((desc[k]?).getD 0).toNat
    let fmt := recFmt r.record
    panelRanges core part r panel.toNat ++ e.tids.flatMap (fun t => (scratchPa core (fld (w 0) 21 0 + t * fld (w 1) 15 0), kBytes fmt) ::
      (if fmt ≤ 2 then [(scratchPa core (fld (w 2) 21 0 + t * fld (w 3) 15 0), scaleBytes (recB16 r.record))] else []))
  | .mmag _ _ panel => panelRanges core part r panel.toNat
  | .mcv shape _ panel =>
    let h := shapeOf shape
    panelRanges core part r panel.toNat ++ (if h.ow = 0 then [] else e.tids.flatMap (fun t => (List.range 32).filterMap (fun k =>
      match shapeElem h panel.toNat t k with | some (some a) => some (scratchPa core a, if h.xfmt = 1 then 1 else 2) | _ => none)))
  | _ => []

/-- The rows that a word writes, from the operand bytes and the old rows that it read (R206-R209). An output width of 0
leaves the position of a row open: the row is then a free value (DESIGN CHOICE, log 11). -/
def runRows (core part : Nat) (r : MxRun) : List (Nat × List Word) :=
  let e := r.ent
  let rd := bytesRead r.reads
  let old := fun (t : Nat) => (mget r.olds t).getD zeroRow
  let step := fun (panel : Word) (row : Rsv → List (List (Fl × Fl)) → Nat → List Word) =>
    match r.rsv with
    | none => []
    | some v => let cols := panelCols rd core part v panel.toNat
                e.tids.map (fun t => (t, row v cols t))
  if r.cond.isSome then []
  else match e.op with
  | .mma desc _ panel =>
    let w := fun k => ((desc[k]?).getD 0).toNat
    step panel (fun v cols t =>
      let a := aRow rd core (recFmt v.record) (recB16 v.record) (fld (w 0) 21 0 + t * fld (w 1) 15 0) (fld (w 2) 21 0 + t * fld (w 3) 15 0)
      ((old t).zip cols).map (fun oc => stepAcc oc.1 (a.zip oc.2)))
  | .mmag gen _ panel =>
    step panel (fun _ cols t =>
      let ks := genRows (fld gen.toNat 31 28) (fld gen.toNat 7 7) r.map t
      if ks.isEmpty then old t
      else ((old t).zip cols).map (fun oc => stepAcc oc.1 (ks.map (fun k => ((flOne, flOne), (oc.2[k]?).getD (.nan, .nan))))))
  | .mcv shape _ panel =>
    let h := shapeOf shape
    step panel (fun _ cols t =>
      if h.ow = 0 then (List.range 64).map (fun j => Config.freeWord (r.free + 64 * t + j))
      else ((old t).zip cols).map (fun oc => stepAcc oc.1 ((shapeRow rd core h panel.toNat t).zip oc.2)))
  | .zero => e.tids.map (fun t => (t, zeroRow))
  | .put vals cols => e.tids.map (fun t => (t, setAt (old t) ((forTid cols t).toNat % 64) (forTid vals t)))
  | .rscale exps => e.tids.map (fun t => (t, (old t).map (fun w => BitVec.ofNat 32 (fLdexp 1 false w.toNat (forTid exps t).toInt))))
  | .get _ _ => []
  | .rmax _ => []
  | .sto _ => []

/-- The value of thread t's row that a word reads (R202): the one that the latest earlier word of the array leaves, or the
row itself. (DEDUCED, log 37) -/
def oldRow (s : State) (u : DUnit) (x : Group) (tile t : Nat) : List Word :=
  match (partOf (coreOf s x.core) x.part).mxrun.reverse.findSome? (fun r =>
    if r.ent.uid == u.uid && r.ent.g == x.gidx && r.ent.tile == tile then mget (runRows x.core x.part r) t else none) with
  | some row => row
  | none => match nameOf x .acc tile with
    | none => zeroRow
    | some m => wordsNow s u x m t

/-- The largest element of a row (R106, R209). -/
def rowMax : List Word → Word
  | [] => 0
  | w :: l => BitVec.ofNat 32 (l.foldl (fun a v => fMinMax f32 true a v.toNat) (fMinMax f32 true w.toNat w.toNat))

/-- The lane values that a word writes, from the rows that it read (R209). -/
def runLanes (r : MxRun) : List (Nat × Word) :=
  let old := fun (t : Nat) => (mget r.olds t).getD zeroRow
  match r.ent.op with
  | .get _ cols => r.ent.tids.map (fun t => (t, ((old t)[(forTid cols t).toNat % 64]?).getD 0))
  | .rmax _ => r.ent.tids.map (fun t => (t, rowMax (old t)))
  | _ => []

/-- The rows that `mx.sto` stores: thread, address, bytes (R210). -/
def runStores (r : MxRun) : List (Nat × Nat × List Byte) :=
  match r.ent.op with
  | .sto desc => r.ent.tids.map (fun t => (t, stoVa desc t, stoBytes (fld ((desc[2]?).getD 0).toNat 31 28) ((mget r.olds t).getD zeroRow)))
  | _ => []

/-- The blocks of 8 rows that hold a present thread (R212). -/
def blocksOf (ts : List Nat) : List Nat := nub (ts.map (· / 8))

/-- The occupancy of a word without a condition (R212). -/
def mxOcc (s : State) (x : Group) (e : MxEntry) : Nat :=
  let b := (blocksOf e.tids).length
  let step := fun (handle : Word) => match rsvOf (partOf (coreOf s x.core) x.part) e.uid e.g handle with
    | none => b
    | some r => if recFmt r.record = 2 then 2 * b else if recFmt r.record = 1 then 4 * b else 8 * b
  match e.op with
  | .mma _ h _ => step h
  | .mmag _ h _ => step h
  | .mcv _ h _ => step h
  | .sto _ => 2 * b
  | .zero => b
  | .get _ _ => b
  | .put _ _ => b
  | .rmax _ => b
  | .rscale _ => b

/-- The word writes tile rows (R214). -/
def MxOp.writesRows : MxOp → Bool
  | .mma _ _ _ => true | .mmag _ _ _ => true | .mcv _ _ _ => true | .zero => true | .put _ _ => true | .rscale _ => true
  | .get _ _ => false | .sto _ => false | .rmax _ => false

/-- The rows of a spilled tile that its staging tile does not hold yet. -/
def unstaged (m : NameSt) (ts : List Nat) : List Nat :=
  let bs := blocksOf ts
  (List.range m.entries.length).filter (fun i => bs.contains (i / 8) && (m.entries[i]?).any (fun e => e.wt == 0 && (e.inSlot || !m.staged)))

/-- One row of a staging tile filled from its slots (R214, R371). -/
def fillRow (s : State) (uid g tile row : Nat) : State :=
  match unitOf s uid, groupOf s uid g with
  | some u, some x => match nameOf x .acc tile with
    | none => s
    | some m => match slotVa u x m with
      | none => s
      | some va => match spillGet x.core x.asid s ((List.range 64).map (fun k => va + 256 * row + 4 * k)) with
        | .error (.inl f) => startTrap s uid g (spillCond s x f.1 f.2) true
        | .error (.inr sec) => consumePoison s uid g sec []
        | .ok ws => modGroup s uid g (fun y => modName y .acc tile (fun k => modEntry k row (fun e => { e with words := ws, inSlot := false })))
  | _, _ => s

/-- The fill of a spilled tile before its word's occupancy (R214), and the blocks filled. `mx.zero` fills nothing. -/
def stageTile (s : State) (x : Group) (e : MxEntry) : State × Nat :=
  match nameOf x .acc e.tile with
  | none => (s, 0)
  | some m =>
    if !m.spilled || e.op == .zero then (s, 0)
    else
      let rows := unstaged m e.tids
      let s1 := takeStaging s x.core x.part e.uid e.g .acc e.tile
      let s2 := if m.staged then s1 else modGroup s1 e.uid e.g (fun y => modName y .acc e.tile (fun k => { k with
        staged := true, entries := k.entries.map (fun t => if t.wt == 0 then { t with inSlot := true } else t) }))
      (rows.foldl (fun s r => fillRow s e.uid e.g e.tile r) s2, (blocksOf rows).length)

/-- A word's tile gets what its slots hold before the word's occupancy: a spilled one in a staging tile (R214), a readmitted one in
the lowest free blocks or, where there are none, spilled again (R65), with the blocks filled. -/
def readyTile (s : State) (u : DUnit) (x : Group) (e : MxEntry) : State × Nat :=
  match nameOf x .acc e.tile with
  | none => (s, 0)
  | some m =>
    let rows := (fillEntries 0 m).map (·.1)
    let filled := fun (s : State) (r : List Nat) => (fillName s u x { m with res := r } false, (blocksOf rows).length)
    if m.spilled || e.op == .zero || rows.isEmpty || m.entries.any (fun k => k.wt != 0) then stageTile s x e
    else if !m.res.isEmpty then filled s m.res
    else match (if quotaLeft s x m.owner .acc then freeRes s x .acc false else none) with
      | some r => filled (setRes s e.uid e.g 0 m.owner .acc e.tile r) r
      | none =>
        let s1 := markSpilled s e.uid e.g 0 .acc e.tile
        stageTile s1 ((groupOf s1 e.uid e.g).getD x) e

/-- The reads of a word that watchpoints see (R346). -/
def mxReadHits (s : State) (c : Cmd) (rs : List (Nat × Nat)) : State := rs.foldl (fun s r => watchCmd s s c false r.1 r.2) s

/-- The permutation name that a word's generator reads (R207). -/
def opPerm (e : MxEntry) : Option Nat :=
  match e.op with
  | .mmag gen _ _ => if fld gen.toNat 31 28 = 0 then some (fld gen.toNat 3 0) else none
  | _ => none

/-- The spill slots that a word reads when it starts: a generator's register, and a tile's rows that stand in them (R65, R214, R231). -/
def mxSlots (u : DUnit) (x : Group) (e : MxEntry) : List Nat :=
  ((opPerm e).map (permSlots u x)).getD [] ++ (match nameOf x .acc e.tile with
    | none => []
    | some m => match slotVa u x m with
      | none => []
      | some va => if e.op == .zero then [] else if !m.spilled then (fillEntries va m).flatMap (·.2) else (unstaged m e.tids).flatMap (fun r => (List.range 64).map (fun k => va + 256 * r + 4 * k)))

/-- The run of a word that starts, with what it has read (R201, R213). -/
def runOf (s : State) (u : DUnit) (x : Group) (e : MxEntry) (start occ back : Nat) : MxRun :=
  let rsv := opRsv (partOf (coreOf s x.core) x.part) e
  { ent := e, start := start, occ := occ, endClk := start + occ + 10 + back
    reads := ((rsv.map (opRanges x.core x.part e)).getD []).map (fun r => (r.1, homeRead s r.1 r.2))
    olds := if e.op == .zero then [] else e.tids.map (fun t => (t, oldRow s u x e.tile t))
    rsv := rsv
    map := match opPerm e with | none => [] | some n => (match genMap s u x n with | .ok m => m | .error _ => [])
    free := s.free, cond := none }

/-- A word of a partition's array queue starts (R65, R202, R211, R212, R214). (DEDUCED, log 33) (DESIGN CHOICE, log 59) -/
def startMx (s : State) (core part : Nat) (e : MxEntry) (u : DUnit) (x : Group) (q : EqEntry) : State :=
  let fill := readyTile (countEvent s core part x.dom 5 1) u x e
  let s1 := startEq (countEvent fill.1 core part x.dom 11 (if fill.2 = 0 then 0 else 1)) e.uid e.g 1 e.eq
  let y := (groupOf s1 e.uid e.g).getD x
  let b := (blocksOf e.tids).length
  let start := Nat.max (clkOf s core) (partOf (coreOf s core) part).mxBusy + 2 * fill.2
  let back := if (nameOf y .acc e.tile).any (·.spilled) && e.op.writesRows then 2 * b else 0
  let rest := fun (p : Part) => p.mxq.filter (fun m => m != e)
  match firstDetail (mxConds s1 u y e) with
  | some d =>
    let cd := if d.1 = 99 then (0x24, 4) else (0x23, d.1)
    let c := asyncCond s1 y 1 q cd d.2 false e.tids e.tids
    let run : MxRun := ⟨e, start, b, start + b + 10, [], [], none, [], 0, some c⟩
    raiseAsync (modPart s1 core part (fun p => { p with mxq := rest p, mxrun := p.mxrun ++ [run], mxBusy := start + b })) e.uid e.g c false
  | none =>
    let run := runOf s1 u y e start (mxOcc s1 y e) back
    let free := match e.op with | .mcv shape _ _ => if (shapeOf shape).ow = 0 then 64 * 64 else 0 | _ => 0
    modPart { mxReadHits s1 (cmdOf y e.uid 1 y.dom y.asid q) (run.reads.map (fun r => (r.1, r.2.length))) with free := s.free + free } core part
      (fun p => { p with mxq := rest p, mxrun := p.mxrun ++ [run], mxBusy := start + run.occ })

/-- The head of a partition's array queue: the first word whose group is not swapped out (R212, R354). -/
def mxHead (s : State) (core part : Nat) : Option MxEntry :=
  (partOf (coreOf s core) part).mxq.find? (fun e => !(groupOf s e.uid e.g).any (fun x => x.dbg.mode == 1))

/-- A word that cannot read its generator's register from the slot ends without a step (R360, R371). -/
def dropHead (s : State) (core part : Nat) (e : MxEntry) : State :=
  finEq (modPart s core part (fun p => { p with mxq := p.mxq.filter (fun m => m != e) })) e.uid e.g 1 e.eq

/-- MX_START (R212): c + 2, or c + 6 for `mx.mcv`, the array free, and the entry of R97. -/
def execMxStart (core part : Nat) (s : State) : Host.Outcome State Fault Refusal :=
  .next (
    let p := partOf (coreOf s core) part
    match mxHead s core part with
    | none => s
    | some e => match unitOf s e.uid, groupOf s e.uid e.g with
      | some u, some x => match eqOf x 1 e.eq with
        | none => s
        | some q =>
          let front := match e.op with | .mcv _ _ _ => 6 | _ => 2
          if clkOf s core < e.clk + front || clkOf s core < p.mxBusy || !mayStart s e.uid e.g 1 e.eq then s
          else
            let f := spillFetch core x.dom x.asid (mxSlots u x e) s
            if !f.2 then f.1
            else match (opPerm e).bind (permFails (dropHead f.1 core part e) u x) with
              | some t => t
              | none => startMx f.1 core part e u x q
      | _, _ => modPart s core part (fun p => { p with mxq := p.mxq.filter (fun m => m != e) }))

/-- The lane destination of a word (R209). -/
def MxOp.lane : MxOp → Option Nat
  | .get d _ => some d | .rmax d => some d
  | .mma _ _ _ => none | .mmag _ _ _ => none | .mcv _ _ _ => none | .zero => none | .put _ _ => none | .sto _ => none | .rscale _ => none

/-- The word stores rows to memory (R210). -/
def MxOp.isSto : MxOp → Bool
  | .sto _ => true
  | .mma _ _ _ => false | .mmag _ _ _ => false | .mcv _ _ _ => false | .zero => false | .get _ _ => false | .put _ _ => false | .rmax _ => false
  | .rscale _ => false

/-- The array's run without its entry for a word. -/
def dropRun (s : State) (core part : Nat) (e : MxEntry) : State :=
  modPart s core part (fun p => { p with mxrun := p.mxrun.filter (fun r => !(r.ent.eq == e.eq && r.ent.uid == e.uid && r.ent.g == e.g)) })

/-- The rows and lane destinations of a finished run are written and set full (R206, R212, R214, R296). -/
def writeRun (s : State) (core part : Nat) (r : MxRun) : State :=
  let e := r.ent
  let s1 := match r.cond with
    | some _ => modGroup s e.uid e.g (fun x =>
        let x1 := if e.op.writesRows then e.tids.foldl (fun x t => onEntry x .acc e.tile t (fun _ k => k.keep e.eq)) x else x
        match e.op.lane with
        | none => x1
        | some d => e.tids.foldl (fun x t => onEntry x .lane d t (fun _ k => k.keep e.eq)) x1)
    | none => modGroup s e.uid e.g (fun x =>
        let x1 := (runRows core part r).foldl (fun x tr => writeEntry x .acc e.tile tr.1 e.eq tr.2) x
        match e.op.lane with
        | none => x1
        | some d => (runLanes r).foldl (fun x tv => writeEntry x .lane d tv.1 e.eq [tv.2]) x1)
  let s2 := if (groupOf s1 e.uid e.g).any (fun x => (nameOf x .acc e.tile).any (fun m => m.spilled && m.entries.any (fun k => k.wt != 0)))
    then flushName s1 e.uid e.g 0 .acc e.tile else s1
  finEq s2 e.uid e.g 1 e.eq

/-- A run's lane destinations and rows are the next writes of their entries (R54). -/
def runNext (s : State) (r : MxRun) : Bool :=
  match groupOf s r.ent.uid r.ent.g with
  | none => true
  | some x =>
    (match r.ent.op.lane with | none => true | some d => nextWrite x .lane (r.ent.tids.map (fun t => (t, d))) r.ent.eq) &&
    (!r.ent.op.writesRows || nextWrite x .acc (r.ent.tids.map (fun t => (t, r.ent.tile))) r.ent.eq)

/-- The oldest run of an array that is not a store and has come to its end: s + O + 10, with the written-back blocks of R214 (R212). -/
def doneRun (s : State) (core part : Nat) : Option MxRun :=
  (partOf (coreOf s core) part).mxrun.find? (fun r => (!r.ent.op.isSto || r.cond.isSome) && decide (r.endClk ≤ clkOf s core) && runNext s r)

/-- MX_DONE (R212): a word of the array finishes. -/
def execMxDone (core part : Nat) (s : State) : Host.Outcome State Fault Refusal :=
  .next (match doneRun s core part with
    | none => s
    | some r => writeRun (dropRun s core part r.ent) core part r)

/-- One stored row performs, or in a checked unit enters the commit buffer; there each row is an item (R210, R331, R334). -/
def storeRow (s : State) (u : DUnit) (x : Group) (c : Cmd) (row : Nat × Nat × List Byte) : State :=
  let item := fun (s : State) => modGroup s u.uid x.gidx (fun y => modThread y row.1 (fun h => { h with items := addItem h.items c.id row.2.1 row.2.2 }))
  match stoPa s u x row.2.1 row.2.2.length with
  | none => s
  | some pa =>
    if bufferedPa u pa then
      let n := 1 + row.2.2.length / 32
      if (coreOf s x.core).cbuf + n > 8192 then cbufTake s x.core u.uid x.gidx n
      else
        let p : PoolEntry :=
          { id := s.seq, uid := u.uid, g := x.gidx, t := row.1, kind := .store, va := row.2.1, pa := pa, data := row.2.2, size := row.2.2.length,
            ord := 8, scope := 4, set := c.id, onPath := false, buffered := true, host := isHost pa, dom := c.dom, widx := c.widx, word := c.word, after := none }
        item (modCore { cbufTake s x.core u.uid x.gidx n with seq := s.seq + 1 } x.core (fun k => { k with pool := k.pool ++ [p] }))
    else if u.chk then item (engPut s c pa row.2.2)
    else engPut s c pa row.2.2

/-- The sectors that stored rows cover in part come through the L2 (R80): `false` while a transfer is still to bring one (R361, R363). -/
def fetchRows (s : State) (u : DUnit) (x : Group) (rows : List (Nat × Nat × List Byte)) : State × Bool :=
  writeFetchAll s x.dom (rows.filterMap (fun r => match stoPa s u x r.2.1 r.2.2.length with
    | none => none
    | some pa => if bufferedPa u pa then none else some (pa, r.2.2.length)))

/-- MX_STO_ROWS_PERFORMED (R210, R212): the rows of the group's oldest finished `mx.sto` perform in ascending thread, and
the word finishes. -/
def execMxStoRowsPerformed (uid g : Nat) (s : State) : Host.Outcome State Fault Refusal :=
  .next (match unitOf s uid, groupOf s uid g with
  | some u, some x =>
    match (partOf (coreOf s x.core) x.part).mxrun.find? (fun r => r.ent.uid == uid && r.ent.g == g && r.ent.op.isSto && r.cond.isNone) with
    | none => s
    | some r => match eqOf x 1 r.ent.eq with
      | none => s
      | some q =>
        let f := fetchRows s u x (runStores r)
        if clkOf s x.core < r.endClk then s
        else if !f.2 then f.1
        else
          let s1 := (runStores r).foldl (fun s row => storeRow s u x (cmdOf x uid 1 x.dom x.asid q) row) (dropRun f.1 x.core x.part r.ent)
          finEq s1 uid g 1 r.ent.eq
  | _, _ => s)

/-- The KiB of a partition's operand buffer that are free. -/
def kibFree (p : Part) (k : Nat) : Bool := !(p.rsvs.any (fun r => decide (r.start ≤ k) && decide (k < r.start + r.size)))

/-- The reservation that `ob.rsv` takes (R191): the lowest free slot, the lowest run, room in CORE.DPART.OBUF. -/
def rsvPick (s : State) (x : Group) (k : Nat) : Option (Nat × Nat) :=
  let p := partOf (coreOf s x.core) x.part
  let used := sumOf ((p.rsvs.filter (fun r => r.owner == x.slot)).map (·.size))
  if used + k > dpObuf (rdReg s (.dpart x.core x.slot)) then none
  else match (List.range 32).find? (fun n => !(p.rsvs.any (fun r => r.slot == n + 1))),
      (List.range (193 - k)).find? (fun n => (List.range k).all (fun j => kibFree p (n + j))) with
    | some n, some st => some (n + 1, st)
    | _, _ => none

/-- `ob.rsv` (R191). -/
def execObRsv (d : BitVec 7) (a : BitVec 7) (s : State) : Host.Outcome State Fault Refusal :=
  .next (
    let i : Instr := .obRsv d a
    groupWord i (fun s x => if (gA s x i).toNat = 0 ∨ (gA s x i).toNat > 192 then [(0x22, 2)] else []) addrWord (fun uid x ts s =>
      let k := (gA s x i).toNat
      match rsvPick s x k with
      | none => groupResult i 2 0 uid x ts s
      | some (slot, st) =>
        let s1 := modPart s x.core x.part (fun p => { p with rsvs := p.rsvs ++ [⟨slot, st, k, uid, x.gidx, gA1 s x i, x.slot, x.dom⟩] })
        groupResult i 2 (BitVec.ofNat 32 (st * 2 ^ 16 + k * 2 ^ 8 + slot)) uid x ts s1) s)

/-- The condition of a handle that the group does not hold (R191, R292). -/
def handleCond (s : State) (x : Group) (h : Word) : List (Nat × Nat) :=
  match unitOf s s.iss.uid with
  | none => []
  | some u => if (rsvOf (partOf (coreOf s x.core) x.part) u.uid x.gidx h).isNone then [(0x22, 1)] else []

/-- `ob.rel` (R191): the group waits until its matrix words have finished. -/
def execObRel (a : BitVec 7) (s : State) : Host.Outcome State Fault Refusal :=
  .next (groupWord (.obRel a) (fun s x => handleCond s x (gA s x (.obRel a))) addrWord (fun uid x ts s =>
    groupWait (.obRel a) (.obRel ((gA s x (.obRel a)).toNat % 256)) uid x ts s) s)

/-- `ob.rec` (R191): the group waits until its matrix words have finished. -/
def execObRec (a : BitVec 7) (s : State) : Host.Outcome State Fault Refusal :=
  .next (groupWord (.obRec a) (fun s x => handleCond s x (gA s x (.obRec a))) addrWord (fun uid x ts s =>
    groupWait (.obRec a) (.obRec ((gA s x (.obRec a)).toNat % 256) (gA1 s x (.obRec a))) uid x ts s) s)

/-- The group's waiting `ob` word may take effect: oc.mx is 0, and the group takes releases (R191, R319). -/
def obReady (s : State) (uid g : Nat) : Option (DUnit × Group) :=
  match unitOf s uid, groupOf s uid g with
  | some u, some x => if (x.oc[1]?).getD 0 = 0 && canRelease s u x then some (u, x) else none
  | _, _ => none

/-- OB_RELEASE_FREE (R191). -/
def execObReleaseFree (uid g : Nat) (s : State) : Host.Outcome State Fault Refusal :=
  .next (match obReady s uid g with
  | none => s
  | some (_, x) => match x.wait.kind with
    | .obRel slot => releaseWait (modPart s x.core x.part (fun p => { p with
        rsvs := p.rsvs.filter (fun r => !(r.uid == uid && r.g == g && r.slot == slot)) })) uid g
    | _ => s)

/-- OB_RECORD_REPLACE (R191). -/
def execObRecordReplace (uid g : Nat) (s : State) : Host.Outcome State Fault Refusal :=
  .next (match obReady s uid g with
  | none => s
  | some (_, x) => match x.wait.kind with
    | .obRec slot w => releaseWait (modPart s x.core x.part (fun p => { p with
        rsvs := p.rsvs.map (fun r => if r.uid == uid && r.g == g && r.slot == slot then { r with record := w } else r) })) uid g
    | _ => s)

end Sys2Proof.Machine
end

