-- ==== Sys2Proof/Machine/Traps.lean ====
section
/-! DEFINITION. How traps and debug stops run (R298-R309, R314, R319, R341, R342, R347-R351): the words waited for, the
swap-out of a hit group, the frame, handler entry, held conditions, and the arrival of stop broadcasts. -/

namespace Sys2Proof.Machine

open Sys2Proof

/-- The entries of a TQ that cannot complete before the trap is handled: the parked ones, and those they block (R89, R297);
in a halted slot, or of a group that the debugger has stopped, all that are still to leave it (R94, R314, R349). -/
def stuckIds (s : State) (x : Group) (tq : List TqEntry) : List Nat :=
  if slotState s x.core x.slot == 2 || x.dbg.mode == 1 || x.dbg.mode == 2 then (tq.filter (fun e => !e.pooled)).map (·.id)
  else (tq.foldl (fun acc e => if e.parked.isSome || acc.any (fun o => blocks s x o e) then acc ++ [e] else acc) []).map (·.id)

/-- The stuck entries of a group's threads, with those set aside. -/
def groupStuck (s : State) (x : Group) : List Nat := x.threads.flatMap (fun h => stuckIds s x h.tq ++ h.aside.map (·.id))

/-- The issue set of a load waits behind a stuck entry that is not parked. -/
def setStuck (s : State) (u : DUnit) (l : LoadSet) : Bool :=
  u.groups.any (fun x => x.threads.any (fun h => h.tq.any (fun e => e.set == l.id && e.parked.isNone && (stuckIds s x h.tq).contains e.id)))

/-- The loads whose writes cannot come before the trap is handled: a thread's access is parked, or waits behind a stuck entry (R297, R314). -/
def stuckLoads (s : State) (u : DUnit) (core : Nat) : List Nat :=
  ((coreOf s core).loads.filter (fun l => l.uid == u.uid && (setStuck s u l || l.mem.any (·.2.2)))).map (·.id)

/-- The write numbered `id` stands behind one of some writes in an entry of its destinations (R54). -/
def behind (x : Group) (ids : List Nat) (c : NClass) (dsts : List (Nat × Nat)) (id : Nat) : Bool :=
  dsts.any (fun tn => ((entryOf x c tn.2 tn.1).q.takeWhile (fun k => k != id)).any ids.contains)

/-- A load set's destinations in a group. -/
def LoadSet.entries (l : LoadSet) (g : Nat) : List (Nat × Nat) := (l.mem.filter (fun m => m.1.1 == g)).flatMap (fun m => l.dsts.map (fun n => (m.1.2, n)))

/-- The words that a group issued have completed and written their destinations (R298: clock w): stores that have still to leave their
TQ, results in flight, loads and atomics, and the lane destinations of `mx.get` and `mx.rmax`; but not what waits for an access that
cannot complete before the trap is handled. (DEDUCED, log 47) -/
def wordsDone (s : State) (u : DUnit) (x : Group) : Bool :=
  let c := coreOf s x.core
  let p := partOf c x.part
  let stuck := groupStuck s x
  let loads := stuckLoads s u x.core
  let lane := fun (m : MxEntry) => m.uid == u.uid && m.g == x.gidx &&
    !((eqOf x 1 m.eq).any (fun e => e.deps.any (fun d => stuck.contains d))) &&
    (match m.op.lane with | none => false | some d => !behind x loads .lane (m.tids.map (fun t => (t, d))) m.eq)
  !(x.threads.any (fun h => h.tq.any (fun e => e.kind == .store && !stuck.contains e.id))) &&
  !(c.pend.any (fun q => q.uid == u.uid && q.g == x.gidx && !behind x loads q.cls (q.vals.map (fun v => (v.1, v.2.1))) q.id)) &&
  !(c.loads.any (fun l => l.uid == u.uid && l.mem.any (fun m => m.1.1 == x.gidx && !m.2.2) && !setStuck s u l &&
    !behind x loads (if l.uniform then .uniform else .lane) (l.entries x.gidx) l.id)) &&
  !(slotRuns s x.core x.slot && x.dbg.mode != 1 && p.mxq.any lane) && !(p.mxrun.any (fun r => lane r.ent))

/-- The word at which a thread stands is a group-set word (R301 TST 2). -/
def standsAtGroupWord (s : State) (x : Group) (t : Nat) : Bool :=
  (threadOf x t).any (fun h => decide (h.off < 4 * x.kernel.nwords) && (wordsAtOff s x h.off).2.msb)

/-- A thread of a group that forms no candidates any more (R46, R47): it joins no PC table, but its arrival at a group-set word
stays. -/
def keepArrival (s : State) (x : Group) (h : Thread) : Thread :=
  { h with ready := if standsAtGroupWord s x h.tid then h.ready else none, joined := false }

/-- The frame index of a group (R299). -/
def frameIx (x : Group) : Nat := 64 * x.part + 4 * x.tslot + x.base / 8

/-- The virtual address of a group's swap block (R343). -/
def swapVa (s : State) (x : Group) : Nat := 2 ^ 21 * fld (rdReg s (.dbgctl x.core x.slot)) 55 21 + 0x30100 * frameIx x

/-- The resources of a hit group that its swap-out writes out (R348), in ascending class, then number. -/
def swapNames (s : State) (uid : Nat) (x : Group) : List (Nat × NameSt) :=
  sortBy (fun lm => 4096 * clsCode lm.2.cls + lm.2.num) ((levelNames x).filter (fun lm =>
    !lm.2.res.isEmpty && !((recOf (levelKernel x lm.1) lm.2.cls lm.2.num).any (·.pin)) &&
    !(((List.range lm.2.entries.length).zip lm.2.entries).any (fun ie => ie.2.q.any (fun id => !inTq (coreOf s x.core) uid x.gidx ie.1 id)))))

/-- A name is written out and its slots' bytes written (R47, R60); one for which no slots are left stays bound and is counted (R316,
R317), one whose slots cannot be written stays bound (R371). -/
def swapName (uid g : Nat) (s : State) (lm : Nat × NameSt) : State :=
  if !canSlot s uid g lm.2 then (match groupOf s uid g with
    | none => s
    | some x => countNoslot s x.core lm.2.owner)
  else
  let s1 := giveSlot s uid g lm.1 lm.2.cls lm.2.num
  match slotFault s1 uid g lm.1 lm.2.cls lm.2.num with
  | some e => writeOutFailed s1 uid g lm.1 lm.2.cls lm.2.num e
  | none => flushName (writeOutName s1 uid g lm.1 lm.2.cls lm.2.num true) uid g lm.1 lm.2.cls lm.2.num

/-- The words of a byte range paired with their addresses. -/
def wordsFrom (va : Nat) (bs : List Byte) : List (Nat × Word) := (List.range (bs.length / 4)).map (fun i => (va + 4 * i, wordAt bs (4 * i)))

/-- The reservations of a group. -/
def groupRsvs (s : State) (uid : Nat) (x : Group) : List Rsv := (partOf (coreOf s x.core) x.part).rsvs.filter (fun r => r.uid == uid && r.g == x.gidx)

/-- The handle of a reservation (R191). -/
def Rsv.handle (r : Rsv) : Nat := r.start * 2 ^ 16 + r.size * 2 ^ 8 + r.slot

/-- The swap block's words (R348): each reservation's bytes, and the header of handles and record words. -/
def swapWords (s : State) (uid : Nat) (x : Group) : List (Nat × Word) :=
  let va := swapVa s x
  let rs := groupRsvs s uid x
  rs.flatMap (fun r => wordsFrom (va + 256 + 1024 * r.start) (homeRead s (obufPa x.core x.part (1024 * r.start)) (1024 * r.size))) ++
  (List.range 32).flatMap (fun i => match rs.find? (fun r => r.slot == i + 1) with
    | none => [(va + 8 * i, 0), (va + 8 * i + 4, 0)]
    | some r => [(va + 8 * i, BitVec.ofNat 32 r.handle), (va + 8 * i + 4, r.record)])

/-- The swap-out of a hit group (R348, R371). -/
def swapOut (s : State) (u : DUnit) (x : Group) : State :=
  let s1 := (swapNames s u.uid x).foldl (swapName u.uid x.gidx) s
  match spillPut x.core x.dom x.asid (swapWords s u.uid x) s1 with
  | .error e => startTrap s1 u.uid x.gidx (spillCond s x e.1 e.2) true
  | .ok s2 => modPart s2 x.core x.part (fun p => { p with rsvs := p.rsvs.filter (fun r => !(r.uid == u.uid && r.g == x.gidx)) })

/-- FRAMES of CORE.DBGSTAT rises with a debug frame of the unit that it shows (R353). -/
def countFrame (s : State) (u : DUnit) : State :=
  match slotOfDom s u.home u.dom with
  | none => s
  | some k => let v := rdReg s (.dbgstat u.home k)
    if fld v 59 44 = u.lid ∧ fld v 43 20 = u.unitidx then wrReg s (.dbgstat u.home k) (setFld v 19 4 (fld v 19 4 + 1)) else s

/-- The threads that stand at the breakpoint that stopped their group, with its PC, join those that pass one once (R355). -/
def atBreakpoint (x : Group) : List (Nat × Nat) :=
  x.dbg.skip ++ (match x.dbg.brk with
    | none => []
    | some off => ((x.threads.filter (fun h => !h.exited && h.off == off)).map (fun h => (h.tid, entryVa x.kernel + off))).filter (fun p => !x.dbg.skip.contains p))

/-- A group that has written its debug frame stands stopped (R348, R349, R354); a trap beside it waits for the resume (R356). -/
def dbgStopped (s : State) (u : DUnit) (x : Group) (t : Trap) (swapped : Bool) : State :=
  countFrame (modGroup s u.uid x.gidx (fun y => { y with
    dbg := ⟨if swapped then 1 else 2, t.dbg, 0, atBreakpoint x, swapped, none⟩
    trap := if t.cond.isDebug then none else y.trap.map (fun r => { r with dbg := 0 })
    threads := y.threads.map (fun h => { h with stepLeft := 0 }) })) u

/-- After a fatal trap in a gable call the callee returns without its counter wait (R309): parked entries are discarded. (DEDUCED, log 69) -/
def gableAbort (s : State) (uid : Nat) (x : Group) : State :=
  let s1 := x.threads.foldl (fun s h => (h.tq.filter (fun e => e.parked.isSome) ++ h.aside).foldl (fun s e => giveUpLoad s x.core uid x.gidx h.tid e.set) s) s
  modGroup s1 uid x.gidx (fun y => { y with
    trap := none
    wait := ⟨.gateRet 0, 0, clkOf s x.core, true⟩
    threads := y.threads.map (fun h => { setTq (coreOf s y.core) h (h.tq.filter (fun e => e.parked.isNone)) with aside := [], cond := none, inHandler := false }) })

/-- A group writes its trap frame in this clock (R298, R319, R341, R342): its words had completed at the end of an earlier one; only a
stop broadcast lets the write-outs of a pause finish first. -/
def frameDue (s : State) (u : DUnit) (x : Group) : Bool :=
  u.cancel == 0 && x.trap.any (fun t => t.frame == 0 && t.ready) && wordsDone s u x &&
  !(x.trap.any (·.bcast) && x.pause.any (fun p => !p.moves.isEmpty))

/-- TRAP_FRAME_WRITE (R298, R305, R348, R351): once the group's words have completed the frame is written, after the
swap-out of a hit group. -/
def execTrapFrameWrite (uid g : Nat) (s : State) : Host.Outcome State Fault Refusal :=
  .next (match unitOf s uid, groupOf s uid g with
  | some u, some x => match x.trap with
    | none => s
    | some t =>
      if !frameDue s u x then s
      else
        let hit := decide (128 ≤ t.dbg) && t.dbg / 16 % 8 != 4
        let s1 := if hit then swapOut s u x else s
        let s2 := writeFrame s1 uid g (standsAtGroupWord s x)
        match groupOf s2 uid g with
        | none => s2
        | some y => match y.trap with
          | none => s2
          | some r =>
            if r.fatal then (if y.gstack.isEmpty || u.fatalClk.isSome || r.cond.cause == 0x30 then s2 else gableAbort s2 uid y)
            else if t.dbg ≠ 0 then dbgStopped s2 u x r hit else s2
  | _, _ => s)

/-- HANDLER_ENTRY (R303, R314, R319, R342): the clock after the frame, with the slot running, no pause and no debug stop. -/
def execHandlerEntry (uid g : Nat) (s : State) : Host.Outcome State Fault Refusal :=
  .next (match unitOf s uid, groupOf s uid g with
  | some u, some x => match x.trap with
    | none => s
    | some t =>
      if t.frame = 1 && !t.fatal && decide (t.frameClk < clkOf s x.core) && canRelease s u x && x.dbg.mode == 0 && u.rollPhase == 0 && x.stopAt.isNone
      then enterHandler s uid g else s
  | _, _ => s)

/-- The conditions that a group's threads hold: those that have left the handler (R304), and those that have exited (R318). -/
def threadHeld (x : Group) : List Cond := x.threads.filterMap (fun h => if h.inHandler then none else h.cond)

/-- The oldest of some conditions (R304). -/
def oldestCond : List Cond → Option Cond
  | [] => none
  | c :: l => match oldestCond l with
    | none => some c
    | some d => if olderCond d c then some d else some c

/-- HELD_TRAP_TAKEN (R304, R319): the oldest held condition is taken as a new trap. -/
def execHeldTrapTaken (uid g : Nat) (s : State) : Host.Outcome State Fault Refusal :=
  .next (match unitOf s uid, groupOf s uid g with
  | some u, some x =>
    let ts := threadHeld x
    if x.trap.isSome || inHandler x || x.dbg.mode != 0 || u.cancel != 0 then s
    else match oldestCond (x.heldConds ++ ts) with
      | none => s
      | some c =>
        let s1 := if x.heldConds.contains c then startTrap (modGroup s uid g (fun y => { y with heldConds := y.heldConds.filter (fun d => d != c) })) uid g c false
          else s
        (sortLt olderCond ts).foldl (fun s d => startTrap s uid g d false) s1
  | _, _ => s)

/-- The STOP trap of a group that a fatal broadcast reaches (R306): a trap not yet framed keeps the older word's condition,
a written frame is overwritten (R314, R356). (DEDUCED, log 48) -/
def stopTrap (s : State) (x : Group) : Trap :=
  match x.trap with
  | some t => if t.frame = 0 && !t.cond.isDebug then { t with fatal := true, more := true, bcast := true }
    else ⟨stopCond s x 1 0 [], true, 0, false, 0, 0, none, clkOf s x.core, false, true⟩
  | none => ⟨stopCond s x 1 0 [], true, 0, false, 0, 0, none, clkOf s x.core, false, true⟩

/-- STOP_BROADCAST_ARRIVAL (R306, R349, R350, R356): a fatal stop, or a debug stop, reaches a group; one that is stopped stays so. -/
def execStopBroadcastArrival (uid g : Nat) (s : State) : Host.Outcome State Fault Refusal :=
  .next (match unitOf s uid, groupOf s uid g with
  | some u, some x => match x.stopAt with
    | none => s
    | some (core, at1, kind) =>
      if !reached s (core, at1) then s
      else if kind = 1 then
        modGroup s uid g (fun y => { y with
          stopAt := none
          dbg := if y.dbg.mode = 1 || y.dbg.mode = 2 then y.dbg else ⟨0, 0, 0, [], y.dbg.swapped, none⟩
          trap := if y.trap.any (fun t => t.fatal) then y.trap else some (stopTrap s x) })
      else match x.trap with
        | none => modGroup s uid g (fun y => { y with
            stopAt := none
            trap := some ⟨{ debugCond s x 0xFFFFFFFF 0 0 0 [] (liveTids x) false false with cls := 0 }, false, 0, false, u.dbgSrc, 0, none, clkOf s x.core, false, true⟩ })
        | some t =>
          if t.fatal && t.frame != 0 then modGroup s uid g (fun y => { y with stopAt := none })
          else modGroup s uid g (fun y => { y with stopAt := none, trap := some { t.stopped u.dbgSrc (clkOf s x.core) none with bcast := true } })
  | _, _ => s)

end Sys2Proof.Machine
end

