-- ==== Sys2Proof/Machine/Debug.lean ====
section
/-! DEFINITION. The debugger's commands and queries (R347, R352-R357): hit reports, resume, step, stop, step end and DBGQ. -/

namespace Sys2Proof.Machine

open Sys2Proof

/-- WATCH_HIT_REPORT (R347, R351): the report reaches the issuing group's core; the group is a hit group if its slot's EN
is 1 and it is neither stopped nor ended. (DEDUCED, log 72) -/
def execWatchHitReport (id : Nat) (s : State) : Host.Outcome State Fault Refusal :=
  .next (match s.reports.find? (fun r => r.id == id) with
  | none => s
  | some r =>
    let s1 := { s with reports := s.reports.filter (fun q => q.id != id) }
    match groupOf s1 r.uid r.g with
    | none => s1
    | some x =>
      let w := wordsAtOff s1 x (4 * r.widx)
      hitGroup s1 r.uid r.g (debugCond s1 x r.widx w.1 r.word r.addr (liveTids x) (liveTids x) true false) 2 r.reg (some r))

/-- The names of a group, of its calls too, that a claim or a swap wrote out and that are charged to some slots are bound
again in ascending name number, or become spilled (R66, R315, R316, R354). -/
def rebindNames (s : State) (uid g : Nat) (slots : Nat → Bool) : State :=
  match groupOf s uid g with
  | none => s
  | some x => (sortBy (fun lm => lm.2.num) ((levelNames x).filter (fun lm => lm.2.claimed && slots lm.2.owner))).foldl (fun s lm =>
      let q := bindName s uid g lm.1 lm.2.owner lm.2.cls lm.2.num false
      if q.2 then q.1 else if canSlot q.1 uid g lm.2 then markSpilled q.1 uid g lm.1 lm.2.cls lm.2.num else q.1) s

/-- Words of a swap block, or the fatal condition of the group that a failing read raises (R371), or its poison (R360). -/
def swapRead (s : State) (u : DUnit) (x : Group) (vas : List Nat) : State × List Word :=
  match spillGet x.core x.asid s vas with
  | .ok ws => (s, ws)
  | .error (.inl f) => (startTrap s u.uid x.gidx (spillCond s x f.1 f.2) true, [])
  | .error (.inr sec) => (consumePoison s u.uid x.gidx sec [], [])

/-- The addresses of a swap block's header (R348). -/
def headerVas (s : State) (x : Group) : List Nat := (List.range 64).map (fun i => swapVa s x + 4 * i)

/-- The reservations that a swap block's header keeps (R348): slot, handle, record word; none when it cannot be read. (DEDUCED, log 71) -/
def swapHeader (s : State) (x : Group) : List (Nat × Nat × Word) :=
  match spillGet x.core x.asid s (headerVas s x) with
  | .error _ => []
  | .ok ws => (List.range 32).filterMap (fun i =>
      let h := (ws[2 * i]?).getD 0
      if h = 0 then none else some (i + 1, h.toNat, (ws[2 * i + 1]?).getD 0))

/-- The addresses in the swap block of a reservation's bytes (R348). -/
def rsvVas (s : State) (x : Group) (h : Nat) : List Nat :=
  (List.range (256 * fld h 15 8)).map (fun i => swapVa s x + 256 + 1024 * fld h 23 16 + 4 * i)

/-- A swapped-out group's block comes through the L2: `false` while a transfer is still to bring some of it (R80). -/
def swapFetch (s : State) (x : Group) : State × Bool :=
  let h := blockFetch x.core x.dom x.asid (swapVa s x) 256 s
  if !h.2 then h else spillFetch x.core x.dom x.asid ((swapHeader h.1 x).flatMap (fun e => rsvVas s x e.2.1)) h.1

/-- The reservations of a swapped-out group can be retaken in their old slots and offsets (R354). -/
def swapFree (s : State) (x : Group) : Bool :=
  let p := partOf (coreOf s x.core) x.part
  (swapHeader s x).all (fun e => !(p.rsvs.any (fun r => r.slot == e.1 || overlap r.start r.size (fld e.2.1 23 16) (fld e.2.1 15 8))))

/-- A reservation of a swap block's header is retaken and its bytes copied back (R354). -/
def rsvIn (u : DUnit) (x : Group) (s : State) (e : Nat × Nat × Word) : State :=
  let start := fld e.2.1 23 16
  let s1 := modPart s x.core x.part (fun p => { p with rsvs := p.rsvs ++ [⟨e.1, start, fld e.2.1 15 8, u.uid, x.gidx, e.2.2, x.slot, x.dom⟩] })
  let r := swapRead s1 u x (rsvVas s x e.2.1)
  homeWrite r.1 (obufPa x.core x.part (1024 * start)) (bytesOfWords r.2)

/-- The group's swap block stands in the way of a command: a reservation's place is taken, or its bytes are still on their
way (R354). -/
def swapHeld (s : State) (x : Group) : Bool := x.dbg.mode == 1 && x.dbg.swapped && !swapFree s x

/-- A swapped-out group takes its names and reservations again; the reservations' bytes are copied back (R354, R371). -/
def swapIn (u : DUnit) (s : State) (x : Group) : State :=
  if x.dbg.mode ≠ 1 || !x.dbg.swapped then s
  else
    let s1 := rebindNames s u.uid x.gidx (fun _ => true)
    let s2 := (swapHeader s x).foldl (rsvIn u x) (swapRead s1 u x (headerVas s x)).1
    modGroup s2 u.uid x.gidx (fun y => { y with dbg := { y.dbg with swapped := false } })

/-- The swap blocks of some groups come through the L2 before they are copied back (R80, R354). -/
def fetchAll (s : State) (xs : List Group) : State × Bool :=
  xs.foldl (fun q x => if x.dbg.mode ≠ 1 || !x.dbg.swapped then q else let r := swapFetch q.1 x
    (r.1, q.2 && r.2)) (s, true)

/-- The unit that a command of a slot names, homed on the core (R352). -/
def dbgUnit (s : State) (core slot v : Nat) : Option DUnit :=
  s.units.find? (fun u => u.home == core && u.dom == domDom (rdReg s (.domtab core slot)) && slotState s core slot != 0 &&
    u.lid == fld v 115 100 && u.unitidx == fld v 99 76 && u.primary && u.cancel == 0)

/-- The answer of a command stands in CORE.DBGCMD (R352): GO 0 when taken (1) or refused (2). -/
def dbgAnswer (s : State) (core slot v ans : Nat) : State := wrReg s (.dbgcmd core slot) (setFld (setFld (setFld v 127 127 0) 62 61 ans) 60 0 0)

/-- A command that waits shows GO = 1. -/
def dbgWaits (s : State) (core slot v : Nat) : State := wrReg s (.dbgcmd core slot) (setFld (setFld v 62 61 0) 60 0 0)

/-- The unit is stopped with all its frames written (R352, R353). -/
def dbgAllStopped (u : DUnit) : Bool :=
  u.dbgSrc != 0 && u.groups.all (fun x => x.ended || ((x.dbg.mode == 1 || x.dbg.mode == 2) && x.stopAt.isNone))

/-- The effect of a resume command on its slot. -/
def resumeCmd (core slot v : Nat) (s : State) : State :=
    if fld v 126 124 ≠ 1 || !bitN v 127 then s
    else match dbgUnit s core slot v with
    | none => dbgAnswer s core slot v 2
    | some u =>
      if !dbgAllStopped u then dbgAnswer s core slot v 2
      else
        let f := fetchAll s u.groups
        if !f.2 || u.groups.any (swapHeld f.1) then dbgWaits f.1 core slot v
        else
          let s2 := modUnit (u.groups.foldl (swapIn u) f.1) u.uid (fun w => { w with dbgSrc := 0, groups := w.groups.map (fun x => { x with
            dbg := ⟨0, 0, 0, x.dbg.skip, false, none⟩, threads := x.threads.map (fun h => { keepArrival f.1 x h with skid := 0 }) }) })
          dbgAnswer (dbgStatClear s2 u) core slot v 1

/-- DBG_RESUME (R355): every group forms candidates again, a swapped-out one bound again. -/
def execDbgResume (core slot v : Nat) (s : State) : Host.Outcome State Fault Refusal := .next (resumeCmd core slot v s)

/-- The effect of a step command on its slot. -/
def stepCmd (core slot v : Nat) (s : State) : State :=
    let n := fld v 123 116
    if fld v 126 124 ≠ 2 || !bitN v 127 then s
    else match dbgUnit s core slot v with
    | none => dbgAnswer s core slot v 2
    | some u => match groupIn u (fld v 75 63) with
      | none => dbgAnswer s core slot v 2
      | some x =>
        if !dbgAllStopped u || n == 0 || x.ended then dbgAnswer s core slot v 2
        else
          let f := fetchAll s [x]
          if !f.2 || swapHeld f.1 x then dbgWaits f.1 core slot v
          else
            let s1 := modGroup (swapIn u f.1 x) u.uid x.gidx (fun y => { y with
              dbg := ⟨3, y.dbg.src, n, y.dbg.skip, false, none⟩
              threads := y.threads.map (fun h => if h.exited then h else { keepArrival f.1 x h with stepLeft := n, skid := 0 }) })
            dbgAnswer s1 core slot v 1

/-- DBG_STEP (R354): one group runs alone for a number of words. -/
def execDbgStep (core slot v : Nat) (s : State) : Host.Outcome State Fault Refusal := .next (stepCmd core slot v s)

/-- The effect of a stop command on its slot. -/
def stopCmd (core slot v : Nat) (s : State) : State :=
    if fld v 126 124 ≠ 3 || !bitN v 127 then s
    else match dbgUnit s core slot v with
    | none => dbgAnswer s core slot v 2
    | some u => if u.dbgSrc ≠ 0 then dbgAnswer s core slot v 2 else dbgAnswer (dbgBroadcast (dbgStatStop s u 5 true) u core none 80) core slot v 1

/-- DBG_STOP (R350): every group of the unit receives the stop broadcast from its home core; none is a hit group. -/
def execDbgStop (core slot v : Nat) (s : State) : Host.Outcome State Fault Refusal := .next (stopCmd core slot v s)

/-- The fences of a gable word are done, and a call's descriptor stands at fault or finds room in its target (R194, R308). -/
def callOpen (s : State) (x : Group) (idx tag : Nat) : Bool :=
  tag != 0 && fencesDone x tag &&
  (match memCheck s x.core x.asid .engRead false (domGbase (rdReg s (.domtab x.core x.slot)) + 64 * idx) 64 with
   | .error _ => true
   | .ok pa => match gableCheck s x idx (gableOf (homeRead s pa 64)) with
     | .error _ => true
     | .ok tk => gableRoom s x (gableOf (homeRead s pa 64)) tk.1)

/-- A group stands in a waiting word whose condition is not met (R354). -/
def standsWaiting (s : State) (u : DUnit) (x : Group) : Bool :=
  match x.wait.kind with
  | .none => false
  | .bar _ _ => !x.wait.woken
  | .wt _ => !x.wait.woken
  | .oc cls thr => decide (thr < (x.oc[cls]?).getD 0)
  | .mwait _ _ loading => !loading && !x.wait.woken
  | .dwait => !prodsTriggered s u
  | .obRel _ => (x.oc[1]?).getD 0 != 0
  | .obRec _ _ => (x.oc[1]?).getD 0 != 0
  | .gateCall idx tag => !callOpen s x idx tag
  | .gateRet tag => !(tag != 0 && fencesDone x tag && x.gstack.head?.all (fun f => slotRuns s x.core f.slot))

/-- A step of a group ends in this clock (R354): every thread has issued its words or exited, the group stands in a wait that is not met,
or it meets a trap. -/
def stepDue (s : State) (u : DUnit) (x : Group) : Bool :=
  x.dbg.mode == 3 && (match x.trap with
    | some t => t.dbg == 0 && !(t.fatal && t.frame != 0)
    | none => (liveThreads x).all (fun h => h.stepLeft == 0) || standsWaiting s u x)

/-- DBG_STEP_END (R354): every thread has issued its words or exited, the group waits, or it meets a trap; it halts in
place and writes a frame of kind 4. -/
def execDbgStepEnd (uid g : Nat) (s : State) : Host.Outcome State Fault Refusal :=
  .next (match unitOf s uid, groupOf s uid g with
  | some u, some x =>
    if !stepDue s u x then s
    else match x.trap with
      | some t => dbgStatStop (modGroup s uid g (fun y => { y with trap := some (t.stopped 192 (clkOf s x.core) none) })) u 4 true
      | none => dbgStatStop (modGroup s uid g (fun y => { y with
            trap := some ⟨{ debugCond s x 0xFFFFFFFF 0 0 0 [] (liveTids x) false false with cls := 0 }, false, 0, false, 192, 0, none, clkOf s x.core, false, false⟩ })) u 4 true
  | _, _ => s)

/-- The 320 bytes of a query's result (R357). -/
def queryBytes (s : State) (u : DUnit) (x : Group) (c : NClass) (n : Nat) : List Byte :=
  match nameOf x c n with
  | none => bindRec x c n ++ List.replicate 256 0
  | some m =>
    let word := fun (t : Nat) => match wordsNow s u x m t with | [] => (0 : Word) | w :: _ => w
    bindRec x c n ++ (match c with
      | .lane => (List.range 64).flatMap (fun t => if t < x.width then bytesOfNat 4 (word t).toNat else [0, 0, 0, 0])
      | .uniform => (List.range 64).flatMap (fun t => if t < x.width then bytesOfNat 4 (word 0).toNat else [0, 0, 0, 0])
      | .perm => bytesOfWords (wordsNow s u x m 0) ++ List.replicate 208 0
      | .acc => List.replicate 256 0)

/-- The effect of a write of CORE.DBGQ. -/
def queryCmd (core v : Nat) (s : State) : State :=
    let s1 := wrReg s (.dbgq core) (setFld (setFld v 127 124 0) 96 0 0)
    if !bitN v 127 then s1
    else
      let found := s.units.findSome? (fun u => (u.groups.find? (fun x =>
        x.core == core && x.part == fld v 123 120 && x.tslot == fld v 119 116 && x.base == fld v 115 111)).map (fun x => (u, x)))
      let bs := match found with
        | none => List.replicate 320 0
        | some (u, x) => if fld v 110 108 ≥ 4 then List.replicate 320 0 else queryBytes s u x (classOf (fld v 110 108)) (fld v 107 97)
      modCore s1 core (fun c => { c with dbgqr := bs })

/-- DBG_QUERY (R357): a query of CORE.DBGQ; its result stands in CORE.DBGQR. -/
def execDbgQuery (core v : Nat) (s : State) : Host.Outcome State Fault Refusal := .next (queryCmd core v s)

end Sys2Proof.Machine
end

