-- ==== Sys2Proof/Machine/Solver.lean ====
section
/-! DEFINITION. The permutation words and the route solver (R216-R228, R296). -/

namespace Sys2Proof.Machine

open Sys2Proof

/-- The twelve words of a permutation name of a group. -/
def permOfName (x : Group) (n : Nat) : List Word := (entryOf x .perm n 0).words

/-- The size code of a group width (R216). -/
def widthCode (w : Nat) : Nat := if w = 8 then 0 else if w = 16 then 1 else if w = 32 then 2 else 3

/-- The issue of a solver operation (R221, R222): its sources read, its destination cleared, its place in the solver's queue. -/
def pmEff (i : Instr) (dst : Nat) (op : RtOp) (uid : Nat) (x : Group) (ts : List Nat) (s : State) : State :=
  let id := s.seq
  let fresh := !((entryOf x .perm dst 0).held) && !((recOf x.kernel .perm dst).any (·.pin))
  let s1 := beginWord { s with seq := id + 1 } i uid x.gidx ts true (outsOf s.iss.spar i) id
  let s2 := pushEq s1 uid x.gidx 3 ts id 0 false
  let s3 := modCore s2 x.core (fun c => { c with solverQ := c.solverQ ++ [⟨uid, x.gidx, id, dst, fresh, op, s.iss.clk, 0, s.iss.spar.cc, []⟩] })
  advanceNext s3 uid x.gidx ts

/-- A solver word. -/
def pmWord (i : Instr) (dst : Nat) (op : State → Group → List Nat → RtOp) (s : State) : State :=
  groupWord i noGDyn addrWord (fun uid x ts s => pmEff i dst (op s x ts) uid x ts s) s

/-- A direct word that writes a register two clocks on (R222, R224). -/
def pmDirect (i : Instr) (dyn : State → Group → List (Nat × Nat)) (ws : State → Group → List Word) (s : State) : State :=
  groupWord i dyn addrWord (fun uid x ts s =>
    let id := s.seq
    let dsts := outsOf s.iss.spar i
    let s1 := beginWord { s with seq := id + 1 } i uid x.gidx ts true dsts id
    let s2 := pushPend s1 x.core ⟨id, uid, x.gidx, .perm, dsts.map (fun d => (0, d.2, ws s x)), s.iss.clk + 2⟩
    advanceNext s2 uid x.gidx ts) s

/-- A register that holds a bad saved form (R294). -/
def badForm (x : Group) (n : Nat) : List (Nat × Nat) := if permOk (permOfName x n) then [] else [(0x24, 4)]

/-- `pm.load` (R223). -/
def execPmLoad (d : BitVec 7) (a : BitVec 7) (s : State) : Host.Outcome State Fault Refusal :=
  .next (pmWord (.pmLoad d a) d.toNat (fun s x ts => .load (ts.map (fun t => (t, valA x t s.iss.spar (.pmLoad d a) 0)))
    ((x.threads.filter (·.exited)).map (·.tid))) s)

/-- `pm.ident` (R224). -/
def execPmIdent (d : BitVec 7) (w : BitVec 7) (s : State) : Host.Outcome State Fault Refusal :=
  .next (pmDirect (.pmIdent d w) noGDyn (fun _ _ => permIdent w.toNat) s)

/-- `pm.comp` (R225). -/
def execPmComp (d : BitVec 7) (a : BitVec 7) (b : BitVec 7) (s : State) : Host.Outcome State Fault Refusal :=
  .next (pmWord (.pmComp d a b) d.toNat (fun _ x _ => .comp (permOfName x a.toNat) (permOfName x b.toNat)) s)

/-- `pm.inv` (R224). -/
def execPmInv (d : BitVec 7) (a : BitVec 7) (s : State) : Host.Outcome State Fault Refusal :=
  .next (pmDirect (.pmInv d a) (fun _ x => badForm x a.toNat) (fun _ x => permInverse (permOfName x a.toNat)) s)

/-- `pm.rand` (R226). -/
def execPmRand (d : BitVec 7) (a : BitVec 7) (w : BitVec 7) (s : State) : Host.Outcome State Fault Refusal :=
  .next (pmWord (.pmRand d a w) d.toNat (fun s x _ =>
    .rand (BitVec.ofNat 64 ((gA s x (.pmRand d a w)).toNat + (gA1 s x (.pmRand d a w)).toNat * 2 ^ 32)) (128 * s.iss.spar.ax + a.toNat) w.toNat) s)

/-- `pm.cyc` (R227). -/
def execPmCyc (d : BitVec 7) (a : BitVec 7) (s : State) : Host.Outcome State Fault Refusal :=
  .next (groupWord (.pmCyc d a) (fun _ x => badForm x a.toNat) addrWord (fun uid x ts s =>
    groupResult (.pmCyc d a) 4 (BitVec.ofNat 32 (cycleCount (permMap (permOfName x a.toNat)))) uid x ts s) s)

/-- `pm.save` (R228). -/
def execPmSave (d : BitVec 7) (a : BitVec 7) (s : State) : Host.Outcome State Fault Refusal :=
  .next (pmWord (.pmSave d a) 16 (fun s x _ => .save (gD s x (.pmSave d a)).toNat (permOfName x a.toNat)) s)

/-- `pm.rest` (R228). -/
def execPmRest (d : BitVec 7) (a : BitVec 7) (s : State) : Host.Outcome State Fault Refusal :=
  .next (pmWord (.pmRest d a) d.toNat (fun s x _ => .rest (gA s x (.pmRest d a)).toNat) s)

/-- L(N) by size code (R221). -/
def solverL (code : Nat) : Nat := if code = 0 then 12 else if code = 1 then 20 else if code = 2 then 32 else 48

/-- The clocks that an operation occupies the solver (R221). -/
def solverD (width : Nat) : RtOp → Nat
  | .load _ _ => solverL (widthCode width)
  | .comp a _ => 4 + solverL (permCode a)
  | .rand _ _ size => 8 * 2 ^ size - 1 + solverL size
  | .save _ _ => 4
  | .rest _ => 4

/-- The threads of an index vector that break R223: a value of N or above, or that of a lower thread (R296). -/
def badVec (n : Nat) : List (Nat × Word) → List Nat → List Nat
  | [], _ => []
  | (t, v) :: l, seen =>
    if v.toNat ≥ n || seen.contains v.toNat then t :: badVec n l (v.toNat :: seen) else badVec n l (v.toNat :: seen)

/-- The condition of an operation (R296): DETAIL, ADDR, LMASK (none for every non-exited thread); `bytes` those that
`pm.rest` read. -/
def rtCond (u : DUnit) (x : Group) (bytes : List Byte) : RtOp → Option (Nat × Nat × Option (List Nat))
  | .load vec _ => match badVec x.width vec [] with
    | [] => none
    | t :: ts => some (1, t * 2 ^ 32 + (forThread vec t).toNat, some (t :: ts))
  | .comp a b => if !permOk a || !permOk b then some (4, 0, none) else if permCode a ≠ permCode b then some (2, 0, none) else none
  | .rand _ _ _ => none
  | .save off a => if off % 16 ≠ 0 || !inBuf u x.core off 48 then some (5, apertureVa off, none) else if permOk a then none else some (4, 0, none)
  | .rest off => if off % 16 ≠ 0 || !inBuf u x.core off 48 then some (5, apertureVa off, none)
      else if permOk (wordsOfBytes bytes) then none else some (4, apertureVa (off + permBadByte (wordsOfBytes bytes)), none)
where
  forThread (l : List (Nat × Word)) (t : Nat) : Word := (mget l t).getD 0

/-- The size code that the operation would have written (R296). -/
def rtSize (u : DUnit) (x : Group) (bytes : List Byte) : RtOp → Nat
  | .load _ _ => widthCode x.width
  | .comp a _ => permCode a
  | .rand _ _ size => size
  | .save _ _ => 0
  | .rest off => if off % 16 ≠ 0 || !inBuf u x.core off 48 then widthCode x.width else permCode (wordsOfBytes bytes)

/-- The register that an operation writes (R223-R228). -/
def rtResult (width : Nat) (bytes : List Byte) : RtOp → List Word
  | .load vec exited =>
    let all := sortBy id (vec.map (·.1) ++ exited)
    permOf (widthCode width) (loadVec width vec all (missing width (vec.map (fun v => v.2.toNat))))
  | .comp a b => permOf (permCode a) ((permMap b).map (pAt (permMap a)))
  | .rand st _ size => permOf size (permRand size st).1
  | .save _ a => a
  | .rest _ => wordsOfBytes bytes

/-- The operation has a destination register. -/
def RtOp.writes : RtOp → Bool
  | .save _ _ => false | .load _ _ => true | .comp _ _ => true | .rand _ _ _ => true | .rest _ => true

/-- A solver operation ends with a condition (R296): its destination keeps its settings, or becomes the identity of the
size it would have had, and is set full; `pm.rand`'s pair keeps its value. -/
def failRt (s : State) (u : DUnit) (x : Group) (o : RtEntry) (bytes : List Byte) (q : EqEntry) (c : Nat × Nat × Option (List Nat)) : State :=
  let ts := liveTids x
  let s1 := syncPerm (modGroup s o.uid o.g (fun y =>
    if !o.op.writes then y
    else if o.fresh then writeEntry y .perm o.dst 0 o.eq (permIdent (rtSize u x bytes o.op))
    else onEntry y .perm o.dst 0 (fun _ e => e.keep o.eq))) o.uid o.g o.dst
  raiseAsync (finEq s1 o.uid o.g 3 o.eq) o.uid o.g (asyncCond s1 x 3 q (0x24, c.1) c.2.1 true (c.2.2.getD ts) ts) false

/-- The first waiting operation of a running slot (R221). -/
def solverHead (s : State) (core : Nat) : Option RtEntry :=
  (coreOf s core).solverQ.find? (fun o => (groupOf s o.uid o.g).any (fun x => slotState s core x.slot != 2 && slotState s core x.slot != 3 && !debugHeld x 3))

/-- SOLVER_START (R221, R296): c + 2, the solver free, R97. -/
def execSolverStart (core : Nat) (s : State) : Host.Outcome State Fault Refusal :=
  .next (
    let c := coreOf s core
    match c.solver, solverHead s core with
    | none, some o => match unitOf s o.uid, groupOf s o.uid o.g with
      | some u, some x => match eqOf x 3 o.eq with
        | none => s
        | some q =>
          if c.clk < o.clk + 2 || !mayStart s o.uid o.g 3 o.eq then s
          else
            let cmd := cmdOf x o.uid 3 x.dom x.asid q
            let off := match o.op with | .rest f => if f % 16 = 0 && inBuf u core f 48 then some f else none | _ => none
            let bytes := match off with | none => [] | some f => homeRead s (scratchPa core f) 48
            let t := countEvent s core x.part x.dom 13 1
            let s0 := match off with | none => t | some f => watchCmd t t cmd false (scratchPa core f) 48
            let s1 := modCore (startEq s0 o.uid o.g 3 o.eq) core (fun k => { k with solverQ := k.solverQ.filter (fun r => !(r.eq == o.eq && r.uid == o.uid && r.g == o.g)) })
            match rtCond u x bytes o.op with
            | some d => failRt s1 u x o bytes q d
            | none => modCore s1 core (fun k => { k with solver := some { o with start := c.clk, bytes := bytes } })
      | _, _ => modCore s core (fun k => { k with solverQ := k.solverQ.filter (fun r => !(r.eq == o.eq && r.uid == o.uid && r.g == o.g)) })
    | _, _ => s)

/-- What a `pm.save` keeps once its bytes have left the solver (R228): offset, bytes, the clock t + D. -/
def saveArg (off : Nat) (a : List Word) (clk : Nat) : Nat := off + 2 ^ 32 * natOfBytes (bytesOfWords a) + 2 ^ 416 * clk

/-- The writes of an operation in clock t + D (R221, R226). -/
def rtWrite (s : State) (x : Group) (o : RtEntry) : State :=
  let s1 := if o.op.writes then syncPerm (modGroup s o.uid o.g (fun y => writeEntry y .perm o.dst 0 o.eq (rtResult x.width o.bytes o.op))) o.uid o.g o.dst
    else s
  match o.op with
  | .rand st ka size =>
    let n := (permRand size st).2.toNat
    finEq (modGroup s1 o.uid o.g (fun y => writeEntry (writeEntry y .uniform ka 0 o.eq [BitVec.ofNat 32 n]) .uniform (ka + 1) 0 o.eq [BitVec.ofNat 32 (n / 2 ^ 32)]))
      o.uid o.g 3 o.eq
  | .save off a => modEq s1 o.uid o.g 3 o.eq (fun e => { e with stage := 1, arg := saveArg off a (clkOf s x.core) })
  | .load _ _ => finEq s1 o.uid o.g 3 o.eq
  | .comp _ _ => finEq s1 o.uid o.g 3 o.eq
  | .rest _ => finEq s1 o.uid o.g 3 o.eq

/-- SOLVER_DONE (R221): clock t + D. -/
def execSolverDone (core : Nat) (s : State) : Host.Outcome State Fault Refusal :=
  .next (match (coreOf s core).solver with
  | none => s
  | some o => match groupOf s o.uid o.g with
    | none => modCore s core (fun k => { k with solver := none })
    | some x =>
      if (coreOf s core).clk < o.start + solverD x.width o.op || (o.op.writes && !nextWrite x .perm [(0, o.dst)] o.eq) then s
      else rtWrite (modCore s core (fun k => { k with solver := none })) x o)

/-- PM_SAVE_PERFORMED (R221, R228): after clock t + D the bytes of the group's oldest saved register perform at the scratchpad's HOME. -/
def execPmSavePerformed (uid g : Nat) (s : State) : Host.Outcome State Fault Refusal :=
  .next (match groupOf s uid g with
  | none => s
  | some x => match ((x.eq[3]?).getD []).find? (fun e => e.stage == 1 && !e.fin) with
    | none => s
    | some e =>
      if clkOf s x.core ≤ e.arg / 2 ^ 416 then s
      else finEq (engPut s (cmdOf x uid 3 x.dom x.asid e) (scratchPa x.core (e.arg % 2 ^ 32)) (bytesOfNat 48 (e.arg / 2 ^ 32 % 2 ^ 384))) uid g 3 e.id)

end Sys2Proof.Machine
end

