-- ==== Sys2Proof/Machine/Engines.lean ====
section
/-! DEFINITION. The copy channels and the quantisation engine (R83, R190, R231-R241, R244, R296, R324): the words that
start chains, the walk of a chain, its moves, loops, skips and signals, and its end. -/

namespace Sys2Proof.Machine

open Sys2Proof

/-- A channel of a core: 0 to 3 copy, 4 the quantisation engine. -/
def chanOf (s : State) (core ch : Nat) : Channel := ((coreOf s core).chans[ch]?).getD ⟨[], none⟩

/-- A channel changed. -/
def modChan (s : State) (core ch : Nat) (f : Channel → Channel) : State := modCore s core (fun c => { c with chans := modAt c.chans ch f })

/-- The counter class of a channel's chains (R244). -/
def chanClass (ch : Nat) : Nat := if ch = 4 then 2 else 0

/-- A chain head that R190 does not admit (R294 CHAIN 9). -/
def badHead (u : Option DUnit) (x : Group) (off : Nat) : Bool :=
  decide (off % 32 ≠ 0) || !(u.any (fun u => inBuf u x.core off 32))

/-- A word that hands a chain to a channel (R190, R294, R373). -/
def chainWord (i : Instr) (ch : Nat) (s : State) : State :=
  groupWord i (fun s x =>
      (if ch < 4 && !bitN (dpCpch (rdReg s (.dpart x.core x.slot))) ch then [(0x15, 3)] else []) ++
      (if badHead (issUnit s) x (gA s x i).toNat then [(0x20, 9)] else []))
    (fun s x _ cd => if cd.1 = 0x20 then (gA s x i).toNat else if cd.1 = 0x15 then apertureVa (gA s x i).toNat else issueVa s x)
    (fun uid x ts s =>
      let id := s.seq
      let off := (gA s x i).toNat
      let s1 := beginWord { s with seq := id + 1 } i uid x.gidx ts true [] id
      let s2 := pushEq s1 uid x.gidx (chanClass ch) ts id off false
      let s3 := modChan s2 x.core ch (fun c => { c with waiting := c.waiting ++ [⟨uid, x.gidx, id, off, x.slot, x.dom⟩] })
      advanceNext s3 uid x.gidx ts) s

/-- `eng.copy` (R190). -/
def execEngCopy (d : BitVec 7) (a : BitVec 7) (s : State) : Host.Outcome State Fault Refusal :=
  .next (chainWord (.engCopy d a) d.toNat s)

/-- `eng.quant` (R190). -/
def execEngQuant (a : BitVec 7) (s : State) : Host.Outcome State Fault Refusal := .next (chainWord (.engQuant a) 4 s)

/-- The channel's waiting chain that is taken next: the oldest of a running slot (R190). -/
def nextChain (s : State) (core ch : Nat) : Option ChainReq :=
  (chanOf s core ch).waiting.find? (fun r => slotState s core r.slot != 2 && slotState s core r.slot != 3 &&
    !(groupOf s r.uid r.g).any (fun x => debugHeld x (chanClass ch)))

/-- CHAIN_START (R97, R190, R83): the chain starts; a copy channel's write pointer becomes 0. -/
def execChainStart (core ch : Nat) (s : State) : Host.Outcome State Fault Refusal :=
  .next (match (chanOf s core ch).run, nextChain s core ch with
  | none, some r =>
    if !mayStart s r.uid r.g (chanClass ch) r.eq then s
    else
      let s1 := modChan (startEq s r.uid r.g (chanClass ch) r.eq) core ch (fun c =>
        { waiting := c.waiting.filter (fun q => !(q.eq == r.eq && q.uid == r.uid && q.g == r.g))
          run := some ⟨r, 0, [], [], 0, [], none, clkOf s core, false⟩ })
      modCore s1 core (fun c => { c with cpwp := if ch < 4 then setAt c.cpwp ch 0 else c.cpwp })
  | _, _ => s)

/-- The fields of a move entry (R235), SRC and DST effective (R234). -/
structure Move where
  mode : Nat
  mcast : Nat
  aux : Nat
  rowlen : Nat
  rows : Nat
  src : Nat
  dst : Nat
  sstr : Nat
  dstr : Nat
deriving DecidableEq, Repr

/-- An address plus the advances of the loops whose range holds entry m (R234). -/
def loopAddr (base m : Nat) (its : NMap (Nat × Nat × Nat × Nat)) (adv : Nat × Nat × Nat × Nat → Nat) : Nat :=
  wrapN 64 (its.foldl (fun a l =>
    if decide (l.1 - l.2.2.1 ≤ m) && decide (m < l.1) then a + Int.ofNat l.2.1 * sextN 64 (adv l.2) else a) (Int.ofNat base))

/-- The move of an entry's bytes. -/
def moveOf (r : ChainRun) (b : List Byte) : Move :=
  { mode := numAt b 1 1, mcast := numAt b 2 1, aux := numAt b 3 1, rowlen := numAt b 4 2, rows := numAt b 6 2
    src := loopAddr (numAt b 8 8) r.e r.its (fun l => l.2.2.1), dst := loopAddr (numAt b 16 8) r.e r.its (fun l => l.2.2.2)
    sstr := numAt b 24 4, dstr := numAt b 28 4 }

/-- FMT and the scale bits of a transposing or quantising move (R237, R238). -/
def Move.fmt (m : Move) : Nat := if m.mode = 2 then m.aux % 8 else m.aux % 4
def Move.b16 (m : Move) : Bool := bitN m.aux 3
def Move.sb16 (m : Move) : Bool := bitN m.aux 4
def Move.ibf (m : Move) : Bool := bitN m.aux 2

/-- Scale bytes of a panel's column (R204). -/
def Move.colScales (m : Move) : Nat := if m.fmt ≥ 3 then 0 else if m.b16 then 2 else 1

/-- The bytes of the panels of mode 2 (R237). -/
def Move.panels (m : Move) : Nat := m.rows / 32 * panelBytes m.fmt

/-- Elements of a block of mode 3, its source bytes and its destination bytes (R238). -/
def Move.blk (m : Move) : Nat := if m.b16 then 16 else 32
def Move.blkSrc (m : Move) : Nat := m.blk * (if m.ibf then 2 else 4)
def Move.blkDst (m : Move) : Nat := if m.fmt = 1 then m.blk else m.blk / 2

/-- The destination bytes of a row in modes 0, 1 and 3. -/
def Move.rowDst (m : Move) : Nat := if m.mode = 3 then m.rowlen / m.blkSrc * (m.blkDst + 1) else m.rowlen

/-- The bytes that a move delivers. -/
def Move.total (m : Move) : Nat := if m.mode = 2 then m.panels + m.rows / 32 * 64 * m.colScales else m.rows * m.rowDst

/-- The offset from DST of the last byte that a move delivers. -/
def Move.last (m : Move) : Nat :=
  if m.mode = 2 then (if m.colScales = 0 then m.panels else m.dstr + m.rows / 32 * 64 * m.colScales) - 1 else (m.rows - 1) * m.dstr + m.rowDst - 1

/-- AUX is one of its mode (R235, R237, R238). -/
def auxOk (m : Move) : Bool :=
  if m.mode = 0 then m.aux == 0
  else if m.mode = 1 then decide (m.aux < 16)
  else if m.mode = 2 then decide (m.aux < 32) && fmtOk m.fmt && (m.fmt == 2 || (!m.b16 && !m.sb16))
  else decide (m.aux < 16) && (m.fmt == 1 || m.fmt == 2) && (m.fmt == 2 || !m.b16)

/-- The rules of R236 to R238 on rows, panels and blocks. -/
def shapeOk (m : Move) : Bool :=
  if m.mode = 2 then
    (if m.fmt = 1 then m.rowlen == 66 else if m.fmt = 2 then m.rowlen == (if m.sb16 then 36 else 34) else m.rowlen == 128) &&
    m.rows % 32 == 0 && decide (m.panels ≤ m.dstr) && m.src % 16 == 0 && m.dst % 16 == 0
  else
    (m.rows == 1 || decide (m.rowDst ≤ m.dstr)) &&
    (m.mode != 3 || (m.rowlen % m.blkSrc == 0 && m.src % 16 == 0 && m.dst % 16 == 0))

/-- The multicast destination lies in the scratchpad aperture (R235). -/
def mcastOk (m : Move) : Bool :=
  m.mcast == 0 || (match vlocOf m.dst with | .scratch o => decide (o + m.last < 0x300000) | _ => false)

/-- The bytes of a range are 0. -/
def zeroRange (b : List Byte) (i n : Nat) : Bool := ((b.drop i).take n).all (· == 0)

/-- The conditions of an entry in the order of R296: `quant` for the quantisation engine. (DEDUCED, log 8) (DEDUCED, log 64) -/
def entryCond (s : State) (u : DUnit) (x : Group) (r : ChainRun) (quant : Bool) (b : List Byte) : Option (Nat × Nat) :=
  let m := moveOf r b
  let first := fun (l : List (Bool × Nat × Nat)) => (l.find? (·.1)).map (·.2)
  match numAt b 0 1 with
  | 0 => none
  | 1 =>
    let ws := if r.perm.isEmpty then permNow s u x m.aux else r.perm
    let held := !r.perm.isEmpty || ((nameOf x .perm m.aux).any (fun k => !k.res.isEmpty || k.spilled || k.out) && entHeld x .perm m.aux 0)
    first [(decide (3 < m.mode) || decide (15 < m.mcast) || !auxOk m || m.rowlen == 0 || m.rows == 0, 0x20, 1),
      (quant != (m.mode == 3), 0x20, 2), (!shapeOk m, 0x20, 5), (!mcastOk m, 0x20, 6),
      (m.mode == 1 && !held, 0x20, 8), (m.mode == 1 && !permOk ws, 0x24, 4), (m.mode == 1 && m.rows % permSize ws != 0, 0x20, 8)]
  | 2 => first [(!zeroRange b 1 3 || numAt b 4 4 == 0 || numAt b 8 2 == 0 || decide (1023 < numAt b 8 2) || !zeroRange b 10 6, 0x20, 1),
      (decide (r.e < numAt b 8 2) || ((mget r.its r.e).isNone && decide (8 ≤ r.its.length)), 0x20, 3)]
  | 3 =>
    let wptr := bitN (numAt b 1 1) 0
    let wait := bitN (numAt b 1 1) 3
    first [(decide (15 < numAt b 1 1) || (if wait then numAt b 2 2 != 0 else numAt b 2 2 == 0 || decide (1023 < numAt b 2 2)) ||
        decide (255 < numAt b 4 4) || (if wptr then decide (3 < numAt b 4 1) || numAt b 8 8 != 0
          else numAt b 8 8 % 8 != 0 || decide (0x300000 < numAt b 8 8 + 8)) || !zeroRange b 24 8, 0x20, 1)]
  | 4 =>
    let arrive := numAt b 1 1 == 0
    first [(decide (1 < numAt b 1 1) || (arrive && decide (63 < numAt b 2 1)) || !zeroRange b 3 1 || (!arrive && numAt b 4 4 == 0) || !zeroRange b 8 24, 0x20, 1),
      (quant && !arrive, 0x20, 2), (arrive && !((cellOf u (numAt b 2 1)).any (fun c => !c.zero)), 0x20, 7)]
  | _ => some (0x20, 1)

/-- The chain of a channel ends by a condition (R296): at its entry's offset for CHAIN, at the faulting byte otherwise. (DEDUCED, log 31) -/
def failChain (s : State) (core ch : Nat) (r : ChainRun) (cd : Nat × Nat) (addr : Nat) : State :=
  failOp (modChan s core ch (fun c => { c with run := none })) r.req.uid r.req.g (chanClass ch) r.req.eq cd addr

/-- The core-local offset of the entry reached (R233). -/
def entryAt (r : ChainRun) : Nat := r.req.head + 32 * r.e

/-- The command of a chain: its accesses are its domain's, through its slot's address space. -/
def chainCmd (s : State) (x : Group) (core ch : Nat) (r : ChainRun) (q : EqEntry) : Cmd :=
  cmdOf x r.req.uid (chanClass ch) r.req.dom (domAsid (rdReg s (.domtab core r.req.slot))) q

/-- A chain's run replaced. -/
def setRun (s : State) (core ch : Nat) (r : ChainRun) : State := modChan s core ch (fun c => { c with run := some r })

/-- The chain passes to another entry, which it reads two cycles on (R236). -/
def ChainRun.goto (r : ChainRun) (e clk : Nat) : ChainRun := { r with e := e, ent := [], prog := 0, perm := [], since := none, due := clk + 2 }

/-- The permutation name that an entry is to read now (R231). -/
def entryPerm (r : ChainRun) (b : List Byte) : Option Nat :=
  if numAt b 0 1 == 1 && numAt b 1 1 == 1 && r.perm.isEmpty then some (numAt b 3 1) else none

/-- The chain of a channel ends where it consumes poison or cannot read a slot (R360, R371). -/
def dropChain (s : State) (core ch : Nat) (r : ChainRun) : State :=
  finEq (modChan s core ch (fun c => { c with run := none })) r.req.uid r.req.g (chanClass ch) r.req.eq

/-- The entry reached by a channel's chain is read at HOME once and checked (R233, R296); an entry of the kind that the step is
about acts by `act`, with the run that holds the entry's bytes and its register's (R231). A step of another kind leaves the state. -/
def entryStep (core ch : Nat) (want : List Byte → Bool) (act : State → DUnit → Group → EqEntry → ChainRun → List Byte → State) (s : State) : State :=
  match (chanOf s core ch).run with
  | none => s
  | some r => match unitOf s r.req.uid, groupOf s r.req.uid r.req.g with
    | some u, some x => match eqOf x (chanClass ch) r.req.eq with
      | none => s
      | some q =>
        if r.ended || r.since.isSome || clkOf s core < r.due then s
        else if r.ent.isEmpty && !inBuf u core (entryAt r) 32 then failChain s core ch r (0x20, 9) (entryAt r)
        else
          let b := if r.ent.isEmpty then homeRead s (scratchPa core (entryAt r)) 32 else r.ent
          let s0 := setRun (if r.ent.isEmpty then watchCmd s s (chainCmd s x core ch r q) false (scratchPa core (entryAt r)) 32 else s) core ch { r with ent := b }
          let f := spillFetch core x.dom x.asid (((entryPerm r b).map (permSlots u x)).getD []) s0
          if (entryPerm r b).isSome && !want b then s
          else if !f.2 then f.1
          else match (entryPerm r b).bind (permFails (dropChain f.1 core ch r) u x) with
          | some t => t
          | none => match entryCond f.1 u x r (ch == 4) b with
            | some cd => failChain f.1 core ch r cd (entryAt r)
            | none =>
              if !want b then s
              else act f.1 u x q { r with ent := b, perm := ((entryPerm r b).map (permNow f.1 u x)).getD r.perm } b
    | _, _ => s

/-- A part of a move's destination: where it lies, its source ranges, the bytes skipped and taken of what they make, and
what is made: 0 the bytes themselves, 1 a panel's column, 2 its scales, 3 a quantised block, 4 its scale. -/
structure Seg where
  dst : Nat
  skip : Nat
  n : Nat
  what : Nat
  srcs : List (Nat × Nat)
deriving DecidableEq, Repr

/-- The source ranges of column j of panel p (R237): for each of 32 rows the element's byte or bytes, and its scale. -/
def colSrcs (m : Move) (p j : Nat) : List (Nat × Nat) :=
  (List.range 32).flatMap (fun k =>
    let row := m.src + (32 * p + k) * m.sstr
    if m.fmt = 1 then [(row + j, 1), (row + 64 + j / 32, 1)]
    else if m.fmt = 2 then [(row + j / 2, 1), (row + 32 + j / (if m.sb16 then 16 else 32), 1)]
    else [(row + 2 * j, 2)])

/-- The part of a move that begins at delivered byte k, at most n bytes long (R236-R238); `map` permutes rows. -/
def segAt (m : Move) (map : List Nat) (k n : Nat) : Seg :=
  if m.mode = 2 then
    let col := fun (c : Nat) => colSrcs m (c / 64) (c % 64)
    if k < m.panels then
      let kb := kBytes m.fmt
      ⟨m.dst + k, k % kb, Nat.min n (kb - k % kb), 1, col (k / kb)⟩
    else
      let h := k - m.panels
      let nb := m.colScales
      ⟨m.dst + m.dstr + h, h % nb, Nat.min n (nb - h % nb), 2, col (h / nb)⟩
  else
    let i := k / m.rowDst
    let o := k % m.rowDst
    if m.mode = 3 then
      let nblk := m.rowlen / m.blkSrc
      let src := fun (b : Nat) => [(m.src + i * m.sstr + b * m.blkSrc, m.blkSrc)]
      if o < nblk * m.blkDst then ⟨m.dst + i * m.dstr + o, o % m.blkDst, Nat.min n (m.blkDst - o % m.blkDst), 3, src (o / m.blkDst)⟩
      else ⟨m.dst + i * m.dstr + o, 0, 1, 4, src (o - nblk * m.blkDst)⟩
    else
      let row := if m.mode = 1 then i / map.length * map.length + pAt map (i % map.length) else i
      let len := Nat.min n (m.rowDst - o)
      ⟨m.dst + i * m.dstr + o, 0, len, 0, [(m.src + row * m.sstr + o, len)]⟩

/-- The parts of the next `n` delivered bytes from k on. -/
def segsFrom (m : Move) (map : List Nat) : Nat → Nat → Nat → List Seg
  | 0, _, _ => []
  | fuel + 1, k, n => if n = 0 then [] else
    let g := segAt m map k n
    g :: segsFrom m map fuel (k + g.n) (n - g.n)

/-- |x| ≤ c × 2^e for c = fn / fd (R115). -/
def absLe (fn fd : Nat) (e : Int) : Fl → Bool
  | .nan => false
  | .inf _ => false
  | .fin _ m k => decide ((scaleQ m 1 (k - e)).1 * fd ≤ fn * (scaleQ m 1 (k - e)).2)

/-- A number times 2^e. -/
def shiftFl (e : Int) : Fl → Fl
  | .nan => .nan
  | .inf b => .inf b
  | .fin b m k => .fin b m (k + e)

/-- The number is finite. -/
def Fl.finite : Fl → Bool
  | .nan => false | .inf _ => false | .fin _ _ _ => true

/-- The number is zero. -/
def Fl.isZero : Fl → Bool
  | .nan => false | .inf _ => false | .fin _ m _ => m == 0

/-- A block quantised to lt8 or lt4 (R115): its element codes and its scale. -/
def quantBlock (fmt : Nat) (xs : List Fl) : List Nat × Nat :=
  if xs.any (fun x => !x.finite) then (xs.map (fun _ => if fmt = 1 then 0x80 else 8), 255)
  else
    let fits := fun (c : Nat) => xs.all (absLe (if fmt = 1 then 31 else 6) 2 (Int.ofNat c - 127))
    let c := if xs.all (·.isZero) then 127 else ((List.range 255).find? fits).getD 254
    (xs.map (fun x => (if fmt = 1 then toLt8 else toLt4) 1 (shiftFl (127 - Int.ofNat c) x)), c)

/-- Codes as bytes: one to a byte, or two, the low nibble first (R109). -/
def packCodes (fmt : Nat) (cs : List Nat) : List Byte :=
  if fmt = 1 then cs.map (BitVec.ofNat 8)
  else (List.range (cs.length / 2)).map (fun i => BitVec.ofNat 8 (pAt cs (2 * i) % 16 + 16 * (pAt cs (2 * i + 1) % 16)))

/-- The 32 exact values of a column of lt8 or lt4 (R215), from its element and scale bytes in turn; `hi` takes the high
nibble of an lt4 byte. -/
def colVals (fmt : Nat) (hi : Bool) (bs : List Byte) : List Fl :=
  (List.range 32).map (fun k =>
    let e := (numAt bs (2 * k) 1)
    mulFl (if fmt = 1 then lt8Val e else lt4Val (if hi then e / 16 else e % 16)) (scaleVal ((bs[2 * k + 1]?).getD 0)))

/-- The blocks of a column along K, quantised (R115, R215). -/
def colBlocks (m : Move) (hi : Bool) (bs : List Byte) : List (List Nat × Nat) :=
  let vs := colVals m.fmt hi bs
  if m.b16 then [quantBlock m.fmt (vs.take 16), quantBlock m.fmt (vs.drop 16)] else [quantBlock m.fmt vs]

/-- The values of a source block of mode 3 (R115, R238). -/
def blockVals (m : Move) (bs : List Byte) : List Fl :=
  (List.range m.blk).map (fun i => if m.ibf then bf16.val (numAt bs (2 * i) 2) else f32.val (numAt bs (4 * i) 4))

/-- The destination bytes of a part from its source bytes; `k` is the delivered byte it begins at. -/
def segBytes (m : Move) (k : Nat) (g : Seg) (bs : List Byte) : List Byte :=
  let hi := k / kBytes m.fmt % 2 == 1
  let hiS := (k - m.panels) / m.colScales % 2 == 1
  let all :=
    if g.what = 0 then bs
    else if g.what = 1 then (if m.fmt ≥ 3 then bs else (colBlocks m hi bs).flatMap (fun q => packCodes m.fmt q.1))
    else if g.what = 2 then (colBlocks m hiS bs).map (fun q => BitVec.ofNat 8 q.2)
    else if g.what = 3 then packCodes m.fmt (quantBlock m.fmt (blockVals m bs)).1
    else [BitVec.ofNat 8 (quantBlock m.fmt (blockVals m bs)).2]
  (all.drop g.skip).take g.n

/-- Reads a part's source ranges one after another. -/
def readSrcs (s : State) (c : Cmd) : List (Nat × Nat) → EngRead
  | [] => .bytes []
  | p :: l => match engRead s c (p.1 % 2 ^ 64) p.2 with
    | .bytes bs => (match readSrcs s c l with | .bytes cs => .bytes (bs ++ cs) | r => r)
    | r => r

/-- The bytes of a step's parts, with their destinations, or the first condition. -/
def readSegs (s : State) (c : Cmd) (m : Move) : Nat → List Seg → EngRead × List (Nat × List Byte)
  | _, [] => (.bytes [], [])
  | k, g :: l => match readSrcs s c g.srcs with
    | .bytes bs => let r := readSegs s c m (k + g.n) l; (r.1, (g.dst % 2 ^ 64, segBytes m k g bs) :: r.2)
    | r => (r, [])

/-- Runs of bytes whose addresses follow on each other joined. -/
def joinRuns : List (Nat × List Byte) → List (Nat × List Byte)
  | [] => []
  | r :: l => match joinRuns l with
    | [] => [r]
    | q :: l' => if r.1 + r.2.length = q.1 then (r.1, r.2 ++ q.2) :: l' else r :: q :: l'

/-- The destinations of a run (R235): DST, or the selected cores' scratchpads through the on-chip map. -/
def runDsts (m : Move) (core : Nat) (va : Nat) : List Nat :=
  if m.mcast = 0 then [va]
  else ((List.range 4).filter (fun i => bitN m.mcast i)).map (fun i => 255 * 2 ^ 48 + 2 ^ 47 + (core % 28 / 4 * 4 + i) * 2 ^ 27 + va % 2 ^ 47)

/-- The first condition that the writes of a step meet; a multicast granule that no buffer holds is DOMAIN 4 (R292). -/
def runsCond (s : State) (c : Cmd) (m : Move) (runs : List (Nat × List Byte)) : Option ((Nat × Nat) × Nat) :=
  runs.findSome? (fun r => (runDsts m c.core r.1).findSome? (fun va =>
    match engCheck s c.core c.asid c.dom true (pieces (r.2.length + 1) va r.2.length) with
    | .error e => some (if m.mcast ≠ 0 ∧ e.1 = (0x15, 1) then ((0x15, 4), e.2) else e)
    | .ok _ => none))

/-- The ranges that a move is still to deliver after its first k bytes (R77). -/
def Move.rest (m : Move) (k : Nat) : List (Nat × Nat) :=
  if m.mode = 2 then [(m.dst + k, m.panels - k), (m.dst + m.dstr + (k - m.panels), m.total - Nat.max k m.panels)].filter (fun r => r.2 != 0)
  else (List.range m.rows).filterMap (fun i =>
    let lo := Nat.max k (i * m.rowDst)
    if lo < (i + 1) * m.rowDst then some (m.dst + i * m.dstr + (lo - i * m.rowDst), (i + 1) * m.rowDst - lo) else none)

/-- The ranges that a step writes, at every destination (R235). -/
def runWrites (c : Cmd) (m : Move) (runs : List (Nat × List Byte)) : List (Nat × List Byte) :=
  runs.flatMap (fun r => (runDsts m c.core r.1).map (fun va => (va, r.2)))

/-- The bytes of a step perform at every destination (R97, R235). -/
def writeRuns (s : State) (c : Cmd) (m : Move) (runs : List (Nat × List Byte)) : State :=
  match engWrite s c (runWrites c m runs) with | .ok t => t | .error _ => s

/-- The source bytes of a step's parts come through the L2: `false` while a transfer is still to bring one (R80, R361). -/
def fetchSegs (s : State) (c : Cmd) (segs : List Seg) : State × Bool :=
  (segs.flatMap (·.srcs)).foldl (fun q p => let r := engFetch q.1 c (p.1 % 2 ^ 64) p.2
    (r.1, q.2 && r.2)) (s, true)

/-- The clocks that a step takes: one, or in the quantisation engine one for each source block whose last element it delivers (R236). -/
def stepClocks (ch : Nat) (m : Move) (segs : List Seg) : Nat := if ch = 4 then (segs.filter (fun g => g.what == 3 && g.skip + g.n == m.blkDst)).length else 1

/-- The request of a step of an engine (R268): complete now, or once the commit buffer's entry of its last bytes has performed (R331). -/
def stepTag (s : State) (core slot dom pc flags : Nat) : Tagged :=
  let held := (coreOf s core).pool.any (fun p => p.id + 1 == s.seq && p.buffered)
  ⟨slot, dom, 255, pc, timeOf s core, flags, 0, if held then s.seq - 1 else 0, !held⟩

/-- The physical ranges that a step reads and writes. -/
def stepPas (s : State) (c : Cmd) (m : Move) (segs : List Seg) (runs : List (Nat × List Byte)) : List (Nat × Nat) :=
  (segs.flatMap (·.srcs)).flatMap (fun p => checkedPas (engCheck s c.core c.asid c.dom false (pieces (p.2 + 1) (p.1 % 2 ^ 64) p.2))) ++
  runs.flatMap (fun r => (runDsts m c.core r.1).flatMap (fun va => checkedPas (engCheck s c.core c.asid c.dom true (pieces (r.2.length + 1) va r.2.length))))

/-- One step of a move (R83, R236): up to 64 destination bytes, read at HOME and then written; the write pointer counts
them. After the last the chain passes to the next entry. (DEDUCED, log 63) -/
def moveStep (core ch : Nat) (s : State) (_u : DUnit) (x : Group) (q : EqEntry) (r : ChainRun) (b : List Byte) : State :=
  let m := moveOf r b
  let n := Nat.min 64 (m.total - r.prog)
  let c := { chainCmd s x core ch r q with later := m.rest (r.prog + n) }
  let segs := segsFrom m (if m.mode = 1 then permMap r.perm else []) 64 r.prog n
  let f := fetchSegs s c segs
  if !f.2 then setRun f.1 core ch r
  else match readSegs f.1 c m r.prog segs with
  | (.cond cd addr, _) => failChain f.1 core ch r cd addr
  | (.poison sec, _) => consumePoison (dropChain f.1 core ch r) r.req.uid r.req.g sec []
  | (.bytes _, parts) =>
    let runs := joinRuns parts
    match runsCond f.1 c m runs with
    | some e => failChain f.1 core ch r e.1 e.2
    | none =>
      let w := engWriteFetch f.1 c (runWrites c m runs)
      if !w.2 then setRun w.1 core ch r
      else
      let s1 := segs.foldl (fun s g => g.srcs.foldl (fun s p => readHits s c (p.1 % 2 ^ 64) p.2) s) w.1
      let s0 := writeRuns s1 c m runs
      let s2 := countReq s0 core (stepTag s0 core r.req.slot r.req.dom (entryVa x.kernel + 4 * q.widx) (engFlags s (stepPas s c m segs runs))) 1
      let s3 := modCore s2 core (fun k => { k with cpwp := if ch < 4 then modAt k.cpwp ch (fun v => (v + n) % 2 ^ 64) else k.cpwp })
      let clk := clkOf s core + stepClocks ch m segs
      setRun s3 core ch (if r.prog + n = m.total then r.goto (r.e + 1) (clk - 1)
        else { r with prog := r.prog + n, due := clk })

/-- An entry is a move of a mode. -/
def isMove (mode : Nat) (b : List Byte) : Bool := numAt b 0 1 == 1 && numAt b 1 1 == mode

/-- MOVE_PLAIN (R236). -/
def execMovePlain (core ch : Nat) (s : State) : Host.Outcome State Fault Refusal :=
  .next (entryStep core ch (isMove 0) (moveStep core ch) s)

/-- MOVE_PERMUTE (R231, R232, R237). -/
def execMovePermute (core ch : Nat) (s : State) : Host.Outcome State Fault Refusal :=
  .next (entryStep core ch (isMove 1) (moveStep core ch) s)

/-- MOVE_TRANSPOSE_REQUANTISE (R215, R237). -/
def execMoveTransposeRequantise (core ch : Nat) (s : State) : Host.Outcome State Fault Refusal :=
  .next (entryStep core ch (isMove 2) (moveStep core ch) s)

/-- MOVE_QUANTISE (R115, R238). -/
def execMoveQuantise (core ch : Nat) (s : State) : Host.Outcome State Fault Refusal :=
  .next (entryStep core ch (isMove 3) (moveStep core ch) s)

/-- LOOP_ENTRY (R234): COUNT + 1 passes of the entries before it. -/
def execLoopEntry (core ch : Nat) (s : State) : Host.Outcome State Fault Refusal :=
  .next (entryStep core ch (fun b => numAt b 0 1 == 2) (fun s _ _ _ r b =>
    let it := ((mget r.its r.e).map (·.1)).getD 0
    let put := fun (k : Nat) => mset r.its r.e (k, numAt b 8 2, numAt b 16 8, numAt b 24 8)
    let clk := clkOf s core
    if it < numAt b 4 4 then setRun s core ch { (r.goto (r.e - numAt b 8 2) clk) with its := put (it + 1) }
    else setRun s core ch { (r.goto (r.e + 1) clk) with its := put 0 }) s)

/-- The value that a skip entry reads (R239): a scratch word, or the write pointer of a channel of the domain (R83). -/
def skipValue (s : State) (core : Nat) (r : ChainRun) (b : List Byte) : Nat :=
  if bitN (numAt b 1 1) 0 then
    (if bitN (dpCpch (rdReg s (.dpart core r.req.slot))) (numAt b 4 1) then ((coreOf s core).cpwp[numAt b 4 1]?).getD 0 else 0)
  else natOfBytes (homeRead s (scratchPa core (numAt b 8 8)) 8)

/-- The relation of a skip entry holds (R239). -/
def skipHolds (s : State) (core : Nat) (r : ChainRun) (b : List Byte) : Bool :=
  let v := skipValue s core r b
  let w := numAt b 16 8
  match numAt b 1 1 / 2 % 4 with
  | 0 => v == w
  | 1 => v != w
  | 2 => decide (v < w)
  | _ => decide (w ≤ v)

/-- A taken skip passes an end entry, or leaves the unit's buffers (R296 CHAIN 4). (DEDUCED, log 65) -/
def skipPassesEnd (s : State) (u : DUnit) (core : Nat) (r : ChainRun) (n : Nat) : Bool :=
  (List.range n).any (fun k =>
    let off := entryAt r + 32 * (k + 1)
    !inBuf u core off 32 || homeByte s (scratchPa core off) == 0)

/-- The reads of a skip entry's word are watched (R346). -/
def skipWatch (s : State) (core : Nat) (c : Cmd) (b : List Byte) : State :=
  if bitN (numAt b 1 1) 0 then s else watchCmd s s c false (scratchPa core (numAt b 8 8)) 8

/-- The reads of a waiting skip entry of a chain are watched (R346). -/
def waitWatch (s : State) (core ch : Nat) (r : ChainRun) : State :=
  match groupOf s r.req.uid r.req.g with
  | none => s
  | some x => match eqOf x (chanClass ch) r.req.eq with
    | none => s
    | some q => skipWatch s core (chainCmd s x core ch r q) r.ent

/-- SKIP_ENTRY (R239): the first read of a skip entry; a waiting one whose relation does not hold waits. -/
def execSkipEntry (core ch : Nat) (s : State) : Host.Outcome State Fault Refusal :=
  .next (entryStep core ch (fun b => numAt b 0 1 == 3) (fun s u x q r b =>
    let clk := clkOf s core
    let s1 := skipWatch s core (chainCmd s x core ch r q) b
    if bitN (numAt b 1 1) 3 then
      (if skipHolds s core r b then setRun s1 core ch (r.goto (r.e + 1) clk) else setRun s1 core ch { r with since := some clk, due := clk + 1 })
    else if !skipHolds s core r b then setRun s1 core ch (r.goto (r.e + 1) clk)
    else if skipPassesEnd s u core r (numAt b 2 2) then failChain s1 core ch r (0x20, 4) (entryAt r)
    else setRun s1 core ch (r.goto (r.e + 1 + numAt b 2 2) clk)) s)

/-- SKIP_WAIT_SATISFIED (R239): a later read of a waiting skip entry, which watchpoints see (R346), finds its relation to
hold; a cancelled unit's chain ends at the entry. -/
def execSkipWaitSatisfied (core ch : Nat) (s : State) : Host.Outcome State Fault Refusal :=
  .next (match (chanOf s core ch).run with
  | none => s
  | some r => match r.since, unitOf s r.req.uid with
    | some _, some u =>
      if u.cancel ≠ 0 then setRun s core ch { r with since := none, ended := true }
      else if clkOf s core < r.due then s
      else
        let s1 := waitWatch s core ch r
        if skipHolds s core r r.ent then setRun s1 core ch (r.goto (r.e + 1) (clkOf s core))
        else setRun s1 core ch { r with due := clkOf s core + 1 }
    | _, _ => s)

/-- SKIP_WAIT_LIMIT (R324): 2^24 cycles after its first read a waiting skip ends its chain. -/
def execSkipWaitLimit (core ch : Nat) (s : State) : Host.Outcome State Fault Refusal :=
  .next (match (chanOf s core ch).run with
  | none => s
  | some r => match r.since with
    | none => s
    | some t => if clkOf s core < t + 2 ^ 24 || skipHolds s core r r.ent then s else failChain s core ch r (0x20, 10) (entryAt r))

/-- SIGNAL_ARRIVE (R240): one arrival at a cell of the issuing unit; a cancelled unit's cells are gone. -/
def execSignalArrive (core ch : Nat) (s : State) : Host.Outcome State Fault Refusal :=
  .next (entryStep core ch (fun b => numAt b 0 1 == 4 && numAt b 1 1 == 0) (fun s u _ _ r b =>
    let s1 := setRun s core ch (r.goto (r.e + 1) (clkOf s core))
    if u.cancel ≠ 0 then s1 else countArrival s1 u.uid (numAt b 2 1) none false) s)

/-- SIGNAL_ADVANCE (R240): the chain's own write pointer advances by ADV. -/
def execSignalAdvance (core ch : Nat) (s : State) : Host.Outcome State Fault Refusal :=
  .next (entryStep core ch (fun b => numAt b 0 1 == 4 && numAt b 1 1 == 1) (fun s _ _ _ r b =>
    modCore (setRun s core ch (r.goto (r.e + 1) (clkOf s core))) core (fun c => { c with cpwp := modAt c.cpwp ch (fun v => (v + numAt b 4 4) % 2 ^ 64) })) s)

/-- END_ENTRY (R234): the walk is over. -/
def execEndEntry (core ch : Nat) (s : State) : Host.Outcome State Fault Refusal :=
  .next (entryStep core ch (fun b => numAt b 0 1 == 0) (fun s _ _ _ r _ => setRun s core ch { r with ended := true }) s)

/-- CHAIN_FINISH (R96, R244): the end is reached and every byte has performed; the channel is free. -/
def execChainFinish (core ch : Nat) (s : State) : Host.Outcome State Fault Refusal :=
  .next (match (chanOf s core ch).run with
  | none => s
  | some r => if r.ended then finEq (modChan s core ch (fun c => { c with run := none })) r.req.uid r.req.g (chanClass ch) r.req.eq else s)

end Sys2Proof.Machine
end

