-- ==== Sys2Proof/Machine/FloatWords.lean ====
section
/-! DEFINITION. The floating-point words of the lane pipes (R157-R161). A group keeps no flags of them (R106). -/

namespace Sys2Proof.Machine

open Sys2Proof

/-- The effective rounding mode of a lane floating-point word (R103): the spar's q, or GRP.FMODE.RM. -/
def rmOf (sp : Spar) (x : Group) : Nat := if 1 ≤ sp.q ∧ sp.q ≤ 4 then sp.q else x.fmode.toNat % 8

/-- GRP.FMODE.FTZ (R104). -/
def ftzOf (x : Group) : Bool := bitN x.fmode.toNat 3

/-- A float word of one f32 result of D, A and B. -/
def floatWord (i : Instr) (lat : Nat) (f : Nat → Bool → Nat → Nat → Nat → Nat) (s : State) : State :=
  laneDAB i lat (fun sp x d a b => BitVec.ofNat 32 (f (rmOf sp x) (ftzOf x) d.toNat a.toNat b.toNat)) s

/-- A packed word (R158): each 16-bit element for itself. -/
def packedWord (i : Instr) (f : Nat → Bool → Nat → Nat → Nat → Nat) (s : State) : State :=
  laneDAB i 4 (fun sp x d a b =>
    pack16 (f (rmOf sp x) (ftzOf x) (half d 0) (half a 0) (half b 0)) (f (rmOf sp x) (ftzOf x) (half d 1) (half a 1) (half b 1))) s

/-- `fa.add` (R157). -/
def execFaAdd (d : BitVec 7) (a : BitVec 7) (b : BitVec 7) (s : State) : Host.Outcome State Fault Refusal :=
  .next (floatWord (.faAdd d a b) 4 (fun m z _ a b => fAdd f32 m z a b) s)

/-- `fa.sub` (R157). -/
def execFaSub (d : BitVec 7) (a : BitVec 7) (b : BitVec 7) (s : State) : Host.Outcome State Fault Refusal :=
  .next (floatWord (.faSub d a b) 4 (fun m z _ a b => fSub f32 m z a b) s)

/-- `fa.mul` (R157). -/
def execFaMul (d : BitVec 7) (a : BitVec 7) (b : BitVec 7) (s : State) : Host.Outcome State Fault Refusal :=
  .next (floatWord (.faMul d a b) 4 (fun m z _ a b => fMul f32 m z a b) s)

/-- `fa.fma` (R157). -/
def execFaFma (d : BitVec 7) (a : BitVec 7) (b : BitVec 7) (s : State) : Host.Outcome State Fault Refusal :=
  .next (floatWord (.faFma d a b) 4 (fun m z d a b => fFma f32 m z d a b) s)

/-- `fa.fms` (R157). -/
def execFaFms (d : BitVec 7) (a : BitVec 7) (b : BitVec 7) (s : State) : Host.Outcome State Fault Refusal :=
  .next (floatWord (.faFms d a b) 4 (fun m z d a b => fFms f32 m z d a b) s)

/-- `fa.min` (R157). -/
def execFaMin (d : BitVec 7) (a : BitVec 7) (b : BitVec 7) (s : State) : Host.Outcome State Fault Refusal :=
  .next (floatWord (.faMin d a b) 4 (fun _ z _ a b => fLaneMinMax f32 false z a b) s)

/-- `fa.max` (R157). -/
def execFaMax (d : BitVec 7) (a : BitVec 7) (b : BitVec 7) (s : State) : Host.Outcome State Fault Refusal :=
  .next (floatWord (.faMax d a b) 4 (fun _ z _ a b => fLaneMinMax f32 true z a b) s)

/-- `fa.abs` (R157). -/
def execFaAbs (d : BitVec 7) (a : BitVec 7) (s : State) : Host.Outcome State Fault Refusal :=
  .next (floatWord (.faAbs d a) 4 (fun _ z _ a _ => if f32.isNan a then f32.nan else f32.flush z a % f32.top) s)

/-- `fa.neg` (R157). -/
def execFaNeg (d : BitVec 7) (a : BitVec 7) (s : State) : Host.Outcome State Fault Refusal :=
  .next (floatWord (.faNeg d a) 4 (fun _ z _ a _ => if f32.isNan a then f32.nan else (f32.flush z a + f32.top) % 2 ^ 32) s)

/-- `fa.eq` (R157). -/
def execFaEq (d : BitVec 7) (a : BitVec 7) (b : BitVec 7) (s : State) : Host.Outcome State Fault Refusal :=
  .next (floatWord (.faEq d a b) 4 (fun _ z _ a b => (fCmp false true z a b).toNat) s)

/-- `fa.lt` (R157). -/
def execFaLt (d : BitVec 7) (a : BitVec 7) (b : BitVec 7) (s : State) : Host.Outcome State Fault Refusal :=
  .next (floatWord (.faLt d a b) 4 (fun _ z _ a b => (fCmp true false z a b).toNat) s)

/-- `fa.le` (R157). -/
def execFaLe (d : BitVec 7) (a : BitVec 7) (b : BitVec 7) (s : State) : Host.Outcome State Fault Refusal :=
  .next (floatWord (.faLe d a b) 4 (fun _ z _ a b => (fCmp true true z a b).toNat) s)

/-- `fh.hadd` (R158). -/
def execFhHadd (d : BitVec 7) (a : BitVec 7) (b : BitVec 7) (s : State) : Host.Outcome State Fault Refusal :=
  .next (packedWord (.fhHadd d a b) (fun m z _ a b => fAdd f16 m z a b) s)

/-- `fh.hmul` (R158). -/
def execFhHmul (d : BitVec 7) (a : BitVec 7) (b : BitVec 7) (s : State) : Host.Outcome State Fault Refusal :=
  .next (packedWord (.fhHmul d a b) (fun m z _ a b => fMul f16 m z a b) s)

/-- `fh.hfma` (R158). -/
def execFhHfma (d : BitVec 7) (a : BitVec 7) (b : BitVec 7) (s : State) : Host.Outcome State Fault Refusal :=
  .next (packedWord (.fhHfma d a b) (fun m z d a b => fFma f16 m z d a b) s)

/-- `fh.hmin` (R158). -/
def execFhHmin (d : BitVec 7) (a : BitVec 7) (b : BitVec 7) (s : State) : Host.Outcome State Fault Refusal :=
  .next (packedWord (.fhHmin d a b) (fun _ z _ a b => fLaneMinMax f16 false z a b) s)

/-- `fh.hmax` (R158). -/
def execFhHmax (d : BitVec 7) (a : BitVec 7) (b : BitVec 7) (s : State) : Host.Outcome State Fault Refusal :=
  .next (packedWord (.fhHmax d a b) (fun _ z _ a b => fLaneMinMax f16 true z a b) s)

/-- `fh.badd` (R158). -/
def execFhBadd (d : BitVec 7) (a : BitVec 7) (b : BitVec 7) (s : State) : Host.Outcome State Fault Refusal :=
  .next (packedWord (.fhBadd d a b) (fun m z _ a b => fAdd bf16 m z a b) s)

/-- `fh.bmul` (R158). -/
def execFhBmul (d : BitVec 7) (a : BitVec 7) (b : BitVec 7) (s : State) : Host.Outcome State Fault Refusal :=
  .next (packedWord (.fhBmul d a b) (fun m z _ a b => fMul bf16 m z a b) s)

/-- `fh.bfma` (R158). -/
def execFhBfma (d : BitVec 7) (a : BitVec 7) (b : BitVec 7) (s : State) : Host.Outcome State Fault Refusal :=
  .next (packedWord (.fhBfma d a b) (fun m z d a b => fFma bf16 m z d a b) s)

/-- `fh.bmin` (R158). -/
def execFhBmin (d : BitVec 7) (a : BitVec 7) (b : BitVec 7) (s : State) : Host.Outcome State Fault Refusal :=
  .next (packedWord (.fhBmin d a b) (fun _ z _ a b => fLaneMinMax bf16 false z a b) s)

/-- `fh.bmax` (R158). -/
def execFhBmax (d : BitVec 7) (a : BitVec 7) (b : BitVec 7) (s : State) : Host.Outcome State Fault Refusal :=
  .next (packedWord (.fhBmax d a b) (fun _ z _ a b => fLaneMinMax bf16 true z a b) s)

/-- `fc.f32i` (R111). -/
def execFcF32i (d : BitVec 7) (a : BitVec 7) (s : State) : Host.Outcome State Fault Refusal :=
  .next (floatWord (.fcF32i d a) 4 (fun m z _ a _ => (cvtInt (-(2 ^ 31)) (2 ^ 31 - 1) m z (BitVec.ofNat 32 a)).toNat) s)

/-- `fc.f32n` (R111). -/
def execFcF32n (d : BitVec 7) (a : BitVec 7) (s : State) : Host.Outcome State Fault Refusal :=
  .next (floatWord (.fcF32n d a) 4 (fun m z _ a _ => (cvtInt 0 (2 ^ 32 - 1) m z (BitVec.ofNat 32 a)).toNat) s)

/-- `fc.if32` (R111). -/
def execFcIf32 (d : BitVec 7) (a : BitVec 7) (s : State) : Host.Outcome State Fault Refusal :=
  .next (floatWord (.fcIf32 d a) 4 (fun m _ _ a _ => (cvtFromInt m (sextN 32 a)).toNat) s)

/-- `fc.nf32` (R111). -/
def execFcNf32 (d : BitVec 7) (a : BitVec 7) (s : State) : Host.Outcome State Fault Refusal :=
  .next (floatWord (.fcNf32 d a) 4 (fun m _ _ a _ => (cvtFromInt m (Int.ofNat a)).toNat) s)

/-- `fc.h16f32` (R111, R159): element b of A to f32. -/
def execFcH16f32 (d : BitVec 7) (a : BitVec 7) (b : BitVec 7) (s : State) : Host.Outcome State Fault Refusal :=
  .next (floatWord (.fcH16f32 d a b) 4 (fun m z _ a _ => cvtFmt f16 f32 m z (half (BitVec.ofNat 32 a) b.toNat)) s)

/-- `fc.bf16f32` (R111, R159): element b of A to f32. -/
def execFcBf16f32 (d : BitVec 7) (a : BitVec 7) (b : BitVec 7) (s : State) : Host.Outcome State Fault Refusal :=
  .next (floatWord (.fcBf16f32 d a b) 4 (fun m z _ a _ => cvtFmt bf16 f32 m z (half (BitVec.ofNat 32 a) b.toNat)) s)

/-- `fc.f32h16` (R111, R159): A into element b of D, the other element kept. -/
def execFcF32h16 (d : BitVec 7) (a : BitVec 7) (b : BitVec 7) (s : State) : Host.Outcome State Fault Refusal :=
  .next (floatWord (.fcF32h16 d a b) 4 (fun m z d a _ => (putPart (BitVec.ofNat 32 d) 16 b.toNat (cvtFmt f32 f16 m z a)).toNat) s)

/-- `fc.f32bf16` (R111, R159): A into element b of D, the other element kept. -/
def execFcF32bf16 (d : BitVec 7) (a : BitVec 7) (b : BitVec 7) (s : State) : Host.Outcome State Fault Refusal :=
  .next (floatWord (.fcF32bf16 d a b) 4 (fun m z d a _ => (putPart (BitVec.ofNat 32 d) 16 b.toNat (cvtFmt f32 bf16 m z a)).toNat) s)

/-- `fc.lt8f32` (R107, R111, R159). -/
def execFcLt8f32 (d : BitVec 7) (a : BitVec 7) (b : BitVec 7) (s : State) : Host.Outcome State Fault Refusal :=
  .next (floatWord (.fcLt8f32 d a b) 4 (fun _ _ _ a _ => roundFl f32 1 (lt8Val (a / 2 ^ (8 * b.toNat) % 256))) s)

/-- `fc.f32lt8` (R108, R111, R159): A into byte b of D, the other bytes kept. -/
def execFcF32lt8 (d : BitVec 7) (a : BitVec 7) (b : BitVec 7) (s : State) : Host.Outcome State Fault Refusal :=
  .next (floatWord (.fcF32lt8 d a b) 4 (fun m z d a _ => (putPart (BitVec.ofNat 32 d) 8 b.toNat (toLt8 m (f32.val (f32.flush z a)))).toNat) s)

/-- `fx.rcp` (R160, R161). -/
def execFxRcp (d : BitVec 7) (a : BitVec 7) (s : State) : Host.Outcome State Fault Refusal :=
  .next (floatWord (.fxRcp d a) 8 (fun m z _ a _ => (fxWord (fRcp m) z (BitVec.ofNat 32 a)).toNat) s)

/-- `fx.rsqrt` (R160, R161). -/
def execFxRsqrt (d : BitVec 7) (a : BitVec 7) (s : State) : Host.Outcome State Fault Refusal :=
  .next (floatWord (.fxRsqrt d a) 8 (fun m z _ a _ => (fxWord (fRsqrt m) z (BitVec.ofNat 32 a)).toNat) s)

/-- `fx.sqrt` (R160, R161). -/
def execFxSqrt (d : BitVec 7) (a : BitVec 7) (s : State) : Host.Outcome State Fault Refusal :=
  .next (floatWord (.fxSqrt d a) 8 (fun m z _ a _ => (fxWord (fSqrt m) z (BitVec.ofNat 32 a)).toNat) s)

/-- `fx.exp2` (R160, R161). -/
def execFxExp2 (d : BitVec 7) (a : BitVec 7) (s : State) : Host.Outcome State Fault Refusal :=
  .next (floatWord (.fxExp2 d a) 8 (fun m z _ a _ => (fxWord (fExp2 m) z (BitVec.ofNat 32 a)).toNat) s)

/-- `fx.log2` (R160, R161). -/
def execFxLog2 (d : BitVec 7) (a : BitVec 7) (s : State) : Host.Outcome State Fault Refusal :=
  .next (floatWord (.fxLog2 d a) 8 (fun m z _ a _ => (fxWord (fLog2 m) z (BitVec.ofNat 32 a)).toNat) s)

/-- `fx.sinpi` (R160, R161). -/
def execFxSinpi (d : BitVec 7) (a : BitVec 7) (s : State) : Host.Outcome State Fault Refusal :=
  .next (floatWord (.fxSinpi d a) 8 (fun m z _ a _ => (fxWord (fSinpi m) z (BitVec.ofNat 32 a)).toNat) s)

/-- `fx.cospi` (R160, R161). -/
def execFxCospi (d : BitVec 7) (a : BitVec 7) (s : State) : Host.Outcome State Fault Refusal :=
  .next (floatWord (.fxCospi d a) 8 (fun m z _ a _ => (fxWord (fCospi m) z (BitVec.ofNat 32 a)).toNat) s)

/-- `fx.tanh` (R160, R161). -/
def execFxTanh (d : BitVec 7) (a : BitVec 7) (s : State) : Host.Outcome State Fault Refusal :=
  .next (floatWord (.fxTanh d a) 8 (fun m z _ a _ => (fxWord (fTanh m) z (BitVec.ofNat 32 a)).toNat) s)

/-- `fx.ceil` (R160, R161). -/
def execFxCeil (d : BitVec 7) (a : BitVec 7) (s : State) : Host.Outcome State Fault Refusal :=
  .next (floatWord (.fxCeil d a) 4 (fun _ z _ a _ => (fxWord (fIntegral true) z (BitVec.ofNat 32 a)).toNat) s)

/-- `fx.floor` (R160, R161). -/
def execFxFloor (d : BitVec 7) (a : BitVec 7) (s : State) : Host.Outcome State Fault Refusal :=
  .next (floatWord (.fxFloor d a) 4 (fun _ z _ a _ => (fxWord (fIntegral false) z (BitVec.ofNat 32 a)).toNat) s)

/-- `fx.xexp` (R160, R161). -/
def execFxXexp (d : BitVec 7) (a : BitVec 7) (s : State) : Host.Outcome State Fault Refusal :=
  .next (floatWord (.fxXexp d a) 4 (fun _ z _ a _ => (fXexp (f32.flush z a)).toNat) s)

/-- `fx.ldexp` (R114, R160). -/
def execFxLdexp (d : BitVec 7) (a : BitVec 7) (b : BitVec 7) (s : State) : Host.Outcome State Fault Refusal :=
  .next (floatWord (.fxLdexp d a b) 4 (fun m z _ a b => fLdexp m z a (sextN 32 b)) s)

end Sys2Proof.Machine
end

