-- ==== Sys2Proof/Machine/Launch.lean ====
section
/-! DEFINITION. The hub's launch path (R32, R33, R189, R245-R258, R307, R310-R312, R329, R330): the queue port, records,
level tables and completion words, dispatch and placement, cancel, and the ends of units. -/

namespace Sys2Proof.Machine

open Sys2Proof

/-- A reject counted for a PASID, with its entry if it has one, newest first (R310, R312). -/
def logReject (s : State) (pasid : Nat) (count : Nat) (entry : Option Nat) : State :=
  modHub s (fun h =>
    let l := (mget h.rejects pasid).getD ⟨0, []⟩
    { h with rejects := mset h.rejects pasid ⟨l.count + count, match entry with | none => l.entries | some e => (e :: l.entries).take 6⟩ })

/-- An entry of the reject log (R312). (DEDUCED, log 83) -/
def rejectEntry (ident reason kind pasid : Nat) : Nat := ident % 2 ^ 16 + reason * 2 ^ 16 + kind * 2 ^ 24 + pasid % 2 ^ 20 * 2 ^ 32

/-- QPORT_SUBMIT (R245): Successful (answer 0) puts the record into intake; Retry (answer 1) when intake is full or holds 32
records of the PASID. -/
def execQportSubmit (pasid offset : Nat) (bytes : List Byte) (s : State) : Host.Outcome State Fault Refusal :=
  .next (
    if bytes.length ≠ 128 ∨ offset % 128 ≠ 0 ∨ offset ≥ 4096 then s
    else if s.hub.intake.length ≥ 512 ∨ (s.hub.intake.filter (fun r => r.pasid == pasid)).length ≥ 32
    then modHub s (fun h => { h with answers := h.answers ++ [1] })
    else modHub s (fun h => { h with intake := h.intake ++ [⟨pasid, bytes⟩], answers := h.answers ++ [0] }))

/-- QPORT_UNSUPPORTED_DMWR (R310): answered Unsupported Request (answer 2). -/
def execQportUnsupportedDmwr (pasid : Option Nat) (offset size : Nat) (s : State) : Host.Outcome State Fault Refusal :=
  .next (if size ≠ 128 ∨ offset % 128 ≠ 0 ∨ pasid.isNone then modHub s (fun h => { h with answers := h.answers ++ [2] }) else s)

/-- QPORT_MEMORY_WRITE (R310): dropped, and counted in the reject count of its PASID, or of PASID 0. -/
def execQportMemoryWrite (pasid : Option Nat) (s : State) : Host.Outcome State Fault Refusal := .next (logReject s (pasid.getD 0) 1 none)

/-- QPORT_MEMORY_READ (R310): completion with Unsupported Request (answer 2). -/
def execQportMemoryRead (_pasid : Option Nat) (s : State) : Host.Outcome State Fault Refusal :=
  .next (modHub s (fun h => { h with answers := h.answers ++ [2] }))

/-- A level entry's key is this. -/
def LevelEntry.is (e : LevelEntry) (dom : Nat) (l : Level) (n : Nat) : Bool := e.dom == dom && e.level == l && e.ident == n

/-- The live entry of a key (R249). -/
def liveEntry (s : State) (dom : Nat) (l : Level) (n : Nat) : Option LevelEntry := s.hub.levels.find? (fun e => e.is dom l n)

/-- A level entry changed. -/
def modEntryAt (s : State) (dom : Nat) (l : Level) (n : Nat) (f : LevelEntry → LevelEntry) : State :=
  modHub s (fun h => { h with levels := h.levels.map (fun e => if e.is dom l n then f e else e) })

/-- The completion word (R251, R311): STATE and the hub's time. -/
def doneWord (s : State) (state : Nat) : Nat := state * 2 ^ 62 + s.hub.time % 2 ^ 48

/-- The physical addresses of a completion word's bytes, if it can be written (R252). -/
def donePas (s : State) (asid va : Nat) : Option (List Nat) :=
  (List.range 8).foldr (fun i acc => match hubXlat s asid (va + i), acc with
    | .ok e, some l => if e.w && (isHbm (tlbPa e (va + i)) || isHost (tlbPa e (va + i))) then some (tlbPa e (va + i) :: l) else none
    | _, _ => none) (some [])

/-- The completion word is written at DONE, or its loss is logged with reason 11 (R251, R252, R311); what the host answers to
a write of host memory is a free value. -/
def writeDone (s : State) (pasid done state ident kind : Nat) : State :=
  if done = 0 then s
  else match donePas s pasid done with
    | none => logReject s pasid 0 (some (rejectEntry ident 11 kind pasid))
    | some pas =>
      if pas.any isHost && decide ((Config.freeWord s.free).toNat % 2 = 1)
      then logReject { s with free := s.free + 1 } pasid 0 (some (rejectEntry ident 11 kind pasid))
      else
      let bs := bytesOfNat 8 (doneWord s state)
      let s1 := if pas = (List.range 8).map (· + pas.headD 0) then homeWrite s (pas.headD 0) bs
        else (pas.zip bs).foldl (fun s ab => homeWrite s ab.1 [ab.2]) s
      pas.foldl (fun s pa => wakeMwait s none pa 1) s1

/-- An entry whose counter is 0 and that is closed or cancelled completes: its word, its parent's counter (R32, R249-R252). -/
def settleEntry (s : State) (e : LevelEntry) : State :=
  let st := if e.state = 0 then 1 else e.state
  let s1 := writeDone s e.donePasid e.done st e.ident e.doneKind
  let s2 := modEntryAt s1 e.dom e.level e.ident (fun x => { x with state := st, freeing := true, cycle := s.hub.cycle })
  match e.parent with
  | none => s2
  | some p => modEntryAt s2 e.dom p.1 p.2 (fun x => { x with count := x.count - 1 })

/-- Completion passes upward until nothing more completes (R32). -/
def settle : Nat → State → State
  | 0, s => s
  | fuel + 1, s => match s.hub.levels.find? (fun e => e.count == 0 && (e.closed || e.state != 0) && !e.freeing) with
    | none => s
    | some e => settle fuel (settleEntry s e)

/-- Every completion of this hub cycle. -/
def settleAll (s : State) : State := settle (s.hub.levels.length + 1) s

/-- A hub cycle begins: entries freed in the cycle before, which follows that of their completion, are gone (R249), with
their launches. -/
def freeEntries (h : Hub) : Hub :=
  let gone := fun (e : LevelEntry) => e.freeing && decide (e.cycle + 2 ≤ h.cycle)
  { h with levels := h.levels.filter (fun e => !gone e)
           launches := h.launches.filter (fun l => !(h.levels.any (fun e => gone e && e.is l.dom .launch l.lid))) }

/-- Fields of a record (R248, R253). -/
def recKind (b : List Byte) : Nat := numAt b 2 1
def recDom (b : List Byte) : Nat := numAt b 4 2
def recLid (b : List Byte) : Nat := numAt b 72 2
def recGid (b : List Byte) : Nat := numAt b 74 2
def recPhid (b : List Byte) : Nat := numAt b 76 2
def recJid (b : List Byte) : Nat := numAt b 78 2
def recCid (b : List Byte) : Nat := numAt b 8 2
def recDone (b : List Byte) : Nat := numAt b 96 8

/-- The level that CLVL names (R253). -/
def recLevel (b : List Byte) : Level :=
  match numAt b 6 1 with
  | 0 => .launch | 1 => .graph | 2 => .phase | _ => .job

/-- Reason 2 (R311): KIND, WCODE, COP or CLVL out of range, or a reserved field set. -/
def badFields (b : List Byte) : Bool :=
  if recKind b > 3 then true
  else if recKind b = 3 then
    decide (numAt b 3 1 > 1) || decide (recDom b ≥ 4096) || decide (numAt b 6 1 > 3) || numAt b 7 1 != 0 || numAt b 10 86 != 0 || numAt b 104 24 != 0 ||
    (numAt b 3 1 == 1 && recDone b != 0)
  else
    decide (numAt b 3 1 > 3) || decide (recDom b ≥ 4096) || decide (numAt b 6 1 ≥ 16) || numAt b 7 1 != 0 || decide (numAt b 64 8 ≥ 2 ^ 47) || numAt b 104 24 != 0

/-- Reason 1: VER outside HUB.LRVER (R247). -/
def badVer (s : State) (b : List Byte) : Bool :=
  let v := rdReg s .lrver
  numAt b 1 1 != fld v 23 16 || decide (numAt b 0 1 < fld v 15 8) || decide (fld v 7 0 < numAt b 0 1)

/-- Reason 3: no domain table entry holds the identifier with the PASID's ASID (R68, R248). -/
def domHeld (s : State) (dom asid : Nat) : Bool :=
  (List.range 224).any (fun c => (List.range 8).any (fun k =>
    let v := rdReg s (.domtab c k)
    domState v != 0 && domDom v == dom && domAsid v == asid % 2 ^ 20))

/-- An entry that a node or step may not name (R311 reason 7). -/
def closedAt (s : State) (dom : Nat) (l : Level) (n : Nat) : Bool := n != 0 && (liveEntry s dom l n).any (·.closed)

/-- The reason for which a record is rejected at processing, lowest first (R311); 0 for none. -/
def recReason (s : State) (pasid : Nat) (b : List Byte) : Nat :=
  let k := recKind b
  let d := recDom b
  if badVer s b then 1
  else if badFields b then 2
  else if !domHeld s d pasid then 3
  else if k = 3 then (if (recLevel b = .launch ∧ numAt b 3 1 = 0) ∨ (liveEntry s d (recLevel b) (recCid b)).isNone then 8 else 0)
  else
    let width := 8 * 2 ^ numAt b 3 1
    if numAt b 20 4 = 0 ∨ numAt b 20 4 % width ≠ 0 ∨ numAt b 20 4 > 65536 ∨ numAt b 24 4 = 0 ∨ numAt b 24 4 > 2 ^ 24 then 4
    else if numAt b 8 8 % 256 ≠ 0 ∨ numAt b 32 8 % 4 ≠ 0 ∨ numAt b 56 8 % 128 ≠ 0 then 5
    else if recLid b = 0 || (liveEntry s d .launch (recLid b)).isSome || (recGid b != 0) != (k == 1) || (k == 2 && recPhid b == 0) || (k == 0 && recPhid b != 0) then 6
    else if closedAt s d .graph (recGid b) || closedAt s d .phase (recPhid b) then 7
    else 0

/-- The new entries that a record needs (R249). -/
def newEntries (s : State) (b : List Byte) : Nat :=
  let d := recDom b
  let need := fun (l : Level) (n : Nat) => if n != 0 && (liveEntry s d l n).isNone then 1 else 0
  1 + need .graph (recGid b) + need .phase (recPhid b) + need .job (recJid b)

/-- A record is held while the level table has no room for its entries (R249). -/
def heldHead (s : State) (pasid : Nat) (b : List Byte) : Bool :=
  recReason s pasid b == 0 && recKind b != 3 && decide (s.hub.levels.length + newEntries s b > 16384)

/-- The PASIDs with a record waiting, in the order of the rotation (R246). -/
def waitingPasids (s : State) : List Nat :=
  let ps := sortBy (fun p => p) (nub (s.hub.intake.map (·.pasid)))
  match s.hub.lastPasid with
  | none => ps
  | some p => ps.filter (fun q => decide (p < q)) ++ ps.filter (fun q => decide (q ≤ p))

/-- The head of a PASID's intake. -/
def headOf (s : State) (p : Nat) : Option (List Byte) := (s.hub.intake.find? (fun r => r.pasid == p)).map (·.bytes)

/-- The first record of a PASID leaves intake. -/
def dropFirst (p : Nat) : List Intake → List Intake
  | [] => []
  | r :: l => if r.pasid = p then l else r :: dropFirst p l

/-- The identifier that a record's log entry shows (R312). -/
def recIdent (b : List Byte) : Nat := if recKind b = 3 then recCid b else recLid b

/-- A rejected record (R311, R312): logged, and its nonzero DONE receives STATE 3. -/
def rejectRec (s : State) (pasid : Nat) (b : List Byte) (reason : Nat) : State :=
  writeDone (logReject s pasid 1 (some (rejectEntry (recIdent b) reason (recKind b) pasid))) pasid (recDone b) 3 (recIdent b) (recKind b)

/-- The hub's next record, processed by its KIND; at most one in a hub cycle (R246). (DEDUCED, log 86) -/
def processHead (mine : List Byte → Bool) (act : Nat → List Byte → State → State) (s : State) : State :=
  if s.hub.procCycle > s.hub.cycle then s
  else match (waitingPasids s).find? (fun p => (headOf s p).any (fun b => !heldHead s p b)) with
    | none => s
    | some p => match headOf s p with
      | none => s
      | some b =>
        if !mine b then s
        else
          let s1 := modHub s (fun h => { h with intake := dropFirst p h.intake, lastPasid := some p, procCycle := h.cycle + 1 })
          let r := recReason s p b
          settleAll (if r ≠ 0 then rejectRec s1 p b r else act p b s1)

/-- The parent that counts a new child: none when it is no longer there or has completed (R249, R250). -/
def liveParent (s : State) (dom : Nat) (p : Option (Level × Nat)) : Option (Level × Nat) :=
  match p with
  | none => none
  | some k => if (liveEntry s dom k.1 k.2).any (fun e => !(e.freeing && e.state == 1)) then some k else none

/-- An entry is created, if its key has none (R249): its parent counts it; below a cancelled entry it is cancelled (R33). -/
def makeEntry (s : State) (dom : Nat) (l : Level) (n count : Nat) (closed : Bool) (parent : Option (Level × Nat)) (done pasid kind : Nat) : State :=
  if n = 0 || (liveEntry s dom l n).isSome then s
  else
    let p := liveParent s dom parent
    let st := match p with | none => 0 | some k => ((liveEntry s dom k.1 k.2).map (·.state)).getD 0
    let s1 := match p with | none => s | some k => modEntryAt s dom k.1 k.2 (fun e => { e with count := e.count + 1 })
    modHub s1 (fun h => { h with levels := h.levels ++
      [⟨dom, l, n, if st = 0 then count else 0, closed, p, done, pasid, kind, if st = 0 then 0 else 2, false, s.hub.cycle⟩] })

/-- A key of the record, none for identifier 0. -/
def keyOf (l : Level) (n : Nat) : Option (Level × Nat) := if n = 0 then none else some (l, n)

/-- The producers of a record that are live launches (R255), as acceptance numbers. -/
def recProds (s : State) (b : List Byte) : List Nat :=
  ((List.range 8).map (fun i => numAt b (80 + 2 * i) 2)).filterMap (fun n =>
    if n = 0 then none else (s.hub.launches.find? (fun l => l.dom == recDom b && l.lid == n)).map (·.order))

/-- The launch of an accepted record (R248, R255). -/
def recLaunch (s : State) (pasid : Nat) (b : List Byte) (ended : Nat) : Launch :=
  { dom := recDom b, lid := recLid b, pasid := pasid, asid := pasid % 2 ^ 20, kind := recKind b, wcode := numAt b 3 1, prio := numAt b 6 1
    kimg := numAt b 8 8, kidx := numAt b 16 4, usize := numAt b 20 4, ucnt := numAt b 24 4, spsz := numAt b 28 4, argb := numAt b 32 8
    aff := numAt b 40 8, astr := sextN 64 (numAt b 48 8), spill := numAt b 56 8, shreq := numAt b 64 8, prods := recProds s b, nextUnit := 0
    order := s.hub.orderNext, checked := false, held := false, triggered := false, ended := ended, told := [] }

/-- A launch record is accepted (R248, R249, R255): its entries are created, job, phase and graph before the launch. -/
def acceptLaunch (pasid : Nat) (b : List Byte) (s : State) : State :=
  let d := recDom b
  let s1 := makeEntry s d .job (recJid b) 0 false none 0 0 0
  let s2 := makeEntry s1 d .phase (recPhid b) 0 false (keyOf .job (recJid b)) 0 0 0
  let s3 := makeEntry s2 d .graph (recGid b) 0 false (keyOf .phase (recPhid b)) 0 0 0
  let parent := if recKind b = 1 then keyOf .graph (recGid b) else if recKind b = 2 then keyOf .phase (recPhid b) else none
  let s4 := makeEntry s3 d .launch (recLid b) (numAt b 24 4) true parent (recDone b) pasid (recKind b)
  let dead := ((liveEntry s4 d .launch (recLid b)).map (·.state)).getD 0
  modHub s4 (fun h => { h with launches := h.launches ++ [recLaunch s pasid b dead], orderNext := h.orderNext + 1 })

/-- PROCESS_LAUNCH (R248): a KIND 0 record; a record of no KIND is rejected here. (DEDUCED, log 80) -/
def execProcessLaunch (s : State) : Host.Outcome State Fault Refusal := .next (processHead (fun b => recKind b == 0 || decide (recKind b > 3)) acceptLaunch s)

/-- PROCESS_GRAPH_NODE (R249): a KIND 1 record. -/
def execProcessGraphNode (s : State) : Host.Outcome State Fault Refusal := .next (processHead (fun b => recKind b == 1) acceptLaunch s)

/-- PROCESS_PHASE_STEP (R249): a KIND 2 record. -/
def execProcessPhaseStep (s : State) : Host.Outcome State Fault Refusal := .next (processHead (fun b => recKind b == 2) acceptLaunch s)

/-- CONTROL_CLOSE (R253): the entry's closed flag and DONE address; a completed entry keeps its own. -/
def execControlClose (s : State) : Host.Outcome State Fault Refusal :=
  .next (processHead (fun b => recKind b == 3 && numAt b 3 1 != 1) (fun pasid b s =>
    modEntryAt s (recDom b) (recLevel b) (recCid b) (fun e =>
      if e.freeing then e else { e with closed := true, done := recDone b, donePasid := pasid, doneKind := 3 })) s)

/-- A key lies at or below another (R33). -/
def isBelow (s : State) (dom : Nat) (top : Level × Nat) : Nat → Level × Nat → Bool
  | 0, k => k == top
  | n + 1, k => k == top || (match (liveEntry s dom k.1 k.2).bind (·.parent) with | none => false | some p => isBelow s dom top n p)

/-- A group's queued work is discarded (R33): TQ entries, engine commands, array words and solver operations not started. -/
def purgeGroup (x : Group) : Group :=
  let eq := x.eq.map (fun q => q.filter (·.started))
  { x with eq := eq, oc := eq.map (·.length), trap := none, heldConds := [], stopAt := none, pause := none, wait := ⟨.none, 0, 0, false⟩, arrs := []
           threads := x.threads.map (fun h => { h with tq := [], aside := [], cond := none, joined := false, ready := none }) }

/-- A core's queued work of a unit is discarded (R33), with its entries in the commit buffer (R94). -/
def purgeCore (uid : Nat) (c : Core) : Core :=
  { dropInterval uid c with
           solverQ := c.solverQ.filter (fun o => o.uid != uid)
           chans := c.chans.map (fun ch => { ch with waiting := ch.waiting.filter (fun r => r.uid != uid) })
           parts := c.parts.map (fun p => (p.1, { p.2 with mxq := p.2.mxq.filter (fun m => m.uid != uid), picks := p.2.picks.filter (fun k => k.uid != uid) })) }

/-- A unit ends by cancel (`how` 1) or fault (2), from step 3 of R33 (R307): what has not started is discarded. (DEDUCED, log 70) -/
def endUnit (how : Nat) (s : State) (uid : Nat) : State :=
  let s1 := modUnit s uid (fun u => { u with cancel := how, groups := u.groups.map purgeGroup })
  { s1 with cores := s1.cores.map (fun e => (e.1, purgeCore uid e.2)) }

/-- A launch is ended early (R33): no further unit is dispatched, and undispatched units count as complete. -/
def stopLaunch (how : Nat) (s : State) (dom lid : Nat) : State :=
  match s.hub.launches.find? (fun l => l.dom == dom && l.lid == lid) with
  | none => s
  | some l =>
    if l.ended ≠ 0 then s
    else modHub (modEntryAt s dom .launch lid (fun e => { e with count := e.count - (l.ucnt - l.nextUnit), state := if e.freeing then e.state else how })) (fun h =>
      { h with launches := h.launches.map (fun k => if k.order == l.order then { k with ended := how } else k) })

/-- The units of a launch. -/
def launchUnits (s : State) (dom lid : Nat) : List Nat := (s.units.filter (fun u => u.dom == dom && u.lid == lid && u.cancel == 0)).map (·.uid)

/-- A launch is cancelled with its resident units (R33); `how` 2 cancelled, 3 faulted. -/
def cancelLaunch (how : Nat) (s : State) (dom lid : Nat) : State :=
  (launchUnits s dom lid).foldl (endUnit (how - 1)) (stopLaunch how s dom lid)

/-- Cancel of a level instance, at every depth below it (R33, R250). -/
def cancelLevel (s : State) (dom : Nat) (top : Level × Nat) : State :=
  let hit := s.hub.levels.filter (fun e => e.dom == dom && !e.freeing && e.state == 0 && isBelow s dom top 4 (e.level, e.ident))
  let s1 := hit.foldl (fun s e => if e.level == .launch then cancelLaunch 2 s dom e.ident else s) s
  hit.foldl (fun s e => modEntryAt s dom e.level e.ident (fun x => { x with state := if x.state = 0 then 2 else x.state, cycle := s.hub.cycle })) s1

/-- CONTROL_CANCEL (R33, R253); an entry that has completed is not affected (R250). -/
def execControlCancel (s : State) : Host.Outcome State Fault Refusal :=
  .next (processHead (fun b => recKind b == 3 && numAt b 3 1 == 1) (fun _ b s =>
    if (liveEntry s (recDom b) (recLevel b) (recCid b)).any (fun e => !e.freeing) then cancelLevel s (recDom b) (recLevel b, recCid b) else s) s)

/-- A domain's slot runs on a core. -/
def runsOn (s : State) (core dom : Nat) : Bool := (slotOfDom s core dom).any (slotRuns s core)

/-- The dies where a domain holds a running slot (R257). -/
def domDies (s : State) (dom : Nat) : List Nat :=
  (List.range 8).filter (fun d => !(dieOf s d).safe && !bitN (rdReg s (.therm d)) 63 && (List.range 28).any (fun c => runsOn s (28 * d + c) dom))

/-- The distance of two numbers. -/
def absDiff (a b : Nat) : Nat := Nat.max a b - Nat.min a b

/-- The links between two dies (R13). -/
def meshDist (a b : Nat) : Nat := absDiff (a % 4) (b % 4) + absDiff (a / 4) (b / 4)

/-- The affinity address's place in HBM5, if it has one (R250, R257). -/
def affPa (s : State) (l : Launch) (u : Nat) : Option (Nat × Nat) :=
  if l.aff = 0 then none
  else
    let a := wrapN 64 (Int.ofNat l.aff + Int.ofNat u * l.astr)
    match hubXlat s l.asid a with
    | .error _ => none
    | .ok e => match plocOf (tlbPa e a) with
      | .hbm d => some (d, tlbPa e a)
      | _ => none

/-- The preferred die and core of unit u (R257). -/
def preferred (s : State) (l : Launch) (u : Nat) : Option (Nat × Nat) :=
  let ds := domDies s l.dom
  if ds.isEmpty then none
  else match affPa s l u with
    | some (d, pa) => some ((sortBy (fun x => 8 * meshDist d x + x) ds).headD 0, 7 * fld pa 21 16 / 16)
    | none => some ((ds[u % ds.length]?).getD 0, u / ds.length % 28)

/-- The search order of a die from core p (R258), as device cores where the domain runs. -/
def searchCores (s : State) (die p dom : Nat) (ok : Nat → Bool) : List Nat :=
  let q := p / 4
  let own := (List.range 4).map (fun i => 4 * q + (p + i) % 4)
  let others := (sortBy (fun c => 8 * absDiff c q + c) ((List.range 7).filter (fun c => c != q))).flatMap (fun c => (List.range 4).map (fun i => 4 * c + i))
  ((own ++ others).filter ok).filterMap (fun c => if runsOn s (28 * die + c) dom then some (28 * die + c) else none)

/-- A unit of a launch before placement. -/
def launchUnit (l : Launch) (uid u spill die : Nat) (k : Kernel) : DUnit :=
  newUnit uid l.lid l.dom l.asid l.pasid u l.usize (8 * 2 ^ l.wcode) l.argb spill l.spsz die l.prods k

/-- The twin of a placed primary (R329, R330). -/
def placeTwin (s : State) (l : Launch) (v : DUnit) (die : Nat) (k : Kernel) : Option State :=
  let uid := s.nextUid
  let tw := { launchUnit l uid v.unitidx (l.spill + 128 * l.spsz * (l.ucnt + v.unitidx)) die k with primary := false }
  let taken := v.groups.map (fun x => x.core % 28 / 4)
  match placeUnit { s with nextUid := uid + 1 } tw k (searchCores s die (4 * ((v.home % 28 / 4 + 1) % 7)) l.dom (fun c => !taken.contains (c / 4))) with
  | none => none
  | some s1 =>
    let s2 := modUnit (modUnit s1 v.uid (fun u => { u with twin := some uid })) uid (fun u => { u with twin := some v.uid })
    some (newInterval (newInterval (unitWrites (unitWrites s2 v.uid) uid) v.uid) uid)

/-- A unit of a launch is placed, with its twin when the kernel is checked (R258, R329). -/
def placeNext (s : State) (l : Launch) (k : Kernel) (die p : Nat) : Option State :=
  let uid := s.nextUid
  match placeUnit { s with nextUid := uid + 1 } (launchUnit l uid l.nextUnit (l.spill + 128 * l.spsz * l.nextUnit) die k) k
      (searchCores s die p l.dom (fun _ => true)) with
  | none => none
  | some s1 =>
    if !k.chk then some (unitWrites s1 uid)
    else match unitOf s1 uid with
      | none => none
      | some v => placeTwin s1 l v die k

/-- A launch's producers have had all their units dispatched, and it still has units to dispatch (R255). (DEDUCED, log 73) -/
def dispatchable (s : State) (l : Launch) : Bool :=
  l.ended == 0 && decide (l.nextUnit < l.ucnt) && !l.held &&
  l.prods.all (fun o => match s.hub.launches.find? (fun p => p.order == o) with
    | none => true
    | some p => p.ended != 0 || decide (p.ucnt ≤ p.nextUnit))

/-- The launch that takes the next turn (R256): domains in rotation, then highest PRIO, then the first accepted. -/
def turnOf (s : State) : Option Launch :=
  let ls := s.hub.launches.filter (dispatchable s)
  let ds := sortBy (fun d => d) (nub (ls.map (·.dom)))
  let d := match s.hub.lastDom with
    | none => ds.head?
    | some p => match ds.find? (fun q => decide (p < q)) with | none => ds.head? | some q => some q
  d.bind (fun d => ls.foldl (fun best l => if l.dom != d then best else match best with
    | none => some l
    | some m => if m.prio < l.prio || (m.prio == l.prio && decide (l.order < m.order)) then some l else some m) none)

/-- A launch changed. -/
def modLaunch (s : State) (order : Nat) (f : Launch → Launch) : State :=
  modHub s (fun h => { h with launches := h.launches.map (fun l => if l.order == order then f l else l) })

/-- The domain's slots demand a signature: the KEY of one that does (R142, R279). -/
def signKey (s : State) (dom : Nat) : Option Nat :=
  (List.range 224).findSome? (fun c => (slotOfDom s c dom).bind (fun k =>
    let v := rdReg s (.domtab c k)
    if bitN v 124 then some (fld v 31 24) else none))

/-- The reason for which a launch is rejected at its first dispatch (R142, R143, R311), or its kernel. -/
def dispatchCheck (s : State) (l : Launch) : Except Nat Kernel :=
  let m : Img := ⟨(hubRoot s l.asid).getD 0, l.asid, l.kimg⟩
  if l.nextUnit ≠ 0 then .ok (readKernel s m (sections s m) l.kidx)
  else match loadKernel s m l.kidx with
    | none => .error 9
    | some k =>
      if !launchFits k l.wcode l.usize l.argb then .error 9
      else match signKey s l.dom with
        | none => .ok k
        | some key => if sigOk s m key then .ok k else .error 10

/-- A launch rejected at its first dispatch (R311): logged, and its entry ends with STATE 3. -/
def rejectLaunch (s : State) (l : Launch) (reason : Nat) : State :=
  stopLaunch 3 (logReject s l.pasid 1 (some (rejectEntry l.lid reason l.kind l.pasid))) l.dom l.lid

/-- The share request of a launch goes to the controller of each die that it is dispatched to, once (R254). -/
def passShare (s : State) (l : Launch) (die : Nat) : State :=
  if l.told.contains die then s
  else modHub (modLaunch s l.order (fun x => { x with told := x.told ++ [die] })) (fun h => { h with shares := h.shares ++ [(l.dom, l.lid, die, l.shreq)] })

/-- DISPATCH_TURN (R256-R258, R329): the next unit of the launch whose turn it is is placed, or the launch is passed over. -/
def execDispatchTurn (s : State) : Host.Outcome State Fault Refusal :=
  .next (
    if s.hub.dispCycle > s.hub.cycle then s
    else match turnOf s with
    | none => s
    | some l =>
      let s0 := modHub s (fun h => { h with lastDom := some l.dom, dispCycle := h.cycle + 1 })
      match dispatchCheck s l with
      | .error r => settleAll (rejectLaunch s0 l r)
      | .ok k =>
        let pass := modLaunch s0 l.order (fun x => { x with held := true })
        match preferred s l l.nextUnit with
        | none => pass
        | some (die, p) => match placeNext s0 l k die p with
          | none => pass
          | some s1 => passShare (modLaunch s1 l.order (fun x => { x with nextUnit := x.nextUnit + 1, checked := k.chk })) l die)

/-- Launches that were passed over are tried again (R256). -/
def retryLaunches (s : State) (p : Nat → Bool) : State :=
  modHub s (fun h => { h with launches := h.launches.map (fun l => if p l.dom then { l with held := false } else l) })

/-- A unit's POOL entries have all performed. -/
def poolEmptyOf (s : State) (uid : Nat) : Bool := s.cores.all (fun e => !(e.2.pool.any (fun p => p.uid == uid)))

/-- A unit is complete (R31, R332), or cancelled with its started work at its end (R33). (DEDUCED, log 91) -/
def unitDone (s : State) (u : DUnit) : Bool :=
  poolEmptyOf s u.uid &&
  (if u.cancel ≠ 0 then startedEnded s u.uid
   else u.fatalClk.isNone && (!u.chk || u.rollPhase == 3) &&
     u.groups.all (fun x => x.ended && x.trap.isNone && x.heldConds.isEmpty && x.oc.all (· == 0) &&
       x.threads.all (fun h => h.tq.isEmpty && h.cond.isNone)))

/-- The tags of a unit on a core are given up in this clock (R39). -/
def freeTags (s : State) (uid core : Nat) (c : Core) : List (Nat × Nat) :=
  c.freed ++ (((unitOf s uid).bind (fun u => mget u.tags core)).map (fun t => (t, c.clk))).toList

/-- A unit leaves the machine: its names, buffers, barriers and reservations return to the binder (R31, R33, R63, R191). -/
def removeUnit (s : State) (uid : Nat) : State :=
  { s with
    units := s.units.filter (fun u => u.uid != uid)
    reports := s.reports.filter (fun r => r.uid != uid)
    cores := s.cores.map (fun e => (e.1, { e.2 with
      loads := e.2.loads.filter (fun l => l.uid != uid)
      pend := e.2.pend.filter (fun p => p.uid != uid)
      journal := e.2.journal.filter (fun j => j.1 / 2 ^ 48 != uid)
      freed := freeTags s uid e.1 e.2
      parts := e.2.parts.map (fun p => (p.1, { p.2 with
        rsvs := p.2.rsvs.filter (fun r => r.uid != uid)
        staging := p.2.staging.filter (fun q => q.1 != uid)
        picks := p.2.picks.filter (fun k => k.uid != uid) })) })) }

/-- CORE.DBGSTAT no longer shows a unit that has ended as stopped (R353). -/
def clearStop (s : State) (u : DUnit) : State :=
  if u.dbgSrc = 0 then s else dbgStatClear s u

/-- UNIT_COMPLETE (R31-R33, R249, R256, R330): the unit, with its twin, leaves the machine and its launch's counter falls
by 1; of a launch cancelled in this hub cycle, or below an entry cancelled in it, no unit completes in it any more (R250). -/
def execUnitComplete (uid : Nat) (s : State) : Host.Outcome State Fault Refusal :=
  .next (match unitOf s uid with
  | none => s
  | some u =>
    if !((pairOf s uid).all (fun v => (unitOf s v).any (unitDone s))) ||
      s.hub.levels.any (fun e => e.dom == u.dom && e.state == 2 && !e.freeing && e.cycle == s.hub.cycle &&
        isBelow s u.dom (e.level, e.ident) 4 (.launch, u.lid)) then s
    else
      let s1 := (pairOf s uid).foldl removeUnit (clearStop s u)
      let s2 := retryLaunches s1 (fun d => (domDies s d).contains u.die)
      settleAll (modEntryAt s2 u.dom .launch u.lid (fun e => { e with count := e.count - 1 })))

/-- A group has triggered or ended (R189). -/
def groupTriggered (x : Group) : Bool := x.ended || x.trigger == 1

/-- LAUNCH_TRIGGERED (R189): every unit dispatched, and every group triggered or ended. -/
def execLaunchTriggered (dom lid : Nat) (s : State) : Host.Outcome State Fault Refusal :=
  .next (match s.hub.launches.find? (fun l => l.dom == dom && l.lid == lid) with
  | none => s
  | some l =>
    if (l.ended != 0 || decide (l.ucnt ≤ l.nextUnit)) &&
      s.units.all (fun u => u.dom != dom || u.lid != lid || u.cancel != 0 || u.groups.all groupTriggered)
    then modLaunch s l.order (fun x => { x with triggered := true }) else s)

/-- A group has written its last frame, or failed to, or ended before the stop reached it (R306, R307). -/
def frameSettled (x : Group) : Bool := x.stopAt.isNone && (match x.trap with | none => x.ended | some t => t.fatal && t.frame != 0)

/-- FATAL_UNIT_END (R307): every group's frame is written; the unit ends and its launch is cancelled with STATE 3. -/
def execFatalUnitEnd (uid : Nat) (s : State) : Host.Outcome State Fault Refusal :=
  .next (match unitOf s uid with
  | none => s
  | some u =>
    if u.fatalClk.isNone || u.cancel != 0 || !((pairOf s uid).all (fun v => (unitOf s v).any (fun w => w.groups.all frameSettled))) then s
    else settleAll (cancelLaunch 3 ((pairOf s uid).foldl (endUnit 2) s) u.dom u.lid))

end Sys2Proof.Machine
end

