-- ==== Sys2Proof/Machine/Windows.lean ====
section
/-! DEFINITION. The window port (R84, R99, R190, R242-R244, R296): puts, gets, the cells they advance, and the accesses
that other devices make through windows registered here. -/

namespace Sys2Proof.Machine

open Sys2Proof

/-- A word that hands a descriptor to the window port (R190, R294, R335); `get` tells a get from a put. (DEDUCED, log 30) -/
def windowWord (i : Instr) (get : Bool) (s : State) : State :=
  groupWord i (fun s x =>
      let off := (gA s x i).toNat
      (if off % 64 ≠ 0 ∨ !((issUnit s).any (fun u => inBuf u x.core off 64)) then [(0x21, 1)] else []) ++
      (if (issUnit s).any (·.chk) then [(0x21, 7)] else []))
    (fun s x _ cd => if cd.1 = 0x21 then apertureVa (gA s x i).toNat else issueVa s x)
    (fun uid x ts s =>
      let id := s.seq
      let s1 := beginWord { s with seq := id + 1 } i uid x.gidx ts true [] id
      advanceNext (pushEq s1 uid x.gidx 4 ts id ((gA s x i).toNat + (if get then 2 ^ 32 else 0)) false) uid x.gidx ts) s

/-- `eng.put` (R190). -/
def execEngPut (a : BitVec 7) (s : State) : Host.Outcome State Fault Refusal := .next (windowWord (.engPut a) false s)

/-- `eng.get` (R190). -/
def execEngGet (a : BitVec 7) (s : State) : Host.Outcome State Fault Refusal := .next (windowWord (.engGet a) true s)

/-- An entry of DIE.WINTAB (R242). -/
structure Window where
  v : Bool
  rem : Bool
  tdie : Nat
  sdom : Nat
  tdom : Nat
  rdev : Nat
  tasid : Nat
  base : Nat
  size : Nat
  arrv : Nat
deriving DecidableEq, Repr

/-- The fields of an entry's value. -/
def windowFields (w : Nat) : Window :=
  ⟨bitN w 255, bitN w 254, fld w 253 251, fld w 247 236, fld w 235 224, fld w 223 208, fld w 207 188, fld w 187 132, fld w 131 92, fld w 91 36⟩

/-- The entry of a die's table. -/
def windowOf (s : State) (die n : Nat) : Window := windowFields (rdReg s (.wintab die n))

/-- What a started operation keeps (R99, R242): length, the acked cell of a put or LOC of a get, the offset, its entry's
value when it started, and the offset of its descriptor. -/
def windowArg (len loc toff v desc : Nat) : Nat := len + 2 ^ 32 * loc + 2 ^ 96 * toff + 2 ^ 160 * v + 2 ^ 416 * desc
def argLen (a : Nat) : Nat := a % 2 ^ 32
def argLoc (a : Nat) : Nat := a / 2 ^ 32 % 2 ^ 64
def argOff (a : Nat) : Nat := a / 2 ^ 96 % 2 ^ 64
def argWindow (a : Nat) : Window := windowFields (a / 2 ^ 160 % 2 ^ 256)
def argDesc (a : Nat) : Nat := a / 2 ^ 416

/-- The window is on another device, reached over Ethernet (R242, R278). -/
def Window.far (s : State) (w : Window) : Bool := w.rem && !(bitN (rdReg s .devnum) 16 && fld (rdReg s .devnum) 15 0 == w.rdev)

/-- The links of the path between two dies (R12, R13): along the row, then between the rows. -/
def pathLinks (a b : Nat) : List Nat :=
  let lo := Nat.min (a % 4) (b % 4)
  let hi := Nat.max (a % 4) (b % 4)
  (List.range (hi - lo)).map (fun k => 3 * (a / 4) + lo + k) ++ (if a / 4 = b / 4 then [] else [6 + b % 4])

/-- The path of a window is closed, or its target die has tripped or stands in the safe state (R277, R282, R296 WINDOW 5, R327). -/
def pathClosed (s : State) (w : Window) (die : Nat) : Bool :=
  bitN (rdReg s (.therm w.tdie)) 63 || (dieOf s w.tdie).safe || (!w.rem && (pathLinks die w.tdie).any (fun l => bitN (rdReg s (.flash l)) 1))

/-- The range and the arrived cell lie where R242 allows. -/
def windowPlaced (w : Window) : Bool :=
  let at1 := fun (a b : Nat) => match vlocOf a, vlocOf b with | .mapped, .mapped => true | .chip _, .chip _ => true | _, _ => false
  at1 w.base (w.base + w.size - 1) && at1 w.arrv (w.arrv + 7)

/-- A put or get descriptor (R243). -/
structure WDesc where
  widx : Nat
  loc : Nat
  toff : Nat
  len : Nat
  acka : Nat
deriving DecidableEq, Repr

/-- The fields of a descriptor's bytes. -/
def wdescOf (b : List Byte) : WDesc := ⟨numAt b 0 2, numAt b 8 8, numAt b 16 8, numAt b 24 4, numAt b 32 8⟩

/-- The descriptor is well formed (R243). -/
def wdescOk (get : Bool) (b : List Byte) : Bool :=
  let d := wdescOf b
  decide (d.widx < 1024) && zeroRange b 2 6 && d.len != 0 && zeroRange b 28 4 && (if get then d.acka == 0 else d.acka % 8 == 0) && zeroRange b 40 24

/-- One piece of a target's access (R242): translated by the target die through TASID under TDOM. -/
def targetPiece (s : State) (die asid dom : Nat) (write : Bool) (va n : Nat) : Except (Nat × Nat) Nat :=
  match vlocOf va with
  | .chip h => if (List.range n).all (fun i => (chipSite s die (h + i)).any (fun c => c.dom == dom)) then .ok (chipPa die h)
      else .error (0x15, if (List.range n).all (fun i => (chipSite s die (h + i)).isSome) then 2 else 1)
  | .mapped =>
      let e : Except (Nat × Nat) Tlb := match tlbHit (dieOf s die).tlb asid va with | some e => .ok e | none => walk s die asid va
      match e with
      | .error e => .error e
      | .ok e => if write && !e.w then .error (0x13, 1) else checkPa (28 * die) (if write then .engWrite else .engRead) false (tlbPa e va)
  | .scratch _ => .error (0x14, 5)
  | .wptr _ => .error (0x14, 5)
  | .none => .error (0x11, 2)

/-- The pieces of a target's range with their physical addresses, or the first condition with its address. -/
def targetCheck (s : State) (die asid dom : Nat) (write : Bool) : List (Nat × Nat) → Except ((Nat × Nat) × Nat) (List (Nat × Nat × Nat))
  | [] => .ok []
  | (va, n) :: l => match targetPiece s die asid dom write va n with
    | .error e => .error (e, va)
    | .ok pa => match targetCheck s die asid dom write l with
      | .error e => .error e
      | .ok r => .ok ((va, pa, n) :: r)

/-- A target-side condition as the source sees it (R296): XLATE, PROT, REACH and AMAP are WINDOW 6, DOMAIN stays. -/
def targetCond (e : (Nat × Nat) × Nat) : (Nat × Nat) × Nat := if e.1.1 = 0x15 then e else ((0x21, 6), e.2)

/-- The next operation of a group that the window port may start (R97, R190): the group's oldest one not started. -/
def nextWindow (s : State) (uid g : Nat) (get : Bool) : Option (Group × EqEntry) :=
  match groupOf s uid g with
  | none => none
  | some x => match ((x.eq[4]?).getD []).find? (fun e => !e.started) with
    | none => none
    | some e =>
      if (decide (2 ^ 32 ≤ e.arg)) != get || slotState s x.core x.slot == 2 || slotState s x.core x.slot == 3 || !mayStart s uid g 4 e.id then none
      else some (x, e)

/-- The descriptor of an operation, read at HOME. -/
def descBytes (s : State) (x : Group) (e : EqEntry) : List Byte := homeRead s (scratchPa x.core (e.arg % 2 ^ 32)) 64

/-- The command of a window operation at its source. -/
def winCmd (uid : Nat) (x : Group) (e : EqEntry) : Cmd := cmdOf x uid 4 x.dom x.asid e

/-- The first condition of a window operation at its start, in the order of R296 (DEDUCED, log 40): descriptor, entry, path, target range. -/
def windowCond (s : State) (x : Group) (e : EqEntry) (get : Bool) : Option ((Nat × Nat) × Nat) :=
  let b := descBytes s x e
  let d := wdescOf b
  let at0 := apertureVa (e.arg % 2 ^ 32)
  let w := windowOf s (dieOfCore x.core) d.widx
  if !wdescOk get b then some ((0x21, 1), at0)
  else if !w.v then some ((0x21, 2), at0)
  else if w.sdom ≠ x.dom then some ((0x21, 3), at0)
  else if w.size < d.toff + d.len then some ((0x21, 4), at0)
  else if w.far s then none
  else if !windowPlaced w then some ((0x21, 8), at0)
  else if pathClosed s w (dieOfCore x.core) then some ((0x21, 5), at0)
  else match targetCheck s w.tdie w.tasid w.tdom (!get) (pieces (d.len + 1) (w.base + d.toff) d.len) with
    | .error f => some (targetCond f)
    | .ok _ => if get then none else match targetCheck s w.tdie w.tasid w.tdom true [(w.arrv, 8)] with
      | .error f => some (targetCond f)
      | .ok _ => none

/-- The window operation meets a condition and finishes (R296). -/
def failWindow (s : State) (uid g id : Nat) (e : (Nat × Nat) × Nat) : State := failOp (startEq s uid g 4 id) uid g 4 id e.1 e.2

/-- The bytes of a put perform at the target (R99). -/
def putBytesAt (s : State) (c : Cmd) (w : Window) (va : Nat) (bs : List Byte) : State :=
  match targetCheck s w.tdie w.tasid w.tdom true (pieces (bs.length + 1) va bs.length) with
  | .error _ => s
  | .ok ps => ps.foldl (fun s p => engPut s { c with dom := w.tdom } p.2.1 ((bs.drop (p.1 - va)).take p.2.2)) s

/-- What a target's read takes comes through its L2: `false` while a transfer is still to bring it (R80, R361, R363). -/
def targetFetch (s : State) (w : Window) (va n : Nat) : State × Bool :=
  match targetCheck s w.tdie w.tasid w.tdom false (pieces (n + 1) va n) with
  | .error _ => (s, true)
  | .ok ps => ps.foldl (fun q p => let r := l2Read q.1 w.tdom p.2.1 p.2.2
    (r.1, q.2 && r.2)) (s, true)

/-- What a target's write is to perform over comes through its L2 (R80, R361, R363). -/
def targetWriteFetch (s : State) (w : Window) (va n : Nat) : State × Bool :=
  match targetCheck s w.tdie w.tasid w.tdom true (pieces (n + 1) va n) with
  | .error _ => (s, true)
  | .ok ps => writeFetchAll s w.tdom (ps.map (·.2))

/-- A request of a window operation (R268), complete when its bytes have performed: one of a far put when it finishes. -/
def windowTag (s : State) (x : Group) (e : EqEntry) (far : Bool) (flags : Nat) : Tagged :=
  ⟨x.slot, x.dom, 255, entryVa x.kernel + 4 * e.widx, timeOf s x.core, flags, if far then e.id else 0, 0, !far⟩

/-- The 64-byte transfers of a window operation are counted (R268, R269): what each meets at its source and, on this device, at its
target, as `at0` stood. -/
def windowReqs (at0 s : State) (x : Group) (e : EqEntry) (w : Window) (get tagFar : Bool) (loc toff len : Nat) : State :=
  (List.range ((len + 63) / 64)).foldl (fun s k =>
    let n := Nat.min 64 (len - 64 * k)
    let near := checkedPas (engCheck at0 x.core x.asid x.dom get (pieces (n + 1) (loc + 64 * k) n))
    let far := if w.far at0 then [] else checkedPas (targetCheck at0 w.tdie w.tasid w.tdom (!get) (pieces (n + 1) (w.base + toff + 64 * k) n))
    countReq s x.core (windowTag s x e tagFar (engFlags at0 (near ++ far))) 1) s

/-- WINDOW_PUT (R99, R243): the operation starts; its source is read at HOME and its bytes perform at the target. Its acked cell is a
window-counter cell from then on (R86). (DESIGN CHOICE, log 60) -/
def execWindowPut (uid g : Nat) (s : State) : Host.Outcome State Fault Refusal :=
  .next (match nextWindow s uid g false with
  | none => s
  | some (x, e) => match windowCond s x e false with
    | some f => failWindow s uid g e.id f
    | none =>
      let d := wdescOf (descBytes s x e)
      let w := windowOf s (dieOfCore x.core) d.widx
      let c := winCmd uid x e
      let f0 := engFetch s c d.loc d.len
      let f := if w.far s then f0 else
        let t := targetWriteFetch f0.1 w (w.base + d.toff) d.len
        (t.1, f0.2 && t.2)
      if !f.2 then f.1
      else match engCheck f.1 x.core x.asid x.dom true [(d.acka, 8)], engRead f.1 c d.loc d.len with
      | .error r, _ => failWindow f.1 uid g e.id r
      | _, .cond cd a => failWindow f.1 uid g e.id (cd, a)
      | _, .poison sec => consumePoison (finEq (startEq f.1 uid g 4 e.id) uid g 4 e.id) uid g sec []
      | .ok ack, .bytes bs =>
        let s0 := startEq f.1 uid g 4 e.id
        let s1 := watchCmd (readHits s0 c d.loc d.len) s0 c false (scratchPa x.core (e.arg % 2 ^ 32)) 64
        let s2 := windowReqs s (if w.far s then s1 else putBytesAt s1 c w (w.base + d.toff) bs) x e w false (w.far s) d.loc d.toff d.len
        let s3 := ack.foldl (fun s p => markCell s p.2.1) s2
        modEq s3 uid g 4 e.id (fun q => { q with stage := 1, arg := windowArg d.len d.acka d.toff (rdReg s (.wintab (dieOfCore x.core) d.widx)) (e.arg % 2 ^ 32) }))

/-- The oldest operation of a group at a stage. -/
def windowAt (s : State) (uid g stage : Nat) : Option (Group × EqEntry) :=
  match groupOf s uid g with
  | none => none
  | some x => (((x.eq[4]?).getD []).find? (fun e => e.stage == stage && !e.fin)).map (fun e => (x, e))

/-- The target die of a started operation stands in the safe state (R282, R327). -/
def targetDown (s : State) (w : Window) : Bool := !w.far s && (dieOf s w.tdie).safe

/-- A started operation whose target die has tripped meets WINDOW 5 (R327). -/
def windowTripped (s : State) (uid g : Nat) (e : EqEntry) : State := failOp s uid g 4 e.id (0x21, 5) (apertureVa (argDesc e.arg))

/-- PUT_ARRIVED_ADVANCE (R99, R327): the arrived cell at the target advances by the put's size. -/
def execPutArrivedAdvance (uid g : Nat) (s : State) : Host.Outcome State Fault Refusal :=
  .next (match windowAt s uid g 1 with
  | none => s
  | some (x, e) =>
    let w := argWindow e.arg
    let s1 := modEq s uid g 4 e.id (fun q => { q with stage := 2 })
    if w.far s then s1
    else if targetDown s w then windowTripped s uid g e
    else match targetPiece s w.tdie w.tasid w.tdom true w.arrv 8 with
      | .error _ => s1
      | .ok pa =>
        let f := l2Read s w.tdom pa 8
        if !f.2 then f.1
        else cellAdd (modEq f.1 uid g 4 e.id (fun q => { q with stage := 2 })) { winCmd uid x e with dom := w.tdom } pa (argLen e.arg))

/-- PUT_ACKED_ADVANCE (R99, R327): the acked cell at the source advances, and the put finishes;
a hit of its arrived cell is reported first (R347). -/
def execPutAckedAdvance (uid g : Nat) (s : State) : Host.Outcome State Fault Refusal :=
  .next (match windowAt s uid g 2 with
  | none => s
  | some (x, e) =>
    let c := winCmd uid x e
    if targetDown s (argWindow e.arg) then windowTripped s uid g e
    else if reportPending s e.id then s
    else match engCheck s x.core x.asid x.dom true [(argLoc e.arg, 8)] with
    | .error f => failOp s uid g 4 e.id f.1 f.2
    | .ok ps =>
      let f := ps.foldl (fun q p => let r := l2Read q.1 c.dom p.2.1 p.2.2
        (r.1, q.2 && r.2)) (s, true)
      if !f.2 then f.1
      else ps.foldl (fun s p => cellAdd s c p.2.1 (argLen e.arg)) (finEq f.1 uid g 4 e.id))

/-- WINDOW_GET (R243): the operation starts. -/
def execWindowGet (uid g : Nat) (s : State) : Host.Outcome State Fault Refusal :=
  .next (match nextWindow s uid g true with
  | none => s
  | some (x, e) => match windowCond s x e true with
    | some f => failWindow s uid g e.id f
    | none =>
      let d := wdescOf (descBytes s x e)
      match engCheck s x.core x.asid x.dom true (pieces (d.len + 1) d.loc d.len) with
      | .error f => failWindow s uid g e.id f
      | .ok _ =>
        let s0 := watchCmd (startEq s uid g 4 e.id) (startEq s uid g 4 e.id) (winCmd uid x e) false (scratchPa x.core (e.arg % 2 ^ 32)) 64
        modEq s0 uid g 4 e.id (fun q => { q with stage := 3, arg := windowArg d.len d.loc d.toff (rdReg s (.wintab (dieOfCore x.core) d.widx)) (e.arg % 2 ^ 32) }))

/-- The bytes that a get takes from its target: at HOME; over Ethernet they come from outside the model (DESIGN CHOICE, log 41), and so do
those of a poisoned sector's place when none. -/
def getBytesAt (s : State) (c : Cmd) (w : Window) (va n : Nat) : EngRead × State :=
  if w.far s then (.bytes ((List.range n).map (fun i => Config.freeByte (s.free + i))), { s with free := s.free + n })
  else match targetCheck s w.tdie w.tasid w.tdom false (pieces (n + 1) va n) with
    | .error f => (.cond (targetCond f).1 (targetCond f).2, s)
    | .ok ps => match ps.findSome? (fun p => poisoned s p.2.1 p.2.2) with
      | some sec => (.poison sec, s)
      | none => (.bytes (ps.flatMap (fun p => (List.range p.2.2).map (fun i => engByte s c.uid c.core (p.2.1 + i)))),
          ps.foldl (fun s p => watchCmd s s { c with dom := w.tdom } false p.2.1 p.2.2) s)

/-- GET_BYTES_PERFORMED (R99, R327): the target's bytes, read at its HOME, perform at LOC, and the get finishes. -/
def execGetBytesPerformed (uid g : Nat) (s : State) : Host.Outcome State Fault Refusal :=
  .next (match windowAt s uid g 3 with
  | none => s
  | some (x, e) =>
    let w := argWindow e.arg
    let c := winCmd uid x e
    let n := argLen e.arg
    let va := w.base + argOff e.arg
    let f0 := if w.far s then (s, true) else targetFetch s w va n
    let t := engWriteFetch f0.1 c [(argLoc e.arg, List.replicate n 0)]
    let f := (t.1, f0.2 && t.2)
    if targetDown s w then windowTripped s uid g e
    else if !f.2 then f.1
    else match getBytesAt f.1 c w va n with
    | (.cond cd a, _) => failOp f.1 uid g 4 e.id cd a
    | (.poison sec, _) => consumePoison (finEq f.1 uid g 4 e.id) uid g sec []
    | (.bytes bs, s1) => match engWrite s1 c [(argLoc e.arg, bs)] with
      | .error f => failOp s1 uid g 4 e.id f.1 f.2
      | .ok s2 => windowReqs s (finEq s2 uid g 4 e.id) x e w true false (argLoc e.arg) (argOff e.arg) n)

/-- REM_WINDOW_ACCESS (R242): another device's put or get, performed at a die by the die's own registration; a put's bytes
first and then its arrived cell; a get's bytes are answered to the outside. Watchpoints see both (R346). An access that the registration does not
admit is not performed. -/
def execRemWindowAccess (acc : RemAccess) (s : State) : Host.Outcome State Fault Refusal :=
  .next (
    let w := windowOf s acc.die acc.win
    let c : Cmd := ⟨0, 0, 4, 0, w.tdom, w.tasid, 28 * acc.die, 0, 0, []⟩
    if !w.v || decide (w.size < acc.toff + acc.len) || acc.len == 0 || (acc.put && acc.bytes.length != acc.len) || !windowPlaced w || bitN (rdReg s (.therm acc.die)) 63 || (dieOf s acc.die).safe then s
    else
      let va := w.base + acc.toff
      match targetCheck s acc.die w.tasid w.tdom acc.put (pieces (acc.len + 1) va acc.len) with
      | .error _ => s
      | .ok ps =>
        if acc.put then match targetPiece s acc.die w.tasid w.tdom true w.arrv 8 with
          | .error _ => s
          | .ok cell =>
            let f0 := writeFetchAll s w.tdom (ps.map (·.2))
            let f := l2Read f0.1 w.tdom cell 8
            if !(f0.2 && f.2) then f.1
            else cellAdd (ps.foldl (fun s p => engPut s c p.2.1 ((acc.bytes.drop (p.1 - va)).take p.2.2)) f.1) c cell acc.len
        else
          let f := targetFetch s w va acc.len
          if !f.2 || (ps.findSome? (fun p => poisoned f.1 p.2.1 p.2.2)).isSome then f.1
          else
            let s1 := ps.foldl (fun s p => watchCmd s s c false p.2.1 p.2.2) f.1
            { s1 with hub := { s1.hub with answers := f.1.hub.answers ++ [natOfBytes (ps.flatMap (fun p => (List.range p.2.2).map (fun i => placeByte f.1 (p.2.1 + i))))] } })

end Sys2Proof.Machine
end

