-- ==== Sys2Proof/Machine/Registers.lean ====
section
/-! DEFINITION. Registers as firmware reads and writes them (R5, R6), shares and rebinding (R63-R66, R281, R316, R317),
the domain table (R46-R48, R279, R280), TLB invalidation (R75), the flashing (R277), clock steps (R288). -/

namespace Sys2Proof.Machine

open Sys2Proof

/-- A value with only some fields kept: the others are reserved or read-only (R6). -/
def keepFlds (v : Nat) (fs : List (Nat × Nat)) : Nat := fs.foldl (fun w f => w + fld v f.1 f.2 * 2 ^ f.2) 0

/-- Classes whose committed demand is above the quota in some partition, as CORE.BINDSTAT.OVER shows them (R317). -/
def overBits (s : State) (core slot : Nat) : Nat :=
  let dp := rdReg s (.dpart core slot)
  sumOf ([NClass.lane, .uniform, .perm, .acc].map (fun c =>
    if (List.range 12).any (fun p => decide (quotaOf dp c < committed s core p slot c)) then 2 ^ clsCode c else 0))

/-- Groups of a slot paused at a write for want of a resource (R316, R317). -/
def waitGroups (s : State) (core slot : Nat) : Nat :=
  (s.units.flatMap (fun u => u.groups.filter (fun x => x.core == core && x.slot == slot && x.pause.any (fun p => !p.wants.isEmpty)))).length

/-- A register as it reads. -/
def readReg (s : State) (r : Reg) : Nat :=
  match r with
  | .bindstat c k => ((coreOf s c).noslot[k]?).getD 0 * 2 ^ 32 + Nat.min 65535 (waitGroups s c k) * 2 ^ 16 + overBits s c k
  | .chkstat c => (coreOf s c).mism * 2 ^ 48 + (coreOf s c).ucer * 2 ^ 32 + (coreOf s c).cbpeak
  | .ctrval c p n => ((partOf (coreOf s c) p).counters[n]?).getD 0
  | .cpwp c n => ((coreOf s c).cpwp[n]?).getD 0
  | .dbgqr c n => numAt (coreOf s c).dbgqr (8 * n) 8
  | .injctl d => rdReg s (.injctl d) + (if s.hub.img.tests.contains d then 2 ^ 62 else 0)
  | r => rdReg s r

/-- The writable fields of a register without a behaviour of its own. -/
def plainFlds : Reg → List (Nat × Nat)
  | .tframe _ _ => [(127, 127), (98, 64)]
  | .chkctl _ => [(63, 12)]
  | .dbgctl _ _ => [(63, 63), (55, 21)]
  | .brk _ _ _ => [(63, 63), (55, 2)]
  | .asroot _ _ => [(63, 63), (60, 0)]
  | .l2way _ _ => [(63, 63), (35, 0)]
  | .wintab _ _ => [(255, 251), (247, 36)]
  | .devnum => [(16, 0)]
  | .mboxin _ => [(63, 0)]
  | _ => []

/-- The 64 bytes of the message in HUB.MBOXIN. -/
def mboxMsg (s : State) : List Byte := (List.range 8).flatMap (fun w => bytesOfNat 8 (rdReg s (.mboxin w)))

/-- A write of an empty slot's table entry that does not start it stores the other fields (R280). -/
def domtabFields (s : State) (core slot v : Nat) : State :=
  if slotState s core slot ≠ 0 then s else wrReg s (.domtab core slot) (keepFlds v [(124, 24)])

/-- The effect of a register write. -/
def writeReg (r : Reg) (v : Nat) (s : State) : State :=
  match r with
  | .mboxdb => if bitN v 0 && rdReg s .mboxdb == 0 then modHub (wrReg s .mboxdb 1) (fun h => { h with msg := mboxMsg s }) else s
  | .dbgcmd c k =>
    if !bitN v 127 then wrReg s r (keepFlds v [(126, 63)] + fld (rdReg s r) 62 61 * 2 ^ 61)
    else if fld v 126 124 = 0 ∨ fld v 126 124 > 3 then dbgAnswer s c k v 2 else s
  | .domtab c k => if domState v = 1 then s else domtabFields s c k v
  | _ => if (plainFlds r).isEmpty then s else wrReg s r (keepFlds v (plainFlds r))

/-- The die that a register belongs to; none for the hub's. -/
def regDie : Reg → Option Nat
  | .dpart c _ | .domtab c _ | .tframe c _ | .sring c _ | .sampctl c | .ctrsel c _ _ | .ctrval c _ _ | .bindstat c _ | .chkctl c | .chkstat c
  | .dbgctl c _ | .brk c _ _ | .dbgcmd c _ | .dbgstat c _ | .dbgq c | .dbgqr c _ | .cpwp c _ => some (dieOfCore c)
  | .asroot d _ | .tlbinv d | .l2way d _ | .wintab d _ | .dvfs d _ | .therm d | .watch d _ | .aelog d _ | .telog d _ | .hbmlog d | .lswap d _
  | .injseed d | .injctl d => some d
  | .flash _ | .devnum | .kjover | .lrver | .mboxin _ | .mboxout _ | .mboxdb => none

/-- A die in the safe state answers no management traffic (R282, R327). -/
def deafReg (s : State) (r : Reg) : Bool := (regDie r).any (fun d => (dieOf s d).safe)

/-- REGISTER_WRITE (R6): the writable fields are stored. The doorbell takes a 1 while it reads 0, and the hub then reads
the message (R284); a write of CORE.DBGCMD that issues no command of R352 is stored, or refused. (DEDUCED, log 77) -/
def execRegisterWrite (r : Reg) (v : Nat) (s : State) : Host.Outcome State Fault Refusal := .next (if deafReg s r then s else writeReg r v s)

/-- The register that an offset of the hub's register space names (R275); the queue port is none. -/
def hubReg (off : Nat) : Option Reg :=
  if off = 0x1000 then some .kjover
  else if off = 0x1008 then some .lrver
  else if 0x2000 ≤ off ∧ off < 0x2040 then some (.mboxin ((off - 0x2000) / 8))
  else if 0x2040 ≤ off ∧ off < 0x2080 then some (.mboxout ((off - 0x2040) / 8))
  else if off = 0x2080 then some .mboxdb
  else none

/-- An answer to the host. -/
def answerHost (s : State) (v : Nat) : State := modHub s (fun h => { h with answers := h.answers ++ [v] })

/-- A byte of the mailboxes as the host reads it (R275): HUB.MBOXIN is written only. -/
def hubByte (s : State) (off : Nat) : Nat :=
  match hubReg off with
  | some (.mboxout w) => readReg s (.mboxout w) / 256 ^ (off % 8) % 256
  | some .mboxdb => readReg s .mboxdb % 256
  | _ => 0

/-- A byte that the host writes into the mailboxes (R275). -/
def hubPut (s : State) (off b : Nat) : State :=
  match hubReg off with
  | some (.mboxin w) => writeReg (.mboxin w) (setFld (rdReg s (.mboxin w)) (8 * (off % 8) + 7) (8 * (off % 8)) b) s
  | some .mboxdb => writeReg .mboxdb b s
  | _ => s

/-- The host reads eight bytes of the hub's register space (R275, R310): the queue port does not take it, a version register is
answered, the mailboxes byte by byte, and every other offset reads 0. -/
def hostRead (off : Nat) (s : State) : State :=
  if off < 0x1000 then answerHost s 2
  else if off = 0x1000 then answerHost s (readReg s .kjover)
  else if off = 0x1008 then answerHost s (readReg s .lrver)
  else answerHost s (sumOf ((List.range 8).map (fun i => hubByte s (off + i) * 256 ^ i)))

/-- The host writes eight bytes of the hub's register space (R275, R310): the bytes of HUB.MBOXIN and the doorbell take theirs, the queue
port counts a reject, every other offset ignores them. -/
def hostWrite (off v : Nat) (s : State) : State :=
  if off < 0x1000 then logReject s 0 1 none
  else (List.range 8).foldl (fun s i => hubPut s (off + i) (v / 256 ^ i % 256)) s

/-- The HBM5 at an address belongs to a die in the safe state (R282). -/
def safeHbm (s : State) (pa : Nat) : Bool := match plocOf pa with | .hbm d => (dieOf s d).safe | .chip _ _ => false | .host => false | .none => false

/-- A host read that reaches eight bytes of device memory (R360): the completion's EP bit stands above its data. A die in the safe state
does not answer (R282). (DEDUCED, log 112) -/
def hostFetch (pa : Nat) (s : State) : State :=
  let r := l2Read s 0 pa 8
  if !isHbm pa || !isHbm (pa + 7) then answerHost s 2
  else if safeHbm s pa || safeHbm s (pa + 7) then s
  else if !r.2 then r.1
  else answerHost r.1 (natOfBytes (homeRead r.1 pa 8) + (if (poisoned r.1 pa 8).isSome then 2 ^ 64 else 0))

/-- CORE.DPART as a write stores it: a field above its maximum stores the maximum (R63). -/
def clampDpart (v : Nat) : Nat :=
  keepFlds v [(123, 52)] + Nat.min 256 (dpBars v) * 2 ^ 43 + Nat.min 64 (dpPerm v) * 2 ^ 36 + Nat.min 192 (dpObuf v) * 2 ^ 28 +
    Nat.min 8 (dpAcc v) * 2 ^ 24 + Nat.min 8192 (dpUreg v) * 2 ^ 10 + Nat.min 512 (dpRows v)

/-- A rebinding of a slot still runs (R64, R281). (DEDUCED, log 75) -/
def rebinding (s : State) (core slot : Nat) : Bool :=
  s.units.any (fun u => u.groups.any (fun x => x.core == core && outerSlot x == slot && x.pause.any (fun p => !p.moves.isEmpty || (decide (0 < p.done) && decide (clkOf s core < p.till)))))

/-- A group's next name to be spilled by R59, with its level: the unpinned one with the latest lifetime end, then the
highest number, among those that count in its committed demand. -/
def nextSpill (x : Group) (c : NClass) : Option (Nat × NameSt) :=
  let ms := (levelNames x).filter (fun lm => lm.2.cls == c && lm.2.comm)
  match latestName (ms.filterMap (fun lm => recOf (outerKernel x) c lm.2.num)) with
  | none => none
  | some r => ms.find? (fun lm => lm.2.num == r.num)

/-- A name becomes spilled in a rebinding; one that holds a resource moves, and its group pauses (R64). -/
def spillMoved (s : State) (uid g : Nat) (x : Group) (level : Nat) (m : NameSt) : State :=
  let next := maxOf ((levelNames x).map (fun lm => lm.2.chosen)) + 1
  let s1 := modGroup (giveSlot s uid g level m.cls m.num) uid g (fun y => modLevelName y level m.cls m.num (fun k =>
    { k with spilled := true, out := false, claimed := false, comm := false, chosen := next }))
  if m.res.isEmpty then s1 else pauseGroup s1 uid g (moveCost x m.cls) [(m.cls, m.num)] []

/-- Names of one group are spilled until the slot's committed demand fits its quota; `.error` when no slot is left and the
rebinding ends (R64, R316, R317). -/
def rebindGroup (core part slot : Nat) (c : NClass) (uid g : Nat) : Nat → State → Except State State
  | 0, s => .ok s
  | fuel + 1, s =>
    if committed s core part slot c ≤ quotaOf (rdReg s (.dpart core slot)) c then .ok s
    else match groupOf s uid g with
      | none => .ok s
      | some x => match nextSpill x c with
        | none => .ok s
        | some (level, m) => if canSlot s uid g m then rebindGroup core part slot c uid g fuel (spillMoved s uid g x level m) else .error (countNoslot s core slot)

/-- The slot's resident groups in a partition, in ascending order of placement. -/
def slotGroups (s : State) (core part slot : Nat) : List (Nat × Group) :=
  sortBy (fun ux => ux.2.placed) ((groupsAt s core part).filter (fun ux => outerSlot ux.2 == slot))

/-- A rebinding of one class in one partition: groups in descending order of placement (R64). -/
def rebindClass (s : State) (core part slot : Nat) (c : NClass) : State :=
  match (slotGroups s core part slot).reverse.foldl (fun (acc : Except State State) ux => match acc with
      | .error e => .error e
      | .ok t => rebindGroup core part slot c ux.1 ux.2.gidx ((levelNames ux.2).length + 1) t) (.ok s) with
  | .ok t => t
  | .error t => t

/-- A spilled name is resident again: its value stays in its slots until its next read (R65). (DEDUCED, log 76) -/
def readmit (s : State) (uid g level : Nat) (m : NameSt) : State :=
  match groupOf s uid g with
  | none => s
  | some x =>
    let s1 := modGroup s uid g (fun y => modLevelName y level m.cls m.num (fun k =>
      { k with spilled := false, staged := false, comm := true, out := true, claimed := false, entries := k.entries.map (fun e => if e.held then { e with inSlot := true } else e) }))
    modPart s1 x.core x.part (fun p => { p with staging := p.staging.filter (fun q => !(q.1 == uid && q.2.1 == g && q.2.2.1 == m.cls && q.2.2.2 == m.num)) })

/-- Readmission of one class in one partition (R65): groups in ascending order of placement, names in the reverse of the
order in which they were chosen. -/
def readmitClass (s : State) (core part slot : Nat) (c : NClass) : State :=
  (slotGroups s core part slot).foldl (fun s ux =>
    let ms := (sortBy (fun lm => lm.2.chosen) ((levelNames ux.2).filter (fun lm => lm.2.cls == c && lm.2.spilled && (recOf (outerKernel ux.2) c lm.2.num).isSome &&
      (lm.1 == ux.2.gstack.length || lm.2.shared)))).reverse
    ms.foldl (fun s lm =>
      let t := readmit s ux.1 ux.2.gidx lm.1 lm.2
      if committed t core part slot c ≤ quotaOf (rdReg s (.dpart core slot)) c then t else s) s) s

/-- A write of CORE.DPART takes effect (R63-R65, R256, R281): partition by partition, and in each lane, uniform, permutation and
accumulator names. (DESIGN CHOICE, log 110) -/
def applyDpart (s : State) (core slot v : Nat) : State :=
  let old := rdReg s (.dpart core slot)
  let new := clampDpart v
  let s1 := wrReg s (.dpart core slot) new
  let s2 := (List.range 12).foldl (fun s p => [NClass.lane, .uniform, .perm, .acc].foldl (fun s c =>
    if quotaOf new c < quotaOf old c then rebindClass s core p slot c
    else if quotaOf old c < quotaOf new c then readmitClass s core p slot c else s) s) s1
  let dt := rdReg s2 (.domtab core slot)
  if domState dt = 0 then s2 else retryLaunches s2 (fun d => d == domDom dt)

/-- DPART_WRITE (R281): it takes effect at once, or when an earlier rebinding of the slot ends; the domain's launches are tried
again (R256). -/
def execDpartWrite (core slot v : Nat) (s : State) : Host.Outcome State Fault Refusal :=
  .next (if rebinding s core slot || (coreOf s core).dpartQ.any (fun q => q.1 == slot)
    then retryLaunches (modCore s core (fun c => { c with dpartQ := c.dpartQ ++ [(slot, v)] })) (fun d => d == domDom (rdReg s (.domtab core slot)))
    else applyDpart s core slot v)

/-- The waiting writes of CORE.DPART take effect, each once no rebinding of its slot runs (R281). -/
def drainDpart (core : Nat) : Nat → State → State
  | 0, s => s
  | fuel + 1, s => match (coreOf s core).dpartQ.find? (fun q => !rebinding s core q.1) with
    | none => s
    | some q => drainDpart core fuel (applyDpart (modCore s core (fun c => { c with dpartQ := c.dpartQ.erase q })) core q.1 q.2)

/-- The waiting writes of CORE.DPART of a core that may take effect now. -/
def nextDparts (s : State) (core : Nat) : State := drainDpart core (coreOf s core).dpartQ.length s

/-- REBIND_PAUSE_END (R64, R281, R316): 32 + 2n cycles on, with every move done, the group forms candidates again. -/
def execRebindPauseEnd (uid g : Nat) (s : State) : Host.Outcome State Fault Refusal :=
  .next (match groupOf s uid g with
  | none => s
  | some x => match x.pause with
    | none => s
    | some p =>
      let t := serveWants s uid g x p.wants
      if !p.moves.isEmpty || clkOf s x.core < p.till || (groupOf t uid g).any (fun y => y.pause.any (fun q => !q.wants.isEmpty)) then t
      else nextDparts (modGroup t uid g (fun y => { y with pause := none })) x.core)

/-- The slot's STATE replaced (R279). -/
def setSlotState (s : State) (core slot st : Nat) : State :=
  let v := rdReg s (.domtab core slot)
  wrReg s (.domtab core slot) (setFld v 127 125 st)

/-- DOMTAB_RUN (R280, R282): EMPTY to RUN with the other fields of the write; `rtmr` counts from 0 (R259). A die in the
safe state takes no slots; a write that does not start the slot stores the other fields. -/
def execDomtabRun (core slot v : Nat) (s : State) : Host.Outcome State Fault Refusal :=
  .next (
    if slotState s core slot ≠ 0 || (dieOf s (dieOfCore core)).safe then s
    else if domState v ≠ 1 then domtabFields s core slot v
    else
      let s1 := wrReg s (.domtab core slot) (keepFlds v [(127, 24)])
      retryLaunches (modCore s1 core (fun c => { c with rtmr := setAt c.rtmr slot 0 })) (fun d => d == domDom v))

/-- The groups of a core that issue as a slot, changed. -/
def modSlotGroups (s : State) (core slot : Nat) (f : Group → Group) : State :=
  { s with units := s.units.map (fun u => { u with groups := u.groups.map (fun x => if x.core == core && x.slot == slot then f x else x) }) }

/-- DOMTAB_HALT (R46, R47): the slot forms no candidates from now on, its credits are reset and waiting joins cease; threads that
have arrived at a group-set word stay so. The second clock due of a width-64 set stays (DESIGN CHOICE, log 97). -/
def execDomtabHalt (core slot : Nat) (s : State) : Host.Outcome State Fault Refusal :=
  .next (
    if slotState s core slot ≠ 1 then s
    else
      let s1 := modCore (setSlotState s core slot 3) core (fun c => { c with
        haltClk := mset c.haltClk slot c.clk
        parts := c.parts.map (fun p => (p.1, { p.2 with credit := setAt p.2.credit slot 0, picks := p.2.picks.filter (fun k => k.slot != slot) })) })
      modSlotGroups s1 core slot (fun x => { x with threads := x.threads.map (keepArrival s1 x) }))

/-- HALT_COMPLETE (R46): 64 cycles on the slot is halted. -/
def execHaltComplete (core slot : Nat) (s : State) : Host.Outcome State Fault Refusal :=
  .next (
    if slotState s core slot ≠ 3 then s
    else if clkOf s core < (mget (coreOf s core).haltClk slot).getD 0 + 64 then s
    else modCore (setSlotState s core slot 2) core (fun c => { c with haltClk := mdel c.haltClk slot }))

/-- DOMTAB_RESUME (R48, R66, R198, R256): HALT to RUN; written-out names are bound again, group by group in
the order of placement, monitored waits load again. (DESIGN CHOICE, log 127) -/
def execDomtabResume (core slot : Nat) (s : State) : Host.Outcome State Fault Refusal :=
  .next (
    if slotState s core slot ≠ 2 then s
    else
      let s1 := setSlotState s core slot 1
      let gs := sortBy (fun ux => ux.2.placed) (s1.units.flatMap (fun u => (u.groups.filter (fun x => x.core == core && !x.dbg.swapped)).map (fun x => (u.uid, x))))
      let s2 := gs.foldl (fun s ux => rebindNames s ux.1 ux.2.gidx (fun k => k == slot)) s1
      let s3 := modSlotGroups s2 core slot (fun x => match x.wait.kind with
        | .mwait _ _ false => { x with wait := { x.wait with woken := true } }
        | _ => x)
      retryLaunches s3 (fun d => d == domDom (rdReg s (.domtab core slot))))

/-- A slot holds a resident unit, by its own groups or by groups that call or are called through it. -/
def slotHeld (s : State) (core slot : Nat) : Bool :=
  s.units.any (fun u => u.groups.any (fun x => x.core == core && (x.slot == slot || x.gstack.any (fun f => f.slot == slot))))

/-- DOMTAB_EMPTY (R280): HALT to EMPTY, when the slot holds no resident unit. -/
def execDomtabEmpty (core slot : Nat) (s : State) : Host.Outcome State Fault Refusal :=
  .next (if slotState s core slot ≠ 2 || slotHeld s core slot then s else setSlotState s core slot 0)

/-- TLB_INVALIDATE (R75): a write of DIE.TLBINV; with GO the invalidation starts. Nothing is taken while GO reads 1. -/
def execTlbInvalidate (die v : Nat) (s : State) : Host.Outcome State Fault Refusal :=
  .next (if bitN (rdReg s (.tlbinv die)) 63 then s else wrReg s (.tlbinv die) (keepFlds v [(63, 62), (59, 0)]))

/-- The invalidation drops a TLB entry (R75). -/
def tlbDrops (v : Nat) (e : Tlb) : Bool := e.asid == fld v 59 40 && (bitN v 62 || e.vpage == fld v 39 0 * 2 ^ 16 / 2 ^ e.bits)

/-- TLB_INVALIDATE_DONE (R75): every TLB of the die has dropped the entries, and GO reads 0. -/
def execTlbInvalidateDone (die : Nat) (s : State) : Host.Outcome State Fault Refusal :=
  .next (
    let v := rdReg s (.tlbinv die)
    if !bitN v 63 then s
    else
      let keep := fun (l : List Tlb) => l.filter (fun e => !tlbDrops v e)
      let s1 := modDie (wrReg s (.tlbinv die) (setFld v 63 63 0)) die (fun d => { d with tlb := keep d.tlb })
      { s1 with cores := s1.cores.map (fun e => (e.1, if dieOfCore e.1 = die then { e.2 with tlb := keep e.2.tlb } else e.2)) })

/-- A window operation that a link carries is still in flight (R277). -/
def linkBusy (s : State) (link : Nat) : Bool :=
  s.units.any (fun u => u.groups.any (fun x => ((x.eq[4]?).getD []).any (fun e =>
    e.started && !e.fin && e.stage != 0 &&
    (let w := argWindow e.arg
     !w.rem && (pathLinks (dieOfCore x.core) w.tdie).contains link))))

/-- FLASH_WRITE (R277): ignored while LOCK is 1; DRAIN reads 1 while requests accepted before are in flight. -/
def execFlashWrite (link v : Nat) (s : State) : Host.Outcome State Fault Refusal :=
  .next (if bitN (rdReg s (.flash link)) 63 then s
    else wrReg s (.flash link) (keepFlds v [(63, 63), (1, 1)] + (if bitN v 1 && linkBusy s link then 1 else 0)))

/-- LINK_DRAINED (R277). -/
def execLinkDrained (link : Nat) (s : State) : Host.Outcome State Fault Refusal :=
  .next (if linkBusy s link then s else wrReg s (.flash link) (setFld (rdReg s (.flash link)) 0 0 0))

/-- The voltage floor of a clock step (R283, R288), in mV. -/
def voltFloor (s : State) (step : Nat) : Nat := Nat.max 550 ((s.hub.img.vt[step]?).getD 0)

/-- The voltage ceiling of the image (R283), in mV. -/
def voltCeil (s : State) : Nat := Nat.min 1000 s.hub.img.vc

/-- The clock step, or the voltage, of a change of a cluster is set (R288). -/
def dvfsClock (s : State) (die cl q : Nat) : State := wrReg s (.dvfs die cl) (setFld (rdReg s (.dvfs die cl)) 35 32 (q / 2 ^ 12))
def dvfsVolt (s : State) (die cl q : Nat) : State := wrReg s (.dvfs die cl) (setFld (rdReg s (.dvfs die cl)) 27 16 (q % 2 ^ 12))

/-- DVFS_REQUEST (R288, R326): FSTEP and MV are stored; a GO is denied outside the floors and the ceiling, and above step 0
while the cluster is held; a GO while ANS is 1 is not taken. A change taken sets the voltage first when the clock rises, else the
clock; the other follows when it ends. (DEDUCED, log 113) -/
def execDvfsRequest (die cl v : Nat) (s : State) : Host.Outcome State Fault Refusal :=
  .next (
    let old := rdReg s (.dvfs die cl)
    let step := Nat.min 8 (fld v 55 52)
    let mv := fld v 47 36
    let s1 := wrReg s (.dvfs die cl) (setFld (setFld old 55 52 step) 47 36 mv)
    let answer := fun (a : Nat) => wrReg s1 (.dvfs die cl) (setFld (rdReg s1 (.dvfs die cl)) 63 62 a)
    if !bitN v 61 || fld old 63 62 == 1 then s1
    else if mv < voltFloor s step ∨ mv > voltCeil s ∨ (bitN (rdReg s (.therm die)) (8 + cl) ∧ step > 0) then answer 3
    else
      let q := step * 2 ^ 12 + mv
      let s2 := answer 1
      modDie (if fld old 35 32 < step then dvfsVolt s2 die cl q else dvfsClock s2 die cl q) die (fun d => { d with dvfs := mset d.dvfs cl q }))

/-- A change of clock step ends: the clock follows the voltage when it rises, the voltage the clock when it falls, and CURF and
CURMV show the result (R288). -/
def dvfsEnd (s : State) (die cl : Nat) : State :=
  match mget (dieOf s die).dvfs cl with
  | none => s
  | some q =>
    let s1 := dvfsClock (dvfsVolt s die cl q) die cl q
    modDie (wrReg s1 (.dvfs die cl) (setFld (rdReg s1 (.dvfs die cl)) 63 62 2)) die (fun d => { d with dvfs := mdel d.dvfs cl })

/-- DVFS_DONE (R288): the change has settled. -/
def execDvfsDone (die cl : Nat) (s : State) : Host.Outcome State Fault Refusal := .next (dvfsEnd s die cl)

/-- BINDSTAT_READ (R317): the value is answered, and NOSLOT is cleared. -/
def execBindstatRead (core slot : Nat) (s : State) : Host.Outcome State Fault Refusal :=
  .next (modCore (modHub s (fun h => { h with answers := h.answers ++ [readReg s (.bindstat core slot)] })) core (fun c => { c with noslot := setAt c.noslot slot 0 }))

end Sys2Proof.Machine
end

