-- ==== Sys2Proof/Machine/Mailbox.lean ====
section
/-! DEFINITION. Start-up, the mailbox and the sideband (R282-R287, R312): self-test and configuration image, messages and
answers, the attestation report, a host debugger's register accesses. -/

namespace Sys2Proof

/-- The boot ROM takes the image (R283): its root public key has the digest in the ROM, and the key's ML-DSA-87 signature over the
SHA3-512 of the image's bytes verifies. -/
def BootImage.valid (i : BootImage) : Bool := Config.sha3 i.root == Config.rootDigest && Config.mldsaVerify i.root (Config.sha3 i.body) i.sig

end Sys2Proof

namespace Sys2Proof.Machine

open Sys2Proof

/-- The links of a die (R12). -/
def dieLinks (d : Nat) : List Nat :=
  (if d % 4 > 0 then [3 * (d / 4) + d % 4 - 1] else []) ++ (if d % 4 < 3 then [3 * (d / 4) + d % 4] else []) ++ [6 + d % 4]

/-- A die's links are closed and locked (R282, R327); DRAIN shows what they still carry (R277). -/
def lockLinks (s : State) (d : Nat) : State :=
  (dieLinks d).foldl (fun s n => wrReg s (.flash n) (2 ^ 63 + 2 + (if linkBusy s n then 1 else 0))) s

/-- A die enters the safe state with a code (R282). -/
def enterSafe (s : State) (d code : Nat) : State := lockLinks (modDie s d (fun x => { x with safe := true, code := code })) d

/-- The contents of device memory are not promised across power-on and package reset: every byte that was listed takes a
free value (R327, log 43); host memory is the host's. -/
def scrambleMem (s : State) : State :=
  let dev := (s.mem.map (·.1)).filter (fun a => !isHost a)
  let mem := ((List.range dev.length).zip dev).foldl (fun m ia => Memory.write m ia.2 (Config.freeByte (s.free + ia.1))) s.mem
  { s with mem := mem, free := s.free + dev.length }

/-- The part after its power-on sequence (R282, R283): registers at reset, dies that fail their self-test (a nonzero code)
in the safe state, the configuration image applied when it verifies, and every die safe when it does not. (DESIGN CHOICE, log 79) -/
def startUp (s : State) (img : BootImage) (codes : List Nat) : State :=
  let m := scrambleMem s
  let s1 : State := { State.reset with
    mem := m.mem, free := m.free, seq := s.seq, sched := s.sched
    dies := (List.range 8).foldl (fun n d => mset n d { Die.reset with time := (dieOf s d).time }) []
    hub := { Hub.reset with time := s.hub.time, img := if img.valid then img else BootImage.none, answers := s.hub.answers, sideband := s.hub.sideband } }
  (List.range 8).foldl (fun s d =>
    let code := (codes[d]?).getD 0
    if code ≠ 0 then enterSafe s d (code % 256)
    else if !img.valid then enterSafe { s with free := s.free + 1 } d (Config.freeByte s.free).toNat
    else s) s1

/-- POWER_ON (R282, R283). -/
def execPowerOn (img : BootImage) (codes : List Nat) (s : State) : Host.Outcome State Fault Refusal := .next (startUp s img codes)

/-- PACKAGE_RESET (R277, R282, R327, R363, R367): the self-tests run again; locks, swaps and safe states are cleared first. -/
def execPackageReset (img : BootImage) (codes : List Nat) (s : State) : Host.Outcome State Fault Refusal := .next (startUp s img codes)

/-- SIDEBAND_STATUS (R282): the 16-byte record of die number, state and code (DESIGN CHOICE, log 44: their places). -/
def execSidebandStatus (die : Nat) (s : State) : Host.Outcome State Fault Refusal :=
  .next (modHub s (fun h => { h with sideband := h.sideband ++
    [bytesOfNat 1 die ++ bytesOfNat 1 (if (dieOf s die).safe then 1 else 0) ++ bytesOfNat 1 (dieOf s die).code ++ List.replicate 13 0] }))

/-- A message of a TYPE is being served (R284, R285). -/
def serving (s : State) (t : Nat → Bool) : Bool := rdReg s .mboxdb == 1 && t (numAt s.hub.msg 2 2)

/-- An answer stands in HUB.MBOXOUT, and the doorbell reads 0 (R284); while no version is agreed, the version in which the
answer is written is not given. -/
def mboxAnswer (s : State) (status detail : Nat) (payload : List Byte) : State :=
  let ver := if s.hub.mboxVer = 0 then (Config.freeWord s.free).toNat % 2 ^ 16 else s.hub.mboxVer
  let s0 := if s.hub.mboxVer = 0 then { s with free := s.free + 1 } else s
  let b := bytesOfNat 2 ver ++ bytesOfNat 1 status ++ bytesOfNat 1 detail ++ (s.hub.msg.drop 4).take 4 ++ payload ++ List.replicate (56 - payload.length) 0
  wrReg ((List.range 8).foldl (fun s w => wrReg s (.mboxout w) (numAt b (8 * w) 8)) s0) .mboxdb 0

/-- A denied message (R284). -/
def mboxDeny (s : State) (detail : Nat) : State := mboxAnswer s 2 detail []

/-- A message of another TYPE than 1: denied until a version is agreed (R284). -/
def withVersion (s : State) (f : State → State) : State := if s.hub.mboxVer = 0 then mboxDeny s 4 else f s

/-- MBOX_VERSION (R284): the highest version that both support. -/
def execMboxVersion (s : State) : Host.Outcome State Fault Refusal :=
  .next (
    if !serving s (· == 1) then s
    else
      let m := s.hub.msg
      let v := Nat.min (numAt m 10 2) Config.mboxHigh.toNat
      if numAt m 12 52 ≠ 0 then mboxDeny s 3
      else if v < Nat.max (numAt m 8 2) Config.mboxLow.toNat then mboxDeny s 4
      else mboxAnswer (modHub s (fun h => { h with mboxVer := v })) 0 0 (bytesOfNat 2 v))

/-- Bytes cut or filled with zeros to a length. -/
def padTo (n : Nat) (b : List Byte) : List Byte := (b ++ List.replicate n 0).take n

/-- A SHA3-512 digest, 64 bytes. -/
def digest64 (b : List Byte) : List Byte := padTo 64 (Config.sha3 b)

/-- The attestation report (R286). -/
def reportBytes (s : State) (nonce : List Byte) : List Byte :=
  let i := s.hub.img
  let body := bytesOfNat 2 0x0100 ++ bytesOfNat 2 0 ++ bytesOfNat 4 7976 ++ padTo 32 nonce ++
    (List.range 8).map (fun d => if (dieOf s d).safe then (1 : Byte) else 0) ++ digest64 i.body ++ digest64 i.hubFw ++
    (List.range 8).flatMap (fun d => digest64 ((i.dieFw[d]?).getD [])) ++ padTo 2592 Config.identity.1
  body ++ digest64 body ++ padTo 4627 (Config.mldsaSign Config.identity.2 (digest64 body)) ++ List.replicate 5 0

/-- The payload of a TYPE 2 message keeps its layout (R286). -/
def attestOk (m : List Byte) : Bool := numAt m 40 8 % 64 == 0 && decide (numAt m 40 8 + 7976 ≤ 2 ^ 50) && decide (numAt m 48 4 < 2 ^ 20) && numAt m 52 12 == 0

/-- MBOX_ATTESTATION (R286): the report is built and signed; or the hub answers busy, as it does while another is signed. -/
def execMboxAttestation (busy : Bool) (s : State) : Host.Outcome State Fault Refusal :=
  .next (
    if !serving s (· == 2) || s.hub.report.isSome then s
    else withVersion s (fun s =>
      if busy then mboxAnswer s 1 0 []
      else if !attestOk s.hub.msg then mboxDeny s 3
      else modHub s (fun h => { h with report := some (reportBytes s ((h.msg.drop 8).take 32)) })))

/-- ATTESTATION_REPORT_WRITTEN (R286): the report is written to host memory at HADDR, by writes that carry the message's PASID, and
then the message is answered. (DESIGN CHOICE, log 111) -/
def execAttestationReportWritten (s : State) : Host.Outcome State Fault Refusal :=
  .next (match s.hub.report with
  | none => s
  | some r =>
    let s1 := homeWrite s (2 ^ 50 + numAt s.hub.msg 40 8) r
    mboxAnswer (modHub s1 (fun h => { h with report := none, posted := h.posted ++ [(numAt h.msg 48 4, numAt h.msg 40 8)] })) 0 0 (bytesOfNat 4 7976))

/-- A write of DIE.WATCH stores its fields and sets HITS to 0 (R346). -/
def writeWatch (s : State) (die n v : Nat) : State := wrReg s (.watch die n) (keepFlds v [(127, 108), (51, 0)])

/-- The register that a TYPE 3 message names, with its write's effect if it may be written (R287). -/
def debugTarget (m : List Byte) : Option (Reg × Option (Nat → State → State)) :=
  let die := numAt m 8 1
  let core := 28 * die + numAt m 9 1
  let reg := numAt m 10 1
  let slot := numAt m 11 1
  let ix := numAt m 12 1
  if die ≥ 8 ∨ (reg ≠ 6 ∧ (numAt m 9 1 ≥ 28 ∨ slot ≥ 8)) then none
  else if reg = 0 then some (.dbgctl core slot, some (fun v s => wrReg s (.dbgctl core slot) (keepFlds v (plainFlds (.dbgctl core slot)))))
  else if reg = 1 then (if ix < 4 then some (.brk core slot ix, some (fun v s => wrReg s (.brk core slot ix) (keepFlds v (plainFlds (.brk core slot ix))))) else none)
  else if reg = 2 then some (.dbgcmd core slot, some (fun v s =>
    if !bitN v 127 then wrReg s (.dbgcmd core slot) (keepFlds v [(126, 63)] + fld (rdReg s (.dbgcmd core slot)) 62 61 * 2 ^ 61)
    else match fld v 126 124 with
      | 1 => resumeCmd core slot v s
      | 2 => stepCmd core slot v s
      | 3 => stopCmd core slot v s
      | _ => dbgAnswer s core slot v 2))
  else if reg = 3 then some (.dbgstat core slot, none)
  else if reg = 4 then some (.dbgq core, some (queryCmd core))
  else if reg = 5 then (if ix < 20 then some (.dbgqr core (2 * ix), none) else none)
  else if reg = 6 then (if ix < 8 then some (.watch die ix, some (fun v s => writeWatch s die ix v)) else none)
  else if reg = 7 then some (.tframe core slot, none)
  else none

/-- A register takes 64 bits of VALUE (R287). -/
def narrow (m : List Byte) : Bool := numAt m 10 1 == 0 || numAt m 10 1 == 1 || numAt m 10 1 == 3

/-- The value of a register in a TYPE 3 answer: for CORE.DBGQR a 16-byte part. -/
def debugValue (s : State) (r : Reg) : Nat :=
  match r with
  | .dbgqr c n => readReg s (.dbgqr c n) + readReg s (.dbgqr c (n + 1)) * 2 ^ 64
  | r => readReg s r

/-- MBOX_DEBUG_ACCESS (R287): one debug register is read or written; `allowed` is the firmware's policy. Of a die in the safe state
none is (R282): the message is denied with DETAIL 1. (DESIGN CHOICE, log 114) -/
def execMboxDebugAccess (allowed : Bool) (s : State) : Host.Outcome State Fault Refusal :=
  .next (
    if !serving s (· == 3) then s
    else withVersion s (fun s =>
      let m := s.hub.msg
      if numAt m 13 1 > 1 ∨ numAt m 14 2 ≠ 0 ∨ numAt m 16 4 ≥ 2 ^ 20 ∨ numAt m 20 4 ≠ 0 ∨ numAt m 40 24 ≠ 0 then mboxDeny s 3
      else match debugTarget m with
        | none => mboxDeny s 3
        | some (r, w) =>
          if numAt m 13 1 = 1 ∧ w.isNone then mboxDeny s 3
          else if !allowed || deafReg s r then mboxDeny s 1
          else
            let v := numAt m 24 (if narrow m then 8 else 16)
            let s1 := match w with | some f => if numAt m 13 1 = 1 then f v s else s | none => s
            mboxAnswer s1 0 0 (bytesOfNat 16 (debugValue s1 r))))

/-- MBOX_REJECT_LOG (R312): the count and the six newest entries of a PASID. -/
def execMboxRejectLog (s : State) : Host.Outcome State Fault Refusal :=
  .next (
    if !serving s (· == 4) then s
    else withVersion s (fun s =>
      let m := s.hub.msg
      if numAt m 8 4 ≥ 2 ^ 20 ∨ numAt m 12 52 ≠ 0 then mboxDeny s 3
      else
        let l := (mget s.hub.rejects (numAt m 8 4)).getD ⟨0, []⟩
        mboxAnswer s 0 0 (bytesOfNat 8 l.count ++ (List.range 6).flatMap (fun i => bytesOfNat 8 ((l.entries[i]?).getD 0)))))

/-- MBOX_UNKNOWN_TYPE (R285). -/
def execMboxUnknownType (s : State) : Host.Outcome State Fault Refusal :=
  .next (if !serving s (fun t => t == 0 || decide (4 < t)) then s else withVersion s (fun s => mboxDeny s 2))

end Sys2Proof.Machine
end

