-- ==== Sys2Proof/Machine/Arbiter.lean ====
section
/-! DEFINITION. The issue logic of a partition (R34-R43, R292, R293): the word at a thread's program counter, readiness, the
PC table, candidate issue sets, and the picks of a clock. -/

namespace Sys2Proof.Machine

open Sys2Proof

/-- What stands at a kernel offset: the spar (0 for none) and the word, whether it is of the group set, the instruction it
decodes to, or the condition that its fetch meets, with the words and the offset that a frame names. -/
structure NextWord where
  group : Bool
  spar : Spar
  sparw : Word
  word : Word
  instr : Option Instr
  cond : Option (Nat × Nat)
  fetch : Bool
  addr : Nat
deriving DecidableEq, Repr

/-- The word is a spar (R119), its bits [1:0] whatever they are. -/
def isSpar (w : Word) : Bool := fld w.toNat 31 25 == 63

/-- The instruction of a word that decodes. -/
def instrOf (w : Word) : Option Instr :=
  match decode w.toNat with
  | .ok i => some i
  | .error _ => none

/-- A word that cannot be fetched (R292). -/
def fetchFault (cd : Nat × Nat) (va : Nat) : NextWord := ⟨false, noSpar, 0, 0, none, some cd, true, va⟩

/-- A word by itself: illegal where it decodes to nothing, or is a spar (R126). -/
def plainWord (w : Word) : NextWord := ⟨w.msb, noSpar, 0, w, if isSpar w then none else instrOf w, none, false, 0⟩

/-- A word behind a spar. -/
def sparWord (p w : Word) : NextWord := ⟨w.msb, sparOfWord p.toNat, p, w, if isSpar w then none else instrOf w, none, false, 0⟩

/-- The word at a kernel offset of a group's kernel: past the last word CTRL 3 (R292), else the word, behind its spar if
one stands there (R122). (DEDUCED, log 39) (DEDUCED, log 49) (DEDUCED, log 95) -/
def nextWord (s : State) (x : Group) (off : Nat) : NextWord :=
  let va := entryVa x.kernel + off
  if 4 * x.kernel.nwords ≤ off then
    let last := 4 * x.kernel.nwords - 4
    let w := wordsAtOff s x (last - 4)
    let p := wordsAtOff s x last
    { fetchFault (0x05, 3) (entryVa x.kernel + 4 * x.kernel.nwords) with
      fetch := false, sparw := if isSpar w.1 then w.1 else 0, word := if isSpar w.1 then w.2 else p.2 }
  else match fetchWord s x.core x.asid va with
    | .error e => fetchFault e va
    | .ok w =>
      if !isSpar w || 4 * x.kernel.nwords ≤ off + 4 then plainWord w
      else match fetchWord s x.core x.asid (va + 4) with
        | .error e => fetchFault e (va + 4)
        | .ok v => sparWord w v

/-- The ports of R40 that a word needs: 0 memory, 1 matrix, 2 uniform, 3 cross-lane. -/
def portsOf : Instr → List Nat
  | .ldN8 _ _ _ => [0] | .ldI8 _ _ _ => [0] | .ldN16 _ _ _ => [0] | .ldI16 _ _ _ => [0] | .ldB32 _ _ _ => [0]
  | .ldB64 _ _ _ => [0] | .ldB128 _ _ _ => [0]
  | .stB8 _ _ _ => [0] | .stB16 _ _ _ => [0] | .stB32 _ _ _ => [0] | .stB64 _ _ _ => [0] | .stB128 _ _ _ => [0]
  | .atAdd _ _ _ => [0] | .atMin _ _ _ => [0] | .atMax _ _ _ => [0] | .atMinn _ _ _ => [0] | .atMaxn _ _ _ => [0]
  | .atAnd _ _ _ => [0] | .atOr _ _ _ => [0] | .atXor _ _ _ => [0] | .atXchg _ _ _ => [0] | .atCas _ _ _ => [0] | .atFadd _ _ _ => [0]
  | .mxMma _ _ _ => [1, 2] | .mxMmag _ _ _ => [1, 2] | .mxMcv _ _ _ => [1, 2] | .mxSto _ _ => [1, 2]
  | .mxZero _ => [1] | .mxGet _ _ _ => [1] | .mxPut _ _ _ => [1] | .mxRmax _ _ => [1] | .mxRscale _ _ => [1]
  | .xlShfl _ _ _ => [3] | .xlShflx _ _ _ => [3] | .xlAny _ _ => [3] | .xlAll _ _ => [3] | .xlBallotl _ _ => [3] | .xlBallh _ _ => [3]
  | .xlScan _ _ => [3] | .xlRed _ _ => [3] | .xlRedmax _ _ => [3] | .xlFred _ _ => [3] | .xlFredmax _ _ => [3] | .xlMatch _ _ => [3]
  | .xlPopc _ _ => [3]
  | .plApply _ _ _ => [3] | .plApplyi _ _ _ => [3] | .plIdx _ _ => [3] | .plPos _ _ => [3] | .plCyclen _ _ => [3] | .plCycmin _ _ => [3]
  | .uldB32 _ _ _ => [0, 2] | .uldB64 _ _ _ => [0, 2] | .ustB32 _ _ _ => [0, 2]
  | _ => []

/-- The ports of the word at a program counter: every group-set word needs the uniform port (R40). -/
def NextWord.ports (n : NextWord) : List Nat :=
  match n.instr with
  | none => if n.group then [2] else []
  | some i => if n.group then nub (2 :: portsOf i) else portsOf i

/-- The counter of a class stands at 255 (R96). -/
def counterFull (x : Group) (cls : Nat) : Bool := decide (255 ≤ (x.oc[cls]?).getD 0)

/-- A full queue or counter keeps the word from being ready (R96, R190, R212, R221); `more` entries join the queue before it. -/
def queueHeld (s : State) (x : Group) (i : Instr) (more : Nat) : Bool :=
  let c := coreOf s x.core
  let chan := fun k => decide (16 ≤ ((c.chans[k]?).map (fun ch => ch.waiting.length)).getD 0 + more)
  let solver := decide (16 ≤ c.solverQ.length + more) || counterFull x 3
  match i with
  | .engCopy d _ => chan d.toNat || counterFull x 0
  | .engQuant _ => chan 4 || counterFull x 2
  | .engPut _ => counterFull x 4
  | .engGet _ => counterFull x 4
  | .pmLoad _ _ => solver | .pmComp _ _ _ => solver | .pmRand _ _ _ => solver | .pmSave _ _ => solver | .pmRest _ _ => solver
  | _ => (portsOf i).contains 1 && (decide (32 ≤ (partOf c x.part).mxq.length + more) || counterFull x 1)

/-- A trap ends issue after the clock in which it is met (R298, R348); a thread of a group that a stop broadcast has reached issues
at most 8 further words (R306, R349). -/
def skids (x : Group) (h : Thread) (clk : Nat) : Bool :=
  match x.trap with
  | none => true
  | some t => t.frame == 0 && t.met == clk || t.frame == 0 && t.cond.cause == 0x30 && decide (h.skid < 8) && (t.cond.detail == 1 || decide (t.dbg < 128))

/-- The group runs: its threads may be ready (R34, R46, R333, R348, R354). (DEDUCED, log 7) -/
def groupRuns (s : State) (u : DUnit) (x : Group) : Bool :=
  slotRuns s x.core x.slot && !x.ended && u.cancel == 0 && u.rollPhase == 0 && x.dbg.mode != 1 && x.dbg.mode != 2 && x.wait.kind == .none

/-- The group forms candidates (R38, R62, R64): its slot's weight is not 0, and it does not pause. -/
def groupMayIssue (s : State) (u : DUnit) (x : Group) : Bool :=
  groupRuns s u x && dpWt (rdReg s (.dpart x.core x.slot)) != 0 && x.pause.isNone

/-- The thread has met no condition, or it meets it in this clock: it forms no candidates from the next on (R298). -/
def condFree (s : State) (x : Group) (h : Thread) : Bool := h.cond.isNone || h.condAt == clkOf s x.core

/-- The thread may issue. -/
def mayIssue (s : State) (u : DUnit) (x : Group) (h : Thread) : Bool :=
  groupMayIssue s u x && !h.exited && condFree s x h && skids x h (clkOf s x.core) && (x.dbg.mode != 3 || decide (0 < h.stepLeft))

/-- The word keeps the thread waiting: a source, or a full queue (R34, R58); a word that does not decode waits for none. (DESIGN CHOICE, log 108) -/
def wordBlocked (s : State) (x : Group) (t : Nat) (n : NextWord) : Bool :=
  match n.instr with
  | none => false
  | some i => srcBlocked x t n.spar i || queueHeld s x i 0

/-- The offsets at which a group's threads stand, each with its word. -/
def groupWords (s : State) (x : Group) : NMap NextWord :=
  (nub ((liveThreads x).map (·.off))).map (fun o => (o, nextWord s x o))

/-- The word at an offset of a group. -/
def wordAtOff (ws : NMap NextWord) (off : Nat) : NextWord := (mget ws off).getD (fetchFault (0, 0) 0)

/-- The thread's last issue, or its release from a waiting word, holds it back in a clock: it is at the next word from the following
clock on, those of the second half of a width-64 set a clock later (R37, R179). -/
def heldBack (h : Thread) (clk : Nat) : Bool := h.last.any (fun l => decide (clk ≤ l.1))

/-- A thread of the group exits only at the end of this clock, as one of the second half of a width-64 set does (R37, R42). -/
def exitsOver (s : State) (x : Group) : Bool := x.threads.any (fun h => h.exited && heldBack h (clkOf s x.core))

/-- A thread in a clock (R34, R42): ready since its ready cycle, or arrived since its arrival. -/
def refreshThread (s : State) (u : DUnit) (x : Group) (ws : NMap NextWord) (clk : Nat) (h : Thread) : Thread :=
  let n := wordAtOff ws h.off
  if h.exited then h
  else if heldBack h clk then { h with ready := none, joined := false }
  else if n.group || (groupRuns s u x && condFree s x h && !wordBlocked s x h.tid n) then { h with ready := some (h.ready.getD clk), joined := h.joined && !n.group }
  else { h with ready := none, joined := false }

/-- A group in a clock. -/
def refreshGroup (s : State) (u : DUnit) (x : Group) (clk : Nat) : Group :=
  if x.ended || x.wait.kind != .none then x
  else
    let ws := groupWords s x
    { x with threads := x.threads.map (refreshThread s u x ws clk) }

/-- A thread that is ready for a lane-set word: its PC-table key (R35) and what R36 needs of it; `may` when its group
forms candidates. -/
structure Ready where
  slot : Nat
  uid : Nat
  tag : Nat
  img : Nat
  kidx : Nat
  off : Nat
  pc : Nat
  gidx : Nat
  tid : Nat
  lane : Nat
  tslot : Nat
  width : Nat
  ready : Nat
  joined : Bool
  may : Bool
deriving DecidableEq, Repr

/-- The tag of a unit on a core (R39). -/
def tagOn (u : DUnit) (core : Nat) : Nat := (mget u.tags core).getD 0

/-- The threads of a partition that are ready for a lane-set word; `groups` with their words. -/
def readyOf (s : State) (gs : List (DUnit × Group × NMap NextWord)) : List Ready :=
  gs.flatMap (fun uxw => uxw.2.1.threads.filterMap (fun h =>
    match h.ready with
    | none => none
    | some r => if h.exited || (wordAtOff uxw.2.2 h.off).group then none else
      some ⟨uxw.2.1.slot, uxw.1.uid, tagOn uxw.1 uxw.2.1.core, uxw.2.1.kernel.img, uxw.2.1.kernel.kidx, h.off, entryVa uxw.2.1.kernel + h.off,
        uxw.2.1.gidx, h.tid, h.lane, h.tslot, uxw.2.1.width, r, h.joined, mayIssue s uxw.1 uxw.2.1 h⟩))

/-- Two ready threads have one key of the PC table (R35). -/
def Ready.sameKey (a b : Ready) : Bool := a.slot == b.slot && a.uid == b.uid && a.img == b.img && a.kidx == b.kidx && a.pc == b.pc

/-- The set of the PC table (R35). -/
def Ready.set (a : Ready) : Nat := (a.pc / 4 % 16) ^^^ (a.pc / 64 % 16)

/-- The order in which waiting threads join (R35). -/
def joinsBefore (a b : Ready) : Bool :=
  a.ready < b.ready || (a.ready == b.ready && (a.tag < b.tag || (a.tag == b.tag && (a.gidx < b.gidx || (a.gidx == b.gidx && a.tid < b.tid)))))

/-- The keys of a list, each once. -/
def pcKeys (l : List Ready) : List Ready := l.foldl (fun ks a => if ks.any a.sameKey then ks else ks ++ [a]) []

/-- The waiting threads join the PC table in order (R35): `keys` holds one thread of each occupied entry. -/
def joinTable : List Ready → List Ready → List Ready
  | _, [] => []
  | keys, a :: l =>
    if keys.any a.sameKey then a :: joinTable keys l
    else if (keys.filter (fun k => k.set == a.set)).length < 4 then a :: joinTable (a :: keys) l
    else joinTable keys l

/-- The threads that hold a place in the PC table in this clock. -/
def tableOf (l : List Ready) : List Ready :=
  let old := l.filter (·.joined)
  old ++ joinTable (pcKeys old) (sortLt joinsBefore (l.filter (fun a => !a.joined)))

/-- Octets of a list of lanes. -/
def lanesOctets (ls : List Nat) : List Nat := (List.range 4).filter (fun o => ls.any (fun l => l / 8 == o))

/-- The threads of a list by group. -/
def setsOf (l : List Ready) : List (Nat × List Nat) :=
  (sortBy (fun g => g) (nub (l.map (·.gidx)))).map (fun g => (g, sortBy (fun t => t) ((l.filter (fun a => a.gidx == g)).map (·.tid))))

/-- The thread of a lane that a candidate takes (R36): the earliest ready cycle, then the lower slot. -/
def laneBest : List Ready → Option Ready
  | [] => none
  | a :: l => match laneBest l with
    | none => some a
    | some b => if a.ready < b.ready || (a.ready == b.ready && a.tslot < b.tslot) then some a else some b

/-- The group of a width-64 entry that a candidate takes (R37). -/
def groupBest : List Ready → Option Ready
  | [] => none
  | a :: l => match groupBest l with
    | none => some a
    | some b => if a.ready < b.ready || (a.ready == b.ready && a.gidx < b.gidx) then some a else some b

/-- The threads of an entry that its candidate takes (R36, R37). -/
def takenOf (l : List Ready) : List Ready :=
  if l.any (fun a => a.width == 64) then
    match groupBest l with
    | none => []
    | some b => l.filter (fun a => a.gidx == b.gidx)
  else (List.range 32).filterMap (fun k => laneBest (l.filter (fun a => a.lane == k)))

/-- The candidate of an entry of the PC table (R36, R37). -/
def laneCand (words : Ready → NextWord) (k : Ready) (entry : List Ready) : Cand :=
  let l := takenOf entry
  let w64 := l.any (fun a => a.width == 64)
  { slot := k.slot, uid := k.uid, off := k.off, pc := k.pc, group := false, sets := setsOf l
    octets := if w64 then [0, 1, 2, 3] else lanesOctets (l.map (·.lane))
    age := (minOf (l.map (·.ready))).getD 0
    tag := k.tag
    wide := w64 && l.any (fun a => a.tid < 32) && l.any (fun a => 32 ≤ a.tid)
    ports := (words k).ports
    held := false }

/-- The group-set candidate of a group (R42): every thread that has not exited has arrived at one address, and the word's
sources are full; its age is the last arrival or exit. -/
def groupCand (s : State) (u : DUnit) (x : Group) (ws : NMap NextWord) : Option Cand :=
  match ws with
  | [(off, n)] =>
    if n.group && !exitsOver s x && (liveThreads x).all (fun h => mayIssue s u x h && h.ready.isSome && !wordBlocked s x h.tid n) && !(liveThreads x).isEmpty then
      some { slot := x.slot, uid := u.uid, off := off, pc := entryVa x.kernel + off, group := true, sets := [(x.gidx, liveTids x)]
             octets := octetsOf x, age := maxOf (x.threads.map (fun h => h.ready.getD 0)), tag := tagOn u x.core, wide := false
             ports := n.ports, held := false }
    else none
  | _ => none

/-- Every thread of a group has arrived, at two or more addresses (R43): the lowest. -/
def splitRendezvous (s : State) (u : DUnit) (x : Group) (ws : NMap NextWord) : Option Nat :=
  if 2 ≤ ws.length && !exitsOver s x && ws.all (fun e => e.2.group) && (liveThreads x).all (fun h => h.ready.isSome && mayIssue s u x h) then minOf (ws.map (·.1)) else none

/-- The order of candidates of one age (R39): by octet from P, then PC, then unit tag. -/
def octDist (clk : Nat) (c : Cand) : Nat := (minOf (c.octets.map (fun o => (o + 4 - clk % 4) % 4))).getD 4

/-- A candidate is older than another (R38, R39). (DEDUCED, log 16) -/
def older (clk : Nat) (a b : Cand) : Bool :=
  a.age < b.age || (a.age == b.age && (octDist clk a < octDist clk b || (octDist clk a == octDist clk b &&
    (a.pc < b.pc || (a.pc == b.pc && a.tag < b.tag)))))

/-- The oldest of some candidates. -/
def oldest (clk : Nat) (l : List Cand) : Option Cand := (sortLt (older clk) l).head?

/-- Two candidates are compatible (R38). -/
def compatible (a b : Cand) : Bool :=
  if a.group then !b.group else b.group || a.octets.all (fun o => !b.octets.contains o)

/-- Two candidates need one port (R40). -/
def portClash (a b : Cand) : Bool := a.ports.any (fun p => b.ports.contains p)

/-- A credit saturates (R38). -/
def saturate (c : Int) : Int := if c < -4096 then -4096 else if c > 4095 then 4095 else c

/-- The credit of a slot. -/
def creditOf (cs : List Int) (d : Nat) : Int := (cs[d]?).getD 0

/-- The slots in the order of the picks: credits descending, the lowest slot first on a tie (R38). -/
def slotOrder (cs : List Int) (ds : List Nat) : List Nat :=
  sortLt (fun a b => creditOf cs a > creditOf cs b || (creditOf cs a == creditOf cs b && a < b)) ds

/-- What the arbitration of a clock decides: the picks, and the credits after it. -/
structure Picks where
  picks : List Cand
  credit : List Int
deriving DecidableEq, Repr

/-- Charges a slot. -/
def charge (cs : List Int) (d : Nat) (n : Int) : List Int := setAt cs d (saturate (creditOf cs d - n))

/-- Pick 2: of each slot, by credits descending, its oldest candidate compatible with pick 1 (R38). -/
def pickTwo (clk : Nat) (cs : List Int) (cands : List Cand) (p1 : Cand) : Option Cand :=
  (slotOrder cs (List.range 8)).findSome? (fun d => oldest clk (cands.filter (fun c => c.slot == d && compatible p1 c)))

/-- The arbitration of a clock (R38-R40): `wide` is the second clock due of a width-64 set, which is pick 1 and keeps its
ports; `cands` are the candidates formed in the clock. (DEDUCED, log 17) (DEDUCED, log 18) -/
def arbitrate (clk : Nat) (weight : Nat → Nat) (credit : List Int) (wide : Option Cand) (cands : List Cand) : Picks :=
  let all := cands ++ wide.toList
  let has := fun d => all.any (fun c => c.slot == d)
  let sum : Int := Int.ofNat (sumOf (((List.range 8).filter has).map weight))
  let cs := (List.range 8).map (fun d => if has d then saturate (creditOf credit d + Int.ofNat (weight d)) else 0)
  let free := cands.filter (fun c => !c.held && !(wide.any (portClash c)))
  match wide with
  | some w =>
    let cs1 := charge cs w.slot sum
    ⟨(pickTwo clk cs1 free w).toList, cs1⟩
  | none =>
    match (slotOrder cs ((List.range 8).filter (fun d => free.any (fun c => c.slot == d)))).head?.bind
        (fun d => oldest clk (free.filter (fun c => c.slot == d))) with
    | none => ⟨[], cs⟩
    | some p1 =>
      let cs1 := charge cs p1.slot sum
      match pickTwo clk cs1 (free.filter (fun c => c != p1)) p1 with
      | none => ⟨[p1], cs1⟩
      | some p2 =>
        if !portClash p1 p2 then ⟨[p1, p2], cs1⟩
        else if older clk p2 p1 then ⟨[p2], charge cs p2.slot sum⟩
        else ⟨[p1], cs1⟩

/-- The groups of a partition with their units and the words at their threads' offsets; a group that has ended or waits
forms no candidates (R42, R179). -/
def issuing (s : State) (core part : Nat) : List (DUnit × Group × NMap NextWord) :=
  (groupsAt s core part).filterMap (fun ux => match unitOf s ux.1 with
    | none => none
    | some u => if ux.2.ended || ux.2.wait.kind != .none then none else some (u, ux.2, groupWords s ux.2))

/-- The word of a ready thread. -/
def readyWord (gs : List (DUnit × Group × NMap NextWord)) (k : Ready) : NextWord :=
  match gs.find? (fun e => e.1.uid == k.uid && e.2.1.gidx == k.gidx) with
  | none => fetchFault (0, 0) 0
  | some e => wordAtOff e.2.2 k.off

/-- The memory port accepts no set in a clock: the coalescer emits the requests of an earlier set (R38, R81). (DESIGN CHOICE, log 85) -/
def portHeld (p : Part) (clk : Nat) : Bool := !p.lines.isEmpty || decide (clk < p.portFree)

/-- A candidate that needs the memory port in such a clock is marked. -/
def markHeld (p : Part) (clk : Nat) (c : Cand) : Cand := { c with held := portHeld p clk && c.ports.contains 0 }

/-- The candidates of a partition in a clock: of the entries' threads whose groups form candidates. -/
def candsOf (s : State) (p : Part) (clk : Nat) (gs : List (DUnit × Group × NMap NextWord)) (table : List Ready) : List Cand :=
  let able := table.filter (·.may)
  ((pcKeys able).map (fun k => laneCand (readyWord gs) k (able.filter k.sameKey)) ++
    gs.filterMap (fun e => groupCand s e.1 e.2.1 e.2.2)).map (markHeld p clk)

/-- The threads of a partition in a new clock (R34, R42). -/
def refreshPart (s : State) (core part : Nat) : State :=
  { s with units := s.units.map (fun u => if u.groups.any (fun x => x.core == core && x.part == part) then
      { u with groups := u.groups.map (fun x => if x.core == core && x.part == part then refreshGroup s u x (clkOf s core) else x) } else u) }

/-- The threads that have joined the PC table. -/
def markJoined (s : State) (core part : Nat) (table : List Ready) : State :=
  { s with units := s.units.map (fun u => if table.any (fun a => a.uid == u.uid) then
      { u with groups := u.groups.map (fun x => if x.core == core && x.part == part then
          { x with threads := x.threads.map (fun h => { h with joined := table.any (fun a => a.uid == u.uid && a.gidx == x.gidx && a.tid == h.tid) }) }
        else x) } else u) }

/-- RENDEZ (R43, R292): the threads of the group wait at group-set words of different addresses. -/
def raiseRendez (s : State) (u : DUnit) (x : Group) (off : Nat) (n : NextWord) : State :=
  let c : Cond := { cause := 0x06, detail := 0, kind := .sync, widx := off / 4, sparw := n.sparw, word := n.word, addr := entryVa x.kernel + off
                    group := true, fetch := false, lmask := liveTids x, pmask := liveTids x, taddr := [], clk := clkOf s x.core
                    time := timeOf s x.core, cls := 0, more := false }
  (liveTids x).foldl (fun s t => raiseThread s u.uid x.gidx t { c with lmask := [t] }) s

/-- The RENDEZ conditions of a partition. -/
def rendezPart (s : State) (gs : List (DUnit × Group × NMap NextWord)) : State :=
  gs.foldl (fun s e => match splitRendezvous s e.1 e.2.1 e.2.2 with
    | none => s
    | some off => raiseRendez s e.1 e.2.1 off (wordAtOff e.2.2 off)) s

/-- Some counter of the partition counts (R270). -/
def counting (s : State) (core part : Nat) : Bool := (List.range 16).any (fun n => bitN (rdReg s (.ctrsel core part n)) 31)

/-- The domain of a slot. -/
def slotDom (s : State) (core slot : Nat) : Nat := domDom (rdReg s (.domtab core slot))

/-- The threads of a width-64 set that issue in its second clock (R37, R271). -/
def wideThreads (w : Cand) : Nat := sumOf (w.sets.map (fun gt => (gt.2.filter (fun t => decide (32 ≤ t))).length))

/-- The array of a partition is occupied in this clock (R212, R271): event 6, once nothing more starts in it. -/
def occupancyEvents (s : State) (core part : Nat) : State :=
  if !counting s core part then s
  else (partOf (coreOf s core) part).mxrun.foldl (fun s r =>
    if decide (r.start ≤ clkOf s core) && decide (clkOf s core < r.start + r.occ) then
      match groupOf s r.ent.uid r.ent.g with
      | none => s
      | some x => countEvent s core part x.dom 6 1
    else s) s

/-- The events that each clock counts at its arbitration (R271): 1, 9, 15, and 3 for the second half of a width-64 set; none for a halted
slot (R320). -/
def clockEvents (s : State) (core part : Nat) (cands : List Cand) (wide : Option Cand) (waiting : List Ready) : State :=
  if !counting s core part then s
  else
    (List.range 8).foldl (fun s d =>
      if !slotRuns s core d then s
      else
        let dom := slotDom s core d
        let w := (waiting.filter (fun a => a.slot == d)).length
        let idle := (groupsAt s core part).any (fun ux => ux.2.slot == d && !(liveThreads ux.2).isEmpty) && !(cands ++ wide.toList).any (fun c => c.slot == d)
        countEvent (countEvent (countEvent s core part dom 1 1) core part dom 9 (if idle then 1 else 0)) core part dom 15 w)
      (match wide with
       | none => s
       | some w => countEvent s core part (slotDom s core w.slot) 3 (wideThreads w))

/-- A partition arbitrates its clock (R34-R43): the picks stand in `Part.picks`. -/
def arbitratePart (s : State) (core part : Nat) : State :=
  let s1 := refreshPart (releaseBarriers s core part) core part
  let gs := issuing s1 core part
  let ready := readyOf s1 gs
  let table := tableOf ready
  let p := partOf (coreOf s1 core) part
  let clk := clkOf s1 core
  let cands := candsOf s1 p clk gs table
  let r := arbitrate clk (fun d => dpWt (rdReg s1 (.dpart core d))) p.credit p.wide cands
  let s2 := clockEvents (rendezPart (markJoined s1 core part table) gs) core part cands p.wide (ready.filter (fun a => !table.any (fun b => b.uid == a.uid && b.gidx == a.gidx && b.tid == a.tid)))
  modPart s2 core part (fun q => { q with
    credit := r.credit
    picks := r.picks
    lastClk := some clk
    wide := r.picks.find? (·.wide)
    held := portHeld p clk })

/-- The address at which a thread stands in the sampled clock: that of the word that it issued, or was released from, in it (R179, R267). -/
def standPc (s : State) (x : Group) (h : Thread) : Nat :=
  if heldBack h (clkOf s x.core) then (h.last.map (fun l => l.2.1)).getD (entryVa x.kernel + h.off) else entryVa x.kernel + h.off

/-- The stall code of R266 of a thread in the clock whose picks have issued. -/
def stallCode (s : State) (x : Group) (h : Thread) : Nat :=
  let p := partOf (coreOf s x.core) x.part
  let n := nextWord s x h.off
  let empty := fun (i : Instr) => (((opnds n.spar i).filter Opnd.waits).map (fun o => (o.cls, o.num)) ++
      ((ixName x h.tid n.spar i).map (fun k => (NClass.lane, k))).toList).filter (fun o => entHeld x o.1 o.2 h.tid && !entFull x o.1 o.2 h.tid)
  let filling := fun (o : NClass × Nat) => (entryOf x o.1 o.2 h.tid).q.isEmpty && ((entryOf x o.1 o.2 h.tid).inSlot || (nameOf x o.1 o.2).any (fun m => m.res.isEmpty))
  let byLoad := fun (o : NClass × Nat) => (entryOf x o.1 o.2 h.tid).q.any (fun id => (coreOf s x.core).loads.any (fun l => l.id == id))
  let blocked := n.instr.any (fun i => srcBlocked x h.tid n.spar i)
  if h.last.any (fun l => l.1 == clkOf s x.core) then (h.last.map (fun l => l.2.2)).getD 0
  else if !slotRuns s x.core x.slot || x.dbg.mode == 1 || x.dbg.mode == 2 then 1
  else if x.pause.isSome then 2
  else if heldBack h (clkOf s x.core) then 15
  else if x.wait.kind == .none && n.fetch then 3
  else if x.wait.kind == .none && n.group && x.threads.any (fun k => (!k.exited || heldBack k (clkOf s x.core)) && standPc s x k != standPc s x h) then 4
  else match x.wait.kind with
    | .bar _ _ => 5
    | .wt _ => 5
    | .oc _ _ => 6
    | .obRel _ => 6
    | .obRec _ _ => 6
    | .mwait _ _ _ => 7
    | .dwait => 8
    | .gateCall _ _ => 9
    | .gateRet _ => 9
    | .none =>
      if blocked && n.instr.any (fun i => (empty i).any filling) then 10
      else if blocked && n.instr.any (fun i => (empty i).any byLoad) then 11
      else if blocked then 12
      else if n.instr.any (fun i => queueHeld s x i 0) || (p.held && n.ports.contains 0) then 13
      else if !n.group && h.ready.isSome && !h.joined then 14
      else 15

end Sys2Proof.Machine
end

