-- ==== Sys2Proof/Machine/Sampling.lean ====
section
/-! DEFINITION. Sampling and counters as firmware sets them, and the samples that a core takes (R262-R270). -/

namespace Sys2Proof.Machine

open Sys2Proof

/-- SRING_WRITE (R262, R263): a write of V = 1 loads the private WR from the ring's header; a ring whose place breaks R263 is
closed (R296). (DEDUCED, log 82) -/
def execSringWrite (core slot v : Nat) (s : State) : Host.Outcome State Fault Refusal :=
  .next (
    let w := keepFlds v [(127, 124), (116, 61)] + Nat.min 10 (fld v 120 117) * 2 ^ 117
    let s1 := wrReg s (.sring core slot) w
    if !bitN w 127 then s1
    else match ringPa s1 core slot (ringBase w) false with
      | some pa =>
        if ringBase w % 4096 ≠ 0 then closeRing s1 core slot
        else modCore s1 core (fun c => { c with
          ringWr := setAt c.ringWr slot (natOfBytes (homeRead s1 pa 8))
          ringRecs := c.ringRecs.filter (fun r => r.slot != slot) })
      | none => closeRing s1 core slot)

/-- SAMPCTL_WRITE (R264, R265): the period exponent stops at 10, and every partition's generator is seeded anew. -/
def execSampctlWrite (core v : Nat) (s : State) : Host.Outcome State Fault Refusal :=
  .next (
    let s1 := wrReg s (.sampctl core) (keepFlds v [(63, 63), (58, 54), (31, 0)] + Nat.min 10 (fld v 62 59) * 2 ^ 59)
    (List.range 12).foldl (fun s p => modPart s core p (fun q => { q with
      gen := BitVec.ofNat 64 (fld v 31 0 * 2 ^ 32 + p + 1), genClk := clkOf s core })) s1)

/-- CTRSEL_WRITE (R270): the counter is set to 0. -/
def execCtrselWrite (core part n v : Nat) (s : State) : Host.Outcome State Fault Refusal :=
  .next (modPart (wrReg s (.ctrsel core part n) (keepFlds v [(31, 12)])) core part (fun p => { p with
    counters := setAt p.counters n 0, counting := setAt p.counting n 0 }))

/-- The resident thread at a place of a partition (R265): its unit, group and the thread. -/
def threadAt (s : State) (core part lane tslot : Nat) : Option (DUnit × Group × Thread) :=
  (groupsAt s core part).findSome? (fun ux => match unitOf s ux.1, ux.2.threads.find? (fun h => !h.exited && h.lane == lane && h.tslot == tslot) with
    | some u, some h => if ux.2.ended then none else some (u, ux.2, h)
    | _, _ => none)

/-- A program-counter record (R267). -/
def pcRecord (s : State) (u : DUnit) (x : Group) (h : Thread) : List Byte :=
  bytesOfNat 1 1 ++ bytesOfNat 1 (stallCode s x h) ++ bytesOfNat 1 x.part ++ bytesOfNat 1 x.core ++ bytesOfNat 2 x.dom ++
  bytesOfNat 1 h.lane ++ bytesOfNat 1 h.tslot ++ bytesOfNat 8 (standPc s x h) ++ bytesOfNat 8 (timeOf s x.core) ++
  bytesOfNat 2 u.lid ++ bytesOfNat 2 x.gidx ++ bytesOfNat 4 u.unitidx

/-- The partition has issued all that it picked in this clock. -/
def settled (s : State) (core part : Nat) : Bool :=
  let p := partOf (coreOf s core) part
  (groupsAt s core part).isEmpty || (p.lastClk == some (clkOf s core) && p.picks.isEmpty)

/-- A partition's generator steps in this clock (R265): the period since the write, or since its last step, is over. -/
def sampleDue (s : State) (core part : Nat) : Bool :=
  let v := rdReg s (.sampctl core)
  bitN v 63 && decide ((partOf (coreOf s core) part).genClk + 2 ^ (fld v 62 59 + 10) ≤ clkOf s core)

/-- PC_SAMPLE (R265-R267): at the end of a period the generator steps and draws a thread position. -/
def execPcSample (core part : Nat) (s : State) : Host.Outcome State Fault Refusal :=
  .next (
    let v := rdReg s (.sampctl core)
    let p := partOf (coreOf s core) part
    let period := 2 ^ (fld v 62 59 + 10)
    if !sampleDue s core part || !settled s core part || (dieOf s (dieOfCore core)).safe then s
    else
      let x := xorshift p.gen
      let pos := fld x.toNat 63 55
      let s1 := modPart s core part (fun q => { q with gen := x, genClk := q.genClk + period })
      match threadAt s core part (pos % 32) (pos / 32) with
      | none => s1
      | some (u, y, h) =>
        let r := rdReg s (.sring core y.slot)
        if bitN r 127 && bitN r 126 then ringRecord s1 core y.slot (pcRecord s u y h) else s1)

/-- A memory-request record (R269); a request that hit in the L2 has no ticks at the HBM5 controller. -/
def reqRecord (core : Nat) (q : SampleReq) (t : Tagged) : List Byte :=
  bytesOfNat 1 2 ++ bytesOfNat 1 (t.flags % 32) ++ bytesOfNat 1 t.part ++ bytesOfNat 1 core ++
  bytesOfNat 2 t.dom ++ bytesOfNat 2 (Nat.min 65535 q.ql1) ++ bytesOfNat 8 t.pc ++ bytesOfNat 8 t.time ++
  bytesOfNat 2 (Nat.min 65535 q.qxb) ++ bytesOfNat 2 (Nat.min 65535 q.ql2) ++ bytesOfNat 2 (Nat.min 65535 q.qlk) ++
  bytesOfNat 2 (if bitN t.flags 1 then 0 else Nat.min 65535 q.qhb)

/-- An access of some bytes lies on a line. -/
def onLine (line va size : Nat) : Bool := decide (va / 256 ≤ line) && decide (line ≤ (va + size - 1) / 256)

/-- A tagged request is complete (R268): a line request's loads have their data, its stores and atomics have performed at HOME; a far
put has ended; an engine's step has performed, in a checked unit the commit buffer's entry of it. -/
def taggedDone (s : State) (core : Nat) (t : Tagged) : Bool :=
  t.fin || (s.units.all (fun u => u.groups.all (fun x => x.core != core ||
      (x.threads.all (fun h => h.tq.all (fun e => e.set != t.set || e.parked.isSome || !onLine t.line e.va e.size)) &&
       (t.part != 255 || x.eq.all (fun q => q.all (fun e => e.id != t.set || e.fin)))))) &&
    (coreOf s core).pool.all (fun p => if t.part = 255 then p.id != t.line else p.set != t.set || !onLine t.line p.va p.size))

/-- The request of a sample: the first of its slot, partition, word and time that is complete. -/
def taggedOf (s : State) (core : Nat) (q : SampleReq) : Option Tagged :=
  (coreOf s core).tagged.find? (fun t => t.slot == q.slot && t.part == q.part && t.pc == q.pc && t.time == q.time && taggedDone s core t)

/-- MEMORY_REQUEST_SAMPLE (R268, R269): a tagged request completes. What it was and met in the tags was kept when it was emitted; the
ticks that it queued come with it. (DESIGN CHOICE, log 78) -/
def execMemoryRequestSample (core : Nat) (q : SampleReq) (s : State) : Host.Outcome State Fault Refusal :=
  .next (match if (dieOf s (dieOfCore core)).safe then none else taggedOf s core q with
    | none => s
    | some t =>
      let s1 := modCore s core (fun c => { c with tagged := c.tagged.erase t })
      let r := rdReg s (.sring core t.slot)
      if bitN r 127 && bitN r 125 then ringRecord s1 core t.slot (reqRecord core q t) else s1)

end Sys2Proof.Machine
end

