-- ==== Sys2Proof/Machine/Thermal.lean ====
section
/-! DEFINITION. Temperatures, holds and trips of a die (R325-R327), and the watchpoints that firmware writes (R345). -/

namespace Sys2Proof.Machine

open Sys2Proof

/-- A value kept inside limits. -/
def clampNat (lo hi v : Nat) : Nat := Nat.max lo (Nat.min hi v)

/-- THERM_WRITE (R325): TWARN 60-105, THOT 70-110, and PEAK is set to CURT. -/
def execThermWrite (die v : Nat) (s : State) : Host.Outcome State Fault Refusal :=
  .next (
    let old := rdReg s (.therm die)
    wrReg s (.therm die) (setFld (setFld (setFld old 55 48 (clampNat 60 105 (fld v 55 48))) 47 40 (clampNat 70 110 (fld v 47 40))) 39 32 (fld old 23 16)))

/-- WATCH_WRITE (R345). -/
def execWatchWrite (die n v : Nat) (s : State) : Host.Outcome State Fault Refusal := .next (writeWatch s die n v)

/-- The junction readings of a cluster: two sensors each (R325). -/
def junctionOf (readings : List Nat) (cl : Nat) : Nat := Nat.max ((readings[2 * cl]?).getD 0) ((readings[2 * cl + 1]?).getD 0)

/-- A core's work of a unit that ends with its die: all of it is lost (R327). -/
def lostCore (uid : Nat) (c : Core) : Core :=
  { c with pool := c.pool.filter (fun p => p.uid != uid)
           solverQ := c.solverQ.filter (fun o => o.uid != uid)
           solver := if c.solver.any (fun o => o.uid == uid) then none else c.solver
           chans := c.chans.map (fun ch => { waiting := ch.waiting.filter (fun r => r.uid != uid)
                                             run := if ch.run.any (fun r => r.req.uid == uid) then none else ch.run })
           parts := c.parts.map (fun p => (p.1, { p.2 with mxq := p.2.mxq.filter (fun m => m.uid != uid), mxrun := p.2.mxrun.filter (fun r => r.ent.uid != uid) })) }

/-- A unit on a tripped die ends at once, with its twin; its launch is cancelled with STATE 3 (R327). -/
def tripUnit (s : State) (uid : Nat) : State :=
  match unitOf s uid with
  | none => s
  | some u =>
    let pair := pairOf s uid
    let s1 := cancelLaunch 3 s u.dom u.lid
    let s2 := pair.foldl (fun s v => { s with cores := s.cores.map (fun e => (e.1, lostCore v e.2)) }) s1
    modEntryAt (pair.foldl removeUnit (clearStop s2 u)) u.dom .launch u.lid (fun e => { e with count := e.count - 1 })

/-- A die trips (R327). (DEDUCED, log 89) -/
def tripDie (s : State) (die code : Nat) : State :=
  if (dieOf s die).safe then s
  else
    let s1 := (s.units.filter (fun u => u.die == die)).foldl (fun s u => tripUnit s u.uid) s
    let s2 := enterSafe (wrReg s1 (.therm die) (setFld (rdReg s1 (.therm die)) 63 63 1)) die code
    settleAll s2

/-- The clusters that are held and cool at a sample, since when (R326). -/
def coolSince (s : State) (die : Nat) (readings : List Nat) : NMap Nat :=
  let v := rdReg s (.therm die)
  let d := dieOf s die
  (List.range 7).foldl (fun m cl =>
    if bitN v (8 + cl) && decide (junctionOf readings cl + 5 ≤ fld v 47 40) then mset m cl ((mget d.cool cl).getD d.time) else m) []

/-- THERMAL_SAMPLE (R325, R327): the sensors are read; each junction reading that rises to TWARN is reported, and a reading of 115 °C or a stack at
105 °C trips the die. (DESIGN CHOICE, log 81) -/
def execThermalSample (die : Nat) (junction hbmTemps : List Nat) (s : State) : Host.Outcome State Fault Refusal :=
  .next (
    if (dieOf s die).safe then s
    else
      let v := rdReg s (.therm die)
      let js := (junction.take 14).map (Nat.min 255)
      let cur := maxOf js
      let hbm := maxOf ((hbmTemps.take 2).map (Nat.min 255))
      let warn := fld v 55 48
      let rises := (List.range js.length).filter (fun i => decide (((dieOf s die).readings[i]?).getD 0 < warn) && decide (warn ≤ (js[i]?).getD 0))
      let s1 := modDie s die (fun d => { d with readings := js, hbmTemps := (hbmTemps.take 2).map (Nat.min 255), cool := coolSince s die js })
      let s2 := wrReg s1 (.therm die) (setFld (setFld (setFld v 39 32 (Nat.max (fld v 39 32) cur)) 31 24 hbm) 23 16 cur)
      let s3 := modHub s2 (fun h => { h with reports := h.reports ++ rises.map (fun _ => (die, 1)) })
      if 115 ≤ cur then tripDie s3 die 0xF0 else if 105 ≤ hbm then tripDie s3 die 0xF1 else s3)

/-- THERMAL_HOLD (R326): a cluster whose reading has reached THOT is lowered to step 0 and held. -/
def execThermalHold (die cl : Nat) (s : State) : Host.Outcome State Fault Refusal :=
  .next (
    let v := rdReg s (.therm die)
    if bitN v (8 + cl) || decide (junctionOf (dieOf s die).readings cl < fld v 47 40) || (dieOf s die).safe then s
    else
      let s1 := dvfsEnd s die cl
      let s2 := wrReg s1 (.dvfs die cl) (setFld (setFld (rdReg s1 (.dvfs die cl)) 35 32 0) 27 16 (voltFloor s1 0))
      wrReg s2 (.therm die) (setFld (setFld v (8 + cl) (8 + cl) 1) 62 62 1))

/-- THERMAL_HOLD_RELEASE (R326): both readings have stayed at or below THOT - 5 for 1 ms. -/
def execThermalHoldRelease (die cl : Nat) (s : State) : Host.Outcome State Fault Refusal :=
  .next (
    let v := rdReg s (.therm die)
    match mget (dieOf s die).cool cl with
    | none => s
    | some t =>
      if !bitN v (8 + cl) || decide ((dieOf s die).time < t + 1000000) then s
      else
        let w := setFld v (8 + cl) (8 + cl) 0
        modDie (wrReg s (.therm die) (setFld w 62 62 (if fld w 14 8 = 0 then 0 else 1))) die (fun d => { d with cool := mdel d.cool cl }))

/-- ORDERED_TRIP (R327): hub firmware orders a trip through the die controller. -/
def execOrderedTrip (die : Nat) (s : State) : Host.Outcome State Fault Refusal := .next (tripDie s die 0xF2)

end Sys2Proof.Machine
end

