-- ==== Sys2Proof/Machine/Hbm.lean ====
section
/-! DEFINITION. The steps of the HBM5 controllers: transfers that waited, retries, lane swaps, and the registers of the logs and of
the error injector (R361-R369). -/

namespace Sys2Proof.Machine

open Sys2Proof

/-- HBM_TRANSFER (R359-R364): a sector that an access waits for in the L2, or a write-back that waits, moves on its channel;
none starts while a lane is swapped (R363). A miss on a channel that is free moves its sector by itself (`fetchSector`). (DESIGN CHOICE, log 102) -/
def execHbmTransfer (die sector : Nat) (write : Bool) (s : State) : Host.Outcome State Fault Refusal :=
  .next (
    let sec := die * 2 ^ 32 + sector
    let ch := sectorChan sec
    let d := dieOf s die
    if d.safe || (mget d.swaps ch).isSome then s
    else if write then (if d.wb.contains sec then writeTransfer (modDie s die (fun d => { d with wb := d.wb.erase sec })) die sec else s)
    else if l2Has s die sec || d.xfers.any (fun x => x.sector == sec) || !(d.wants.any (fun w => w.1 == sec)) then s
    else readTransfer s die sec)

/-- The lowest free spare of a channel takes a lane (R363). -/
def takeSpare (s : State) (die ch lane : Nat) : State :=
  let v := rdReg s (.lswap die ch)
  if !bitN v 7 then wrReg s (.lswap die ch) (setFld (setFld v 7 7 1) 5 0 lane)
  else if !bitN v 15 then wrReg s (.lswap die ch) (setFld (setFld v 15 15 1) 13 8 lane)
  else s

/-- A swap starts on a channel (R363). -/
def startSwap (s : State) (die ch : Nat) : State := modDie s die (fun d => { d with swaps := mset d.swaps ch d.time })

/-- The fourth attempt has failed (R363): the lanes at their limit are swapped, or the channel fails. -/
def atLimit (s : State) (die : Nat) (x : Xfer) : State :=
  let ch := sectorChan x.sector
  if x.lanes.isEmpty || decide (2 < x.lanes.length + (swappedLanes (rdReg s (.lswap die ch))).length) then failXfer s die x
  else pushXfer (startSwap (x.lanes.foldl (fun s l => takeSpare s die ch l) s) die ch) die { x with swapping := true }

/-- PARITY_RETRY (R362, R363, R365): 30 ns after a failure the channel's oldest transfer in retry is attempted again; none
while a lane is swapped. -/
def execParityRetry (die ch : Nat) (s : State) : Host.Outcome State Fault Refusal :=
  .next (
    let d := dieOf s die
    match d.xfers.find? (fun x => sectorChan x.sector == ch && !x.swapping && decide (x.tried + 30 ≤ d.time)) with
    | none => s
    | some x =>
      if d.safe || (mget d.swaps ch).isSome then s
      else if chanFailed s die ch then (if x.write then setXfer s die x [] else deliverSector (markPoison (setXfer s die x []) x.sector) die x.sector)
      else
        let r := attempt (setXfer s die x []) die x.sector x.write
        if r.1.passes then passedXfer r.2 die x r.1 0
        else
          let y := { x with attempts := x.attempts + 1, tried := d.time, lanes := x.lanes.filter (fun l => r.1.lanes.contains l), last := r.1.lanes }
          if y.attempts < 4 then pushXfer r.2 die y else atLimit r.2 die y)

/-- LANE_SWAP_DONE (R363): 2 microseconds on, the transfers that waited for the swap are attempted once more. -/
def execLaneSwapDone (die ch : Nat) (s : State) : Host.Outcome State Fault Refusal :=
  .next (
    let d := dieOf s die
    match mget d.swaps ch with
    | none => s
    | some t =>
      if d.safe || decide (d.time < t + 2000) then s
      else (d.xfers.filter (fun x => sectorChan x.sector == ch && x.swapping)).foldl (fun s x =>
        let r := attempt (setXfer s die x []) die x.sector x.write
        if r.1.passes then passedXfer r.2 die x r.1 1 else failXfer r.2 die { x with attempts := x.attempts + 1, last := r.1.lanes })
        (modDie s die (fun d => { d with swaps := mdel d.swaps ch })))

/-- HBMLOG_WRITE (R366): the four counts are set to 0. -/
def execHbmlogWrite (die _v : Nat) (s : State) : Host.Outcome State Fault Refusal :=
  .next (wrReg s (.hbmlog die) (keepFlds (rdReg s (.hbmlog die)) [(23, 14)]))

/-- LSWAP_WRITE (R367): a spare that is not in use takes the lane named; clearing is ignored. -/
def execLswapWrite (die ch v : Nat) (s : State) : Host.Outcome State Fault Refusal :=
  .next (
    let old := rdReg s (.lswap die ch)
    let v0 := if bitN v 7 && !bitN old 7 then setFld (setFld old 7 7 1) 5 0 (fld v 5 0) else old
    let v1 := if bitN v 15 && !bitN old 15 then setFld (setFld v0 15 15 1) 13 8 (fld v 13 8) else v0
    if v1 = old then s else startSwap (wrReg s (.lswap die ch) v1) die ch)

/-- INJSEED_WRITE (R368). -/
def execInjseedWrite (die v : Nat) (s : State) : Host.Outcome State Fault Refusal :=
  .next (wrReg s (.injseed die) (if v % 2 ^ 64 = 0 then 0x9E3779B97F4A7C15 else v % 2 ^ 64))

/-- The lines of an L2 that lie on a channel are written back and dropped (R368). -/
def flushChannel (s : State) (die ch : Nat) : State :=
  let on := fun (c : CLine) => c.line / 256 % 64 == ch
  let gone := (dieOf s die).l2.flatMap (fun e => e.2.filter on)
  gone.foldl (dropLine die) (modDie s die (fun d => { d with l2 := d.l2.map (fun e => (e.1, e.2.filter (fun c => !on c))) }))

/-- What a channel's L2 lines wrote back would have to wait: a lane is swapped, or a write-back already waits (R363). -/
def chanBusy (s : State) (die ch : Nat) : Bool :=
  (mget (dieOf s die).swaps ch).isSome || (dieOf s die).wb.any (fun sec => sectorChan sec == ch)

/-- INJCTL_WRITE (R368): stuck faults go; ARM = 1 writes back and drops the channel's L2 lines, sets HITS to 0 and arms the injector where
TEST is 1. What is written back crosses before the injector is armed: the write waits for a swap's end. (DEDUCED, log 130) -/
def execInjctlWrite (die v : Nat) (s : State) : Host.Outcome State Fault Refusal :=
  .next (
    let test := s.hub.img.tests.contains die
    let old := rdReg s (.injctl die)
    let arms := test && bitN v 63
    let w := keepFlds v [(61, 48), (23, 0)] + (if arms then 2 ^ 63 else if test then 0 else fld old 63 63 * 2 ^ 63) + (if arms then 0 else fld old 47 44 * 2 ^ 44)
    let s1 := modDie s die (fun d => { d with stuck := [] })
    if arms && chanBusy s die (fld v 61 56) then s
    else wrReg (if arms then flushChannel s1 die (fld v 61 56) else s1) (.injctl die) w)

end Sys2Proof.Machine
end

