-- ==== Sys2Proof/Machine/Integer.lean ====
section
/-! DEFINITION. The integer words of the lane pipes (R152-R156). -/

namespace Sys2Proof.Machine

open Sys2Proof

/-- `ia.add` (R152), latency 2 (R151). -/
def execIaAdd (d : BitVec 7) (a : BitVec 7) (b : BitVec 7) (s : State) : Host.Outcome State Fault Refusal :=
  .next (laneAB (.iaAdd d a b) 2 (fun a b => a + b) s)

/-- `ia.sub` (R152), latency 2 (R151). -/
def execIaSub (d : BitVec 7) (a : BitVec 7) (b : BitVec 7) (s : State) : Host.Outcome State Fault Refusal :=
  .next (laneAB (.iaSub d a b) 2 (fun a b => a - b) s)

/-- `ia.mul` (R152), latency 4 (R151). -/
def execIaMul (d : BitVec 7) (a : BitVec 7) (b : BitVec 7) (s : State) : Host.Outcome State Fault Refusal :=
  .next (laneAB (.iaMul d a b) 4 (fun a b => a * b) s)

/-- `ia.mulh` (R152), latency 4 (R151). -/
def execIaMulh (d : BitVec 7) (a : BitVec 7) (b : BitVec 7) (s : State) : Host.Outcome State Fault Refusal :=
  .next (laneAB (.iaMulh d a b) 4 mulhS s)

/-- `ia.mulhn` (R152), latency 4 (R151). -/
def execIaMulhn (d : BitVec 7) (a : BitVec 7) (b : BitVec 7) (s : State) : Host.Outcome State Fault Refusal :=
  .next (laneAB (.iaMulhn d a b) 4 mulhU s)

/-- `ia.min` (R152), latency 2 (R151). -/
def execIaMin (d : BitVec 7) (a : BitVec 7) (b : BitVec 7) (s : State) : Host.Outcome State Fault Refusal :=
  .next (laneAB (.iaMin d a b) 2 minS s)

/-- `ia.max` (R152), latency 2 (R151). -/
def execIaMax (d : BitVec 7) (a : BitVec 7) (b : BitVec 7) (s : State) : Host.Outcome State Fault Refusal :=
  .next (laneAB (.iaMax d a b) 2 maxS s)

/-- `ia.minn` (R152), latency 2 (R151). -/
def execIaMinn (d : BitVec 7) (a : BitVec 7) (b : BitVec 7) (s : State) : Host.Outcome State Fault Refusal :=
  .next (laneAB (.iaMinn d a b) 2 minU s)

/-- `ia.maxn` (R152), latency 2 (R151). -/
def execIaMaxn (d : BitVec 7) (a : BitVec 7) (b : BitVec 7) (s : State) : Host.Outcome State Fault Refusal :=
  .next (laneAB (.iaMaxn d a b) 2 maxU s)

/-- `ia.and` (R152), latency 2 (R151). -/
def execIaAnd (d : BitVec 7) (a : BitVec 7) (b : BitVec 7) (s : State) : Host.Outcome State Fault Refusal :=
  .next (laneAB (.iaAnd d a b) 2 (fun a b => a &&& b) s)

/-- `ia.or` (R152), latency 2 (R151). -/
def execIaOr (d : BitVec 7) (a : BitVec 7) (b : BitVec 7) (s : State) : Host.Outcome State Fault Refusal :=
  .next (laneAB (.iaOr d a b) 2 (fun a b => a ||| b) s)

/-- `ia.xor` (R152), latency 2 (R151). -/
def execIaXor (d : BitVec 7) (a : BitVec 7) (b : BitVec 7) (s : State) : Host.Outcome State Fault Refusal :=
  .next (laneAB (.iaXor d a b) 2 (fun a b => a ^^^ b) s)

/-- `ia.shl` (R152), latency 2 (R151). -/
def execIaShl (d : BitVec 7) (a : BitVec 7) (b : BitVec 7) (s : State) : Host.Outcome State Fault Refusal :=
  .next (laneAB (.iaShl d a b) 2 shlW s)

/-- `ia.shr` (R152), latency 2 (R151). -/
def execIaShr (d : BitVec 7) (a : BitVec 7) (b : BitVec 7) (s : State) : Host.Outcome State Fault Refusal :=
  .next (laneAB (.iaShr d a b) 2 shrW s)

/-- `ia.sar` (R152), latency 2 (R151). -/
def execIaSar (d : BitVec 7) (a : BitVec 7) (b : BitVec 7) (s : State) : Host.Outcome State Fault Refusal :=
  .next (laneAB (.iaSar d a b) 2 sarW s)

/-- `ia.rot` (R152), latency 2 (R151). -/
def execIaRot (d : BitVec 7) (a : BitVec 7) (b : BitVec 7) (s : State) : Host.Outcome State Fault Refusal :=
  .next (laneAB (.iaRot d a b) 2 rotW s)

/-- `ic.eq` (R153). -/
def execIcEq (d : BitVec 7) (a : BitVec 7) (b : BitVec 7) (s : State) : Host.Outcome State Fault Refusal :=
  .next (laneAB (.icEq d a b) 2 (fun a b => ofBool (a == b)) s)

/-- `ic.ne` (R153). -/
def execIcNe (d : BitVec 7) (a : BitVec 7) (b : BitVec 7) (s : State) : Host.Outcome State Fault Refusal :=
  .next (laneAB (.icNe d a b) 2 (fun a b => ofBool (a != b)) s)

/-- `ic.lt` (R153). -/
def execIcLt (d : BitVec 7) (a : BitVec 7) (b : BitVec 7) (s : State) : Host.Outcome State Fault Refusal :=
  .next (laneAB (.icLt d a b) 2 (fun a b => ofBool (decide (a.toInt < b.toInt))) s)

/-- `ic.le` (R153). -/
def execIcLe (d : BitVec 7) (a : BitVec 7) (b : BitVec 7) (s : State) : Host.Outcome State Fault Refusal :=
  .next (laneAB (.icLe d a b) 2 (fun a b => ofBool (decide (a.toInt ≤ b.toInt))) s)

/-- `ic.ltn` (R153). -/
def execIcLtn (d : BitVec 7) (a : BitVec 7) (b : BitVec 7) (s : State) : Host.Outcome State Fault Refusal :=
  .next (laneAB (.icLtn d a b) 2 (fun a b => ofBool (decide (a.toNat < b.toNat))) s)

/-- `ic.len` (R153). -/
def execIcLen (d : BitVec 7) (a : BitVec 7) (b : BitVec 7) (s : State) : Host.Outcome State Fault Refusal :=
  .next (laneAB (.icLen d a b) 2 (fun a b => ofBool (decide (a.toNat ≤ b.toNat))) s)

/-- `iai` (R154): A plus the sign-extended immediate. -/
def execIai (d : BitVec 7) (a : BitVec 7) (imm : BitVec 11) (s : State) : Host.Outcome State Fault Refusal :=
  .next (laneA (.iai d a imm) 2 (fun a => a + imm.signExtend 32) s)

/-- `ish.shl` (R155): the `ia` word with a literal amount. -/
def execIshShl (d : BitVec 7) (a : BitVec 7) (b : BitVec 7) (s : State) : Host.Outcome State Fault Refusal :=
  .next (laneA (.ishShl d a b) 2 (fun a => shlW a (b.zeroExtend 32)) s)

/-- `ish.shr` (R155): the `ia` word with a literal amount. -/
def execIshShr (d : BitVec 7) (a : BitVec 7) (b : BitVec 7) (s : State) : Host.Outcome State Fault Refusal :=
  .next (laneA (.ishShr d a b) 2 (fun a => shrW a (b.zeroExtend 32)) s)

/-- `ish.sar` (R155): the `ia` word with a literal amount. -/
def execIshSar (d : BitVec 7) (a : BitVec 7) (b : BitVec 7) (s : State) : Host.Outcome State Fault Refusal :=
  .next (laneA (.ishSar d a b) 2 (fun a => sarW a (b.zeroExtend 32)) s)

/-- `ish.rot` (R155): the `ia` word with a literal amount. -/
def execIshRot (d : BitVec 7) (a : BitVec 7) (b : BitVec 7) (s : State) : Host.Outcome State Fault Refusal :=
  .next (laneA (.ishRot d a b) 2 (fun a => rotW a (b.zeroExtend 32)) s)

/-- `lim` (R156). -/
def execLim (d : BitVec 7) (imm : BitVec 18) (s : State) : Host.Outcome State Fault Refusal :=
  .next (laneA (.lim d imm) 2 (fun _ => imm.signExtend 32) s)

/-- `lih` (R156): the destination is read for bits [13:0]. -/
def execLih (d : BitVec 7) (imm : BitVec 18) (s : State) : Host.Outcome State Fault Refusal :=
  .next (laneDAB (.lih d imm) 2 (fun _ _ d _ _ => lihW d imm) s)

end Sys2Proof.Machine
end

