-- ==== Sys2Proof/Machine/PermLane.lean ====
section
/-! DEFINITION. The lane-permutation words (R229, R230). -/

namespace Sys2Proof.Machine

open Sys2Proof

/-- The permutation register of a `pl` word (R229). -/
def plReg (x : Group) (b : BitVec 4) : List Word := (entryOf x .perm b.toNat 0).words

/-- The conditions that the register's contents decide (R294): ROUTE 3 a size other than the width, ROUTE 4 a bad saved
form. -/
def plConds (b : BitVec 4) (x : Group) (_ : Nat) : List (Nat × Nat) :=
  (if permSize (plReg x b) ≠ x.width then [(0x24, 3)] else []) ++ (if permOk (plReg x b) then [] else [(0x24, 4)])

/-- A `pl` word (R229): each present thread receives a function of the map, X and its index. -/
def plWord (i : Instr) (b : BitVec 4) (f : List Nat → List Word → Nat → Word) (s : State) : State :=
  laneWord i (plConds b) addrWord
    (writeResult i (xlLat s) (fun s x ok t => [f (permMap (plReg x b)) (xlVals s i x ok) t])) s

/-- `pl.apply` (R230). -/
def execPlApply (d : BitVec 7) (a : BitVec 7) (b : BitVec 4) (s : State) : Host.Outcome State Fault Refusal :=
  .next (plWord (.plApply d a b) b (fun m l t => xAt l (pAt m t)) s)

/-- `pl.applyi` (R230). -/
def execPlApplyi (d : BitVec 7) (a : BitVec 7) (b : BitVec 4) (s : State) : Host.Outcome State Fault Refusal :=
  .next (plWord (.plApplyi d a b) b (fun m l t => xAt l (pInv m t)) s)

/-- `pl.idx` (R230). -/
def execPlIdx (d : BitVec 7) (b : BitVec 4) (s : State) : Host.Outcome State Fault Refusal :=
  .next (plWord (.plIdx d b) b (fun m _ t => BitVec.ofNat 32 (pAt m t)) s)

/-- `pl.pos` (R230). -/
def execPlPos (d : BitVec 7) (b : BitVec 4) (s : State) : Host.Outcome State Fault Refusal :=
  .next (plWord (.plPos d b) b (fun m _ t => BitVec.ofNat 32 (pInv m t)) s)

/-- `pl.cyclen` (R230). -/
def execPlCyclen (d : BitVec 7) (b : BitVec 4) (s : State) : Host.Outcome State Fault Refusal :=
  .next (plWord (.plCyclen d b) b (fun m _ t => BitVec.ofNat 32 (cycleOf m t).length) s)

/-- `pl.cycmin` (R230). -/
def execPlCycmin (d : BitVec 7) (b : BitVec 4) (s : State) : Host.Outcome State Fault Refusal :=
  .next (plWord (.plCycmin d b) b (fun m _ t => BitVec.ofNat 32 ((minOf (cycleOf m t)).getD 0)) s)

end Sys2Proof.Machine
end

