-- ==== Sys2Proof/Machine/Dispatch.lean ====
section
/-! DEFINITION. The dispatch: one arm for each instruction word and each step of another agent, each a direct call of its
meaning. -/

namespace Sys2Proof.Machine

open Sys2Proof

/-- The meaning of every instruction. -/
def exec (i : Instr) (s : State) : Host.Outcome State Fault Refusal :=
  match i with
  | .iaAdd d a b => Sys2Proof.Machine.execIaAdd d a b s
  | .iaSub d a b => Sys2Proof.Machine.execIaSub d a b s
  | .iaMul d a b => Sys2Proof.Machine.execIaMul d a b s
  | .iaMulh d a b => Sys2Proof.Machine.execIaMulh d a b s
  | .iaMulhn d a b => Sys2Proof.Machine.execIaMulhn d a b s
  | .iaMin d a b => Sys2Proof.Machine.execIaMin d a b s
  | .iaMax d a b => Sys2Proof.Machine.execIaMax d a b s
  | .iaMinn d a b => Sys2Proof.Machine.execIaMinn d a b s
  | .iaMaxn d a b => Sys2Proof.Machine.execIaMaxn d a b s
  | .iaAnd d a b => Sys2Proof.Machine.execIaAnd d a b s
  | .iaOr d a b => Sys2Proof.Machine.execIaOr d a b s
  | .iaXor d a b => Sys2Proof.Machine.execIaXor d a b s
  | .iaShl d a b => Sys2Proof.Machine.execIaShl d a b s
  | .iaShr d a b => Sys2Proof.Machine.execIaShr d a b s
  | .iaSar d a b => Sys2Proof.Machine.execIaSar d a b s
  | .iaRot d a b => Sys2Proof.Machine.execIaRot d a b s
  | .icEq d a b => Sys2Proof.Machine.execIcEq d a b s
  | .icNe d a b => Sys2Proof.Machine.execIcNe d a b s
  | .icLt d a b => Sys2Proof.Machine.execIcLt d a b s
  | .icLe d a b => Sys2Proof.Machine.execIcLe d a b s
  | .icLtn d a b => Sys2Proof.Machine.execIcLtn d a b s
  | .icLen d a b => Sys2Proof.Machine.execIcLen d a b s
  | .iai d a imm => Sys2Proof.Machine.execIai d a imm s
  | .ishShl d a b => Sys2Proof.Machine.execIshShl d a b s
  | .ishShr d a b => Sys2Proof.Machine.execIshShr d a b s
  | .ishSar d a b => Sys2Proof.Machine.execIshSar d a b s
  | .ishRot d a b => Sys2Proof.Machine.execIshRot d a b s
  | .lim d imm => Sys2Proof.Machine.execLim d imm s
  | .lih d imm => Sys2Proof.Machine.execLih d imm s
  | .faAdd d a b => Sys2Proof.Machine.execFaAdd d a b s
  | .faSub d a b => Sys2Proof.Machine.execFaSub d a b s
  | .faMul d a b => Sys2Proof.Machine.execFaMul d a b s
  | .faFma d a b => Sys2Proof.Machine.execFaFma d a b s
  | .faFms d a b => Sys2Proof.Machine.execFaFms d a b s
  | .faMin d a b => Sys2Proof.Machine.execFaMin d a b s
  | .faMax d a b => Sys2Proof.Machine.execFaMax d a b s
  | .faAbs d a => Sys2Proof.Machine.execFaAbs d a s
  | .faNeg d a => Sys2Proof.Machine.execFaNeg d a s
  | .faEq d a b => Sys2Proof.Machine.execFaEq d a b s
  | .faLt d a b => Sys2Proof.Machine.execFaLt d a b s
  | .faLe d a b => Sys2Proof.Machine.execFaLe d a b s
  | .fhHadd d a b => Sys2Proof.Machine.execFhHadd d a b s
  | .fhHmul d a b => Sys2Proof.Machine.execFhHmul d a b s
  | .fhHfma d a b => Sys2Proof.Machine.execFhHfma d a b s
  | .fhHmin d a b => Sys2Proof.Machine.execFhHmin d a b s
  | .fhHmax d a b => Sys2Proof.Machine.execFhHmax d a b s
  | .fhBadd d a b => Sys2Proof.Machine.execFhBadd d a b s
  | .fhBmul d a b => Sys2Proof.Machine.execFhBmul d a b s
  | .fhBfma d a b => Sys2Proof.Machine.execFhBfma d a b s
  | .fhBmin d a b => Sys2Proof.Machine.execFhBmin d a b s
  | .fhBmax d a b => Sys2Proof.Machine.execFhBmax d a b s
  | .fcF32i d a => Sys2Proof.Machine.execFcF32i d a s
  | .fcF32n d a => Sys2Proof.Machine.execFcF32n d a s
  | .fcIf32 d a => Sys2Proof.Machine.execFcIf32 d a s
  | .fcNf32 d a => Sys2Proof.Machine.execFcNf32 d a s
  | .fcH16f32 d a b => Sys2Proof.Machine.execFcH16f32 d a b s
  | .fcF32h16 d a b => Sys2Proof.Machine.execFcF32h16 d a b s
  | .fcBf16f32 d a b => Sys2Proof.Machine.execFcBf16f32 d a b s
  | .fcF32bf16 d a b => Sys2Proof.Machine.execFcF32bf16 d a b s
  | .fcLt8f32 d a b => Sys2Proof.Machine.execFcLt8f32 d a b s
  | .fcF32lt8 d a b => Sys2Proof.Machine.execFcF32lt8 d a b s
  | .fxRcp d a => Sys2Proof.Machine.execFxRcp d a s
  | .fxRsqrt d a => Sys2Proof.Machine.execFxRsqrt d a s
  | .fxSqrt d a => Sys2Proof.Machine.execFxSqrt d a s
  | .fxExp2 d a => Sys2Proof.Machine.execFxExp2 d a s
  | .fxLog2 d a => Sys2Proof.Machine.execFxLog2 d a s
  | .fxSinpi d a => Sys2Proof.Machine.execFxSinpi d a s
  | .fxCospi d a => Sys2Proof.Machine.execFxCospi d a s
  | .fxTanh d a => Sys2Proof.Machine.execFxTanh d a s
  | .fxCeil d a => Sys2Proof.Machine.execFxCeil d a s
  | .fxFloor d a => Sys2Proof.Machine.execFxFloor d a s
  | .fxXexp d a => Sys2Proof.Machine.execFxXexp d a s
  | .fxLdexp d a b => Sys2Proof.Machine.execFxLdexp d a b s
  | .xlShfl d a b => Sys2Proof.Machine.execXlShfl d a b s
  | .xlShflx d a b => Sys2Proof.Machine.execXlShflx d a b s
  | .xlAny d a => Sys2Proof.Machine.execXlAny d a s
  | .xlAll d a => Sys2Proof.Machine.execXlAll d a s
  | .xlBallotl d a => Sys2Proof.Machine.execXlBallotl d a s
  | .xlBallh d a => Sys2Proof.Machine.execXlBallh d a s
  | .xlScan d a => Sys2Proof.Machine.execXlScan d a s
  | .xlRed d a => Sys2Proof.Machine.execXlRed d a s
  | .xlRedmax d a => Sys2Proof.Machine.execXlRedmax d a s
  | .xlFred d a => Sys2Proof.Machine.execXlFred d a s
  | .xlFredmax d a => Sys2Proof.Machine.execXlFredmax d a s
  | .xlMatch d a => Sys2Proof.Machine.execXlMatch d a s
  | .xlPopc d a => Sys2Proof.Machine.execXlPopc d a s
  | .brz a off => Sys2Proof.Machine.execBrz a off s
  | .brnz a off => Sys2Proof.Machine.execBrnz a off s
  | .jmp off => Sys2Proof.Machine.execJmp off s
  | .jmpLink a off => Sys2Proof.Machine.execJmpLink a off s
  | .ctlJr a => Sys2Proof.Machine.execCtlJr a s
  | .ctlExit => Sys2Proof.Machine.execCtlExit s
  | .ldN8 d a off => Sys2Proof.Machine.execLdN8 d a off s
  | .ldI8 d a off => Sys2Proof.Machine.execLdI8 d a off s
  | .ldN16 d a off => Sys2Proof.Machine.execLdN16 d a off s
  | .ldI16 d a off => Sys2Proof.Machine.execLdI16 d a off s
  | .ldB32 d a off => Sys2Proof.Machine.execLdB32 d a off s
  | .ldB64 d a off => Sys2Proof.Machine.execLdB64 d a off s
  | .ldB128 d a off => Sys2Proof.Machine.execLdB128 d a off s
  | .stB8 d a off => Sys2Proof.Machine.execStB8 d a off s
  | .stB16 d a off => Sys2Proof.Machine.execStB16 d a off s
  | .stB32 d a off => Sys2Proof.Machine.execStB32 d a off s
  | .stB64 d a off => Sys2Proof.Machine.execStB64 d a off s
  | .stB128 d a off => Sys2Proof.Machine.execStB128 d a off s
  | .atAdd d a b => Sys2Proof.Machine.execAtAdd d a b s
  | .atMin d a b => Sys2Proof.Machine.execAtMin d a b s
  | .atMax d a b => Sys2Proof.Machine.execAtMax d a b s
  | .atMinn d a b => Sys2Proof.Machine.execAtMinn d a b s
  | .atMaxn d a b => Sys2Proof.Machine.execAtMaxn d a b s
  | .atAnd d a b => Sys2Proof.Machine.execAtAnd d a b s
  | .atOr d a b => Sys2Proof.Machine.execAtOr d a b s
  | .atXor d a b => Sys2Proof.Machine.execAtXor d a b s
  | .atXchg d a b => Sys2Proof.Machine.execAtXchg d a b s
  | .atCas d a b => Sys2Proof.Machine.execAtCas d a b s
  | .atFadd d a b => Sys2Proof.Machine.execAtFadd d a b s
  | .sel d a b => Sys2Proof.Machine.execSel d a b s
  | .sr d b => Sys2Proof.Machine.execSr d b s
  | .ixRd d a b => Sys2Proof.Machine.execIxRd d a b s
  | .ixWr d a b => Sys2Proof.Machine.execIxWr d a b s
  | .plApply d a b => Sys2Proof.Machine.execPlApply d a b s
  | .plApplyi d a b => Sys2Proof.Machine.execPlApplyi d a b s
  | .plIdx d b => Sys2Proof.Machine.execPlIdx d b s
  | .plPos d b => Sys2Proof.Machine.execPlPos d b s
  | .plCyclen d b => Sys2Proof.Machine.execPlCyclen d b s
  | .plCycmin d b => Sys2Proof.Machine.execPlCycmin d b s
  | .mxMma d a b => Sys2Proof.Machine.execMxMma d a b s
  | .mxMmag d a b => Sys2Proof.Machine.execMxMmag d a b s
  | .mxMcv d a b => Sys2Proof.Machine.execMxMcv d a b s
  | .mxZero d => Sys2Proof.Machine.execMxZero d s
  | .mxGet d a b => Sys2Proof.Machine.execMxGet d a b s
  | .mxPut d a b => Sys2Proof.Machine.execMxPut d a b s
  | .mxSto d a => Sys2Proof.Machine.execMxSto d a s
  | .mxRmax d a => Sys2Proof.Machine.execMxRmax d a s
  | .mxRscale d a => Sys2Proof.Machine.execMxRscale d a s
  | .sysNop => Sys2Proof.Machine.execSysNop s
  | .sysBrk b => Sys2Proof.Machine.execSysBrk b s
  | .sysTrap b => Sys2Proof.Machine.execSysTrap b s
  | .spar cc dx ax bx ta tb q o => Sys2Proof.Machine.execSpar cc dx ax bx ta tb q o s
  | .uaAdd d a b => Sys2Proof.Machine.execUaAdd d a b s
  | .uaSub d a b => Sys2Proof.Machine.execUaSub d a b s
  | .uaMul d a b => Sys2Proof.Machine.execUaMul d a b s
  | .uaAnd d a b => Sys2Proof.Machine.execUaAnd d a b s
  | .uaOr d a b => Sys2Proof.Machine.execUaOr d a b s
  | .uaXor d a b => Sys2Proof.Machine.execUaXor d a b s
  | .uaShl d a b => Sys2Proof.Machine.execUaShl d a b s
  | .uaShr d a b => Sys2Proof.Machine.execUaShr d a b s
  | .uaMin d a b => Sys2Proof.Machine.execUaMin d a b s
  | .uaMax d a b => Sys2Proof.Machine.execUaMax d a b s
  | .uaMinn d a b => Sys2Proof.Machine.execUaMinn d a b s
  | .uaMaxn d a b => Sys2Proof.Machine.execUaMaxn d a b s
  | .ucEq d a b => Sys2Proof.Machine.execUcEq d a b s
  | .ucNe d a b => Sys2Proof.Machine.execUcNe d a b s
  | .ucLt d a b => Sys2Proof.Machine.execUcLt d a b s
  | .ucLtn d a b => Sys2Proof.Machine.execUcLtn d a b s
  | .uai d a imm => Sys2Proof.Machine.execUai d a imm s
  | .ulim d imm => Sys2Proof.Machine.execUlim d imm s
  | .ulih d imm => Sys2Proof.Machine.execUlih d imm s
  | .ubrz a off => Sys2Proof.Machine.execUbrz a off s
  | .ubrnz a off => Sys2Proof.Machine.execUbrnz a off s
  | .syncBar d => Sys2Proof.Machine.execSyncBar d s
  | .syncArr d => Sys2Proof.Machine.execSyncArr d s
  | .syncWt d => Sys2Proof.Machine.execSyncWt d s
  | .syncOc d a => Sys2Proof.Machine.execSyncOc d a s
  | .syncFence d a => Sys2Proof.Machine.execSyncFence d a s
  | .syncMwait a b => Sys2Proof.Machine.execSyncMwait a b s
  | .syncTrig => Sys2Proof.Machine.execSyncTrig s
  | .syncDwait => Sys2Proof.Machine.execSyncDwait s
  | .engCopy d a => Sys2Proof.Machine.execEngCopy d a s
  | .engQuant a => Sys2Proof.Machine.execEngQuant a s
  | .engPut a => Sys2Proof.Machine.execEngPut a s
  | .engGet a => Sys2Proof.Machine.execEngGet a s
  | .pmLoad d a => Sys2Proof.Machine.execPmLoad d a s
  | .pmIdent d a => Sys2Proof.Machine.execPmIdent d a s
  | .pmComp d a b => Sys2Proof.Machine.execPmComp d a b s
  | .pmInv d a => Sys2Proof.Machine.execPmInv d a s
  | .pmRand d a b => Sys2Proof.Machine.execPmRand d a b s
  | .pmCyc d a => Sys2Proof.Machine.execPmCyc d a s
  | .pmSave d a => Sys2Proof.Machine.execPmSave d a s
  | .pmRest d a => Sys2Proof.Machine.execPmRest d a s
  | .obRsv d a => Sys2Proof.Machine.execObRsv d a s
  | .obRel a => Sys2Proof.Machine.execObRel a s
  | .obRec a => Sys2Proof.Machine.execObRec a s
  | .modeRd d => Sys2Proof.Machine.execModeRd d s
  | .modeWr a => Sys2Proof.Machine.execModeWr a s
  | .gateCall a => Sys2Proof.Machine.execGateCall a s
  | .gateRet => Sys2Proof.Machine.execGateRet s
  | .ctrRd d a => Sys2Proof.Machine.execCtrRd d a s
  | .ctrMark a => Sys2Proof.Machine.execCtrMark a s
  | .uldB32 d a off => Sys2Proof.Machine.execUldB32 d a off s
  | .uldB64 d a off => Sys2Proof.Machine.execUldB64 d a off s
  | .ustB32 d a off => Sys2Proof.Machine.execUstB32 d a off s
  | .qportSubmit pasid offset bytes => Sys2Proof.Machine.execQportSubmit pasid offset bytes s
  | .qportUnsupportedDmwr pasid offset size => Sys2Proof.Machine.execQportUnsupportedDmwr pasid offset size s
  | .qportMemoryWrite pasid => Sys2Proof.Machine.execQportMemoryWrite pasid s
  | .qportMemoryRead pasid => Sys2Proof.Machine.execQportMemoryRead pasid s
  | .processLaunch => Sys2Proof.Machine.execProcessLaunch s
  | .processGraphNode => Sys2Proof.Machine.execProcessGraphNode s
  | .processPhaseStep => Sys2Proof.Machine.execProcessPhaseStep s
  | .controlClose => Sys2Proof.Machine.execControlClose s
  | .controlCancel => Sys2Proof.Machine.execControlCancel s
  | .dispatchTurn => Sys2Proof.Machine.execDispatchTurn s
  | .unitComplete uid => Sys2Proof.Machine.execUnitComplete uid s
  | .launchTriggered dom lid => Sys2Proof.Machine.execLaunchTriggered dom lid s
  | .mboxVersion => Sys2Proof.Machine.execMboxVersion s
  | .mboxAttestation busy => Sys2Proof.Machine.execMboxAttestation busy s
  | .attestationReportWritten => Sys2Proof.Machine.execAttestationReportWritten s
  | .mboxDebugAccess allowed => Sys2Proof.Machine.execMboxDebugAccess allowed s
  | .mboxRejectLog => Sys2Proof.Machine.execMboxRejectLog s
  | .mboxUnknownType => Sys2Proof.Machine.execMboxUnknownType s
  | .powerOn img codes => Sys2Proof.Machine.execPowerOn img codes s
  | .packageReset img codes => Sys2Proof.Machine.execPackageReset img codes s
  | .sidebandStatus die => Sys2Proof.Machine.execSidebandStatus die s
  | .domtabRun core slot v => Sys2Proof.Machine.execDomtabRun core slot v s
  | .domtabHalt core slot => Sys2Proof.Machine.execDomtabHalt core slot s
  | .haltComplete core slot => Sys2Proof.Machine.execHaltComplete core slot s
  | .domtabResume core slot => Sys2Proof.Machine.execDomtabResume core slot s
  | .domtabEmpty core slot => Sys2Proof.Machine.execDomtabEmpty core slot s
  | .dpartWrite core slot v => Sys2Proof.Machine.execDpartWrite core slot v s
  | .rebindWriteOut uid g => Sys2Proof.Machine.execRebindWriteOut uid g s
  | .rebindPauseEnd uid g => Sys2Proof.Machine.execRebindPauseEnd uid g s
  | .tlbInvalidate die v => Sys2Proof.Machine.execTlbInvalidate die v s
  | .tlbInvalidateDone die => Sys2Proof.Machine.execTlbInvalidateDone die s
  | .flashWrite link v => Sys2Proof.Machine.execFlashWrite link v s
  | .linkDrained link => Sys2Proof.Machine.execLinkDrained link s
  | .dvfsRequest die cl v => Sys2Proof.Machine.execDvfsRequest die cl v s
  | .dvfsDone die cl => Sys2Proof.Machine.execDvfsDone die cl s
  | .sringWrite core slot v => Sys2Proof.Machine.execSringWrite core slot v s
  | .sampctlWrite core v => Sys2Proof.Machine.execSampctlWrite core v s
  | .ctrselWrite core part n v => Sys2Proof.Machine.execCtrselWrite core part n v s
  | .thermWrite die v => Sys2Proof.Machine.execThermWrite die v s
  | .watchWrite die n v => Sys2Proof.Machine.execWatchWrite die n v s
  | .dbgResume core slot v => Sys2Proof.Machine.execDbgResume core slot v s
  | .dbgStep core slot v => Sys2Proof.Machine.execDbgStep core slot v s
  | .dbgStop core slot v => Sys2Proof.Machine.execDbgStop core slot v s
  | .dbgStepEnd uid g => Sys2Proof.Machine.execDbgStepEnd uid g s
  | .dbgQuery core v => Sys2Proof.Machine.execDbgQuery core v s
  | .hbmlogWrite die v => Sys2Proof.Machine.execHbmlogWrite die v s
  | .lswapWrite die ch v => Sys2Proof.Machine.execLswapWrite die ch v s
  | .injseedWrite die v => Sys2Proof.Machine.execInjseedWrite die v s
  | .injctlWrite die v => Sys2Proof.Machine.execInjctlWrite die v s
  | .bindstatRead core slot => Sys2Proof.Machine.execBindstatRead core slot s
  | .registerWrite r v => Sys2Proof.Machine.execRegisterWrite r v s
  | .pcSample core part => Sys2Proof.Machine.execPcSample core part s
  | .ringWrAdvance core slot => Sys2Proof.Machine.execRingWrAdvance core slot s
  | .memoryRequestSample core req => Sys2Proof.Machine.execMemoryRequestSample core req s
  | .thermalSample die junction hbmTemps => Sys2Proof.Machine.execThermalSample die junction hbmTemps s
  | .thermalHold die cl => Sys2Proof.Machine.execThermalHold die cl s
  | .thermalHoldRelease die cl => Sys2Proof.Machine.execThermalHoldRelease die cl s
  | .orderedTrip die => Sys2Proof.Machine.execOrderedTrip die s
  | .storeToPool uid g t id => Sys2Proof.Machine.execStoreToPool uid g t id s
  | .loadSatisfy uid g t id choices => Sys2Proof.Machine.execLoadSatisfy uid g t id choices s
  | .poolToPath core id => Sys2Proof.Machine.execPoolToPath core id s
  | .performAtHome core id => Sys2Proof.Machine.execPerformAtHome core id s
  | .fenceRemove uid g t id => Sys2Proof.Machine.execFenceRemove uid g t id s
  | .lineRequest core part => Sys2Proof.Machine.execLineRequest core part s
  | .translationWalk core asid va => Sys2Proof.Machine.execTranslationWalk core asid va s
  | .loadComplete core set => Sys2Proof.Machine.execLoadComplete core set s
  | .resultWrite core id => Sys2Proof.Machine.execResultWrite core id s
  | .watchHitReport id => Sys2Proof.Machine.execWatchHitReport id s
  | .barrierArrival uid g bar => Sys2Proof.Machine.execBarrierArrival uid g bar s
  | .groupTriggered uid g => Sys2Proof.Machine.execGroupTriggered uid g s
  | .dwaitRelease uid g => Sys2Proof.Machine.execDwaitRelease uid g s
  | .mwaitWake uid g => Sys2Proof.Machine.execMwaitWake uid g s
  | .mwaitTimeout uid g => Sys2Proof.Machine.execMwaitTimeout uid g s
  | .ocWaitRelease uid g => Sys2Proof.Machine.execOcWaitRelease uid g s
  | .obReleaseFree uid g => Sys2Proof.Machine.execObReleaseFree uid g s
  | .obRecordReplace uid g => Sys2Proof.Machine.execObRecordReplace uid g s
  | .gateCallEntry uid g => Sys2Proof.Machine.execGateCallEntry uid g s
  | .gateReturn uid g => Sys2Proof.Machine.execGateReturn uid g s
  | .chainStart core ch => Sys2Proof.Machine.execChainStart core ch s
  | .movePlain core ch => Sys2Proof.Machine.execMovePlain core ch s
  | .movePermute core ch => Sys2Proof.Machine.execMovePermute core ch s
  | .moveTransposeRequantise core ch => Sys2Proof.Machine.execMoveTransposeRequantise core ch s
  | .moveQuantise core ch => Sys2Proof.Machine.execMoveQuantise core ch s
  | .loopEntry core ch => Sys2Proof.Machine.execLoopEntry core ch s
  | .skipEntry core ch => Sys2Proof.Machine.execSkipEntry core ch s
  | .skipWaitSatisfied core ch => Sys2Proof.Machine.execSkipWaitSatisfied core ch s
  | .skipWaitLimit core ch => Sys2Proof.Machine.execSkipWaitLimit core ch s
  | .signalArrive core ch => Sys2Proof.Machine.execSignalArrive core ch s
  | .signalAdvance core ch => Sys2Proof.Machine.execSignalAdvance core ch s
  | .endEntry core ch => Sys2Proof.Machine.execEndEntry core ch s
  | .chainFinish core ch => Sys2Proof.Machine.execChainFinish core ch s
  | .eqRetire uid g cls => Sys2Proof.Machine.execEqRetire uid g cls s
  | .windowPut uid g => Sys2Proof.Machine.execWindowPut uid g s
  | .putArrivedAdvance uid g => Sys2Proof.Machine.execPutArrivedAdvance uid g s
  | .putAckedAdvance uid g => Sys2Proof.Machine.execPutAckedAdvance uid g s
  | .windowGet uid g => Sys2Proof.Machine.execWindowGet uid g s
  | .mxStart core part => Sys2Proof.Machine.execMxStart core part s
  | .mxDone core part => Sys2Proof.Machine.execMxDone core part s
  | .solverStart core => Sys2Proof.Machine.execSolverStart core s
  | .solverDone core => Sys2Proof.Machine.execSolverDone core s
  | .pmSavePerformed uid g => Sys2Proof.Machine.execPmSavePerformed uid g s
  | .spillFill uid g cls num => Sys2Proof.Machine.execSpillFill uid g cls num s
  | .spillWriteThrough uid g cls num => Sys2Proof.Machine.execSpillWriteThrough uid g cls num s
  | .trapFrameWrite uid g => Sys2Proof.Machine.execTrapFrameWrite uid g s
  | .handlerEntry uid g => Sys2Proof.Machine.execHandlerEntry uid g s
  | .heldTrapTaken uid g => Sys2Proof.Machine.execHeldTrapTaken uid g s
  | .stopBroadcastArrival uid g => Sys2Proof.Machine.execStopBroadcastArrival uid g s
  | .fatalUnitEnd uid => Sys2Proof.Machine.execFatalUnitEnd uid s
  | .finalCommit uid => Sys2Proof.Machine.execFinalCommit uid s
  | .rollbackReplay uid => Sys2Proof.Machine.execRollbackReplay uid s
  | .rollbackResume uid => Sys2Proof.Machine.execRollbackResume uid s
  | .hbmTransfer die sector write => Sys2Proof.Machine.execHbmTransfer die sector write s
  | .parityRetry die ch => Sys2Proof.Machine.execParityRetry die ch s
  | .laneSwapDone die ch => Sys2Proof.Machine.execLaneSwapDone die ch s
  | .illegalWord w => Sys2Proof.Machine.execIllegalWord w s
  | .mxStoRowsPerformed uid g => Sys2Proof.Machine.execMxStoRowsPerformed uid g s
  | .getBytesPerformed uid g => Sys2Proof.Machine.execGetBytesPerformed uid g s
  | .remWindowAccess acc => Sys2Proof.Machine.execRemWindowAccess acc s

end Sys2Proof.Machine
end

