-- ==== Sys2Proof/Machine/Schedule.lean ====
section
/-! DEFINITION. What one step does: an issue of a partition's picks (R34-R45, R344), a core clock (R259, R270), time (R260),
a step of another agent; and a machine that fetches one given instruction next. -/

namespace Sys2Proof.Machine

open Sys2Proof

/-- The outcome of a step of State. -/
abbrev Out := Host.Outcome State Fault Refusal

/-- Goes on from a next state. -/
def andThen (o : Out) (f : State → Out) : Out :=
  match o with
  | .next s => f s
  | .fault e => .fault e
  | .refused e => .refused e

/-- The breakpoint of a group's slot at a program counter (R344). -/
def breakAt (s : State) (x : Group) (pc : Nat) : Option Nat :=
  if !dbgEnabled s x then none
  else (List.range 4).find? (fun n =>
    let v := rdReg s (.brk x.core x.slot n)
    bitN v 63 && fld v 55 2 == fld pc 55 2)

/-- A candidate's threads that still stand at its word and may issue; a queue that the picks before it, or the groups of the set
before its own, have filled takes no further entry (R190, R212, R221). -/
def stillThere (s : State) (c : Cand) : List (Nat × List Nat) :=
  c.sets.foldl (fun acc gt => match unitOf s c.uid, groupOf s c.uid gt.1 with
    | some u, some x =>
      let ts := gt.2.filter (fun t => (threadOf x t).any (fun h => h.off == c.off && mayIssue s u x h))
      if ts.isEmpty || (nextWord s x c.off).instr.any (fun i => queueHeld s x i acc.length) then acc else acc ++ [(gt.1, ts)]
    | _, _ => acc) []

/-- The breakpoint that stops a group of the set, with the threads it stops: those that issue the word once after a resume
do not match (R344, R355); a unit in checked mode does not stop (R347). -/
def breakOf (s : State) (uid pc : Nat) (gt : Nat × List Nat) : Option (Nat × List Nat) :=
  match unitOf s uid, groupOf s uid gt.1 with
  | some u, some x => match breakAt s x pc with
    | none => none
    | some n =>
      let ts := gt.2.filter (fun t => !x.dbg.skip.contains (t, pc))
      if u.chk || ts.isEmpty then none else some (n, ts)
  | _, _ => none

/-- The threads of a set that a breakpoint does not stop. -/
def passing (s : State) (uid pc : Nat) (gt : Nat × List Nat) : Option (Nat × List Nat) :=
  match breakOf s uid pc gt with
  | none => some gt
  | some h =>
    let ts := gt.2.filter (fun t => !h.2.contains t)
    if ts.isEmpty then none else some (gt.1, ts)

/-- The groups of a set that hit a breakpoint stop (R348). -/
def hitBreaks (c : Cand) (n : NextWord) (sets : List (Nat × List Nat)) (s : State) : State :=
  sets.foldl (fun s gt => match breakOf s c.uid c.pc gt, groupOf s c.uid gt.1 with
    | some h, some x => hitGroup s c.uid gt.1 (debugCond s x (c.off / 4) n.sparw n.word 0 h.2 h.2 false n.group) 1 h.1 none
    | _, _ => s) s

/-- The issuing threads' leave to pass the breakpoint of their word once is used up (R355). -/
def useSkips (uid pc : Nat) (sets : List (Nat × List Nat)) (s : State) : State :=
  sets.foldl (fun s gt => modGroup s uid gt.1 (fun x =>
    if x.dbg.skip.isEmpty then x else { x with dbg := { x.dbg with skip := x.dbg.skip.filter (fun k => !(k.2 == pc && gt.2.contains k.1)) } })) s

/-- The issue in progress: the offset of the word that the frames of CTRL 3 name is the kernel's last (R300), that of a word that
could not be fetched its own (R373). -/
def latch (core part : Nat) (c : Cand) (n : NextWord) (k : Kernel) (sets : List (Nat × List Nat)) (s : State) : State :=
  { s with iss :=
    { core := core, part := part, uid := c.uid
      off := if n.cond == some (0x05, 3) then 4 * k.nwords - (if n.sparw = 0 then 4 else 8)
        else if n.fetch then n.addr - entryVa k else c.off
      spar := if fld n.sparw.toNat 1 0 = 0 then noSpar else n.spar
      sparw := if n.cond.isSome || fld n.sparw.toNat 1 0 != 0 then n.sparw else 0, word := n.word, sets := sets, clk := clkOf s core } }

/-- What an issue counts (R271): sets, threads, cross-lane words; each thread keeps the clock in which it issues, the second half of a
width-64 set the second, in which it is counted (R37, R266). -/
def countIssue (core part dom : Nat) (c : Cand) (n : NextWord) (sets : List (Nat × List Nat)) (s : State) : State :=
  let threads := sumOf (sets.map (fun gt => (gt.2.filter (fun t => !c.wide || decide (t < 32))).length))
  let s0 := if c.wide then modPart s core part (fun p => { p with wide := p.wide.map (fun w => { w with sets := sets }) }) else s
  let s1 := if !counting s core part then s0 else
    countEvent (countEvent (countEvent s0 core part dom 2 1) core part dom 3 threads) core part dom 10 (if n.ports.contains 3 then 1 else 0)
  sets.foldl (fun s gt => modGroup s c.uid gt.1 (fun x => modThreads x gt.2 (fun h =>
    { h with last := some (clkOf s core + (if c.wide && decide (32 ≤ h.tid) then 1 else 0), c.pc, 0) }))) s1

/-- A group-set word that its group has executed, not trapped on, is counted (R271). -/
def countGroupWord (core part dom : Nat) (c : Cand) (s : State) : State :=
  if c.group && c.sets.all (fun gt => (groupOf s c.uid gt.1).any (fun x => gt.2.all (fun t => (threadOf x t).any (fun h => h.cond.isNone))))
  then countEvent s core part dom 4 1 else s

/-- The threads of an issue meet a condition of the fetch, or fall past the kernel's end (R292). -/
def raiseFetch (uid : Nat) (n : NextWord) (cd : Nat × Nat) (sets : List (Nat × List Nat)) (s : State) : State :=
  sets.foldl (fun s gt => raiseSync s uid gt.1 false n.fetch gt.2 (gt.2.map (fun t => (t, cd))) (fun _ _ => n.addr) (fun _ _ => [])) s

/-- The word of an issue acts: a spar first, then the word behind it (R119, R122). -/
def runWord (uid : Nat) (n : NextWord) (sets : List (Nat × List Nat)) (s : State) : Out :=
  match n.cond with
  | some cd => .next (raiseFetch uid n cd sets s)
  | none =>
    let word := fun (s : State) => match n.instr, sparBroken s with
      | some i, false => exec i s
      | _, _ => exec (.illegalWord n.word) s
    match n.spar.present, instrOf n.sparw with
    | true, some p => andThen (exec p s) word
    | _, _ => word s

/-- A pick issues (R36-R45). -/
def issueCand (core part : Nat) (c : Cand) (s : State) : Out :=
  let sets := stillThere s c
  match sets.head?.bind (fun gt => groupOf s c.uid gt.1) with
  | none => .next s
  | some x =>
    let n := nextWord s x c.off
    let go := sets.filterMap (passing s c.uid c.pc)
    let s1 := hitBreaks c n sets s
    if go.isEmpty then .next s1
    else andThen (runWord c.uid n go (latch core part c n x.kernel go (countIssue core part x.dom c n go (useSkips c.uid c.pc go s1))))
      (fun t => .next (countGroupWord core part x.dom c t))

/-- The first pick that a partition owes issues. -/
def issueNext (core part : Nat) (s : State) : Out :=
  match (partOf (coreOf s core) part).picks with
  | [] => .next s
  | c :: l => issueCand core part c (modPart s core part (fun p => { p with picks := l }))

/-- A partition has arbitrated the present clock. -/
def arbitrated (s : State) (core part : Nat) : Bool := (partOf (coreOf s core) part).lastClk == some (clkOf s core)

/-- What a core's results owe to the present clock is written: a result in the clock of its latency, the destinations of a load's set in
the clock after its last access (R151, R171, R179). -/
def dueDone (s : State) (core : Nat) : Bool :=
  let c := coreOf s core
  !(c.pend.any (fun p => decide (p.due ≤ c.clk) && (groupOf s p.uid p.g).any (fun x => nextWrite x p.cls (p.vals.map (fun v => (v.1, v.2.1))) p.id))) &&
  !(c.loads.any (fun l => loadReady s l && decide (l.last < c.clk)))

/-- The issue logic of a partition moves: it arbitrates once in each clock, when the results of the clock are written, and issues its
picks one after the other; a die in the safe state runs nothing (R282, R327). -/
def stepIssue (core part : Nat) (s : State) : Out :=
  if 224 ≤ core ∨ 12 ≤ part then .fault .noSuchPart
  else if (dieOf s (dieOfCore core)).safe then .next s
  else if arbitrated s core part then issueNext core part s
  else if !dueDone s core then .next s
  else issueNext core part (arbitratePart s core part)

/-- A partition has nothing left to do in this clock. -/
def clockDone (s : State) (core part : Nat) : Bool := settled s core part && (!counting s core part || arbitrated s core part)

/-- The end of a clock in a partition (R38, R270): events are counted, and a partition without groups has no credits. -/
def endClock (s : State) (core part : Nat) (p : Part) : Part :=
  { p with wide := if p.lastClk == some (clkOf s core) then p.wide else none
           counters := (List.range 16).map (fun n => ((p.counters[n]?).getD 0 + (p.counting[n]?).getD 0) % 2 ^ 32)
           counting := List.replicate 16 0
           credit := if (groupsAt s core part).isEmpty then List.replicate 8 0 else p.credit }

/-- The groups on a core, with their units. -/
def groupsOn (s : State) (core : Nat) : List (DUnit × Group) := s.units.flatMap (fun u => (u.groups.filter (fun x => x.core == core)).map (fun x => (u, x)))

/-- What the present clock still owes on a core: an issue, a result, a trap frame (R298), the end of a step (R354), a sample (R265). -/
def clockOwes (s : State) (core : Nat) : Bool :=
  !(List.range 12).all (clockDone s core) || !dueDone s core || (groupsOn s core).any (fun ux => frameDue s ux.1 ux.2 || stepDue s ux.1 ux.2) ||
  (List.range 12).any (sampleDue s core)

/-- The words that a group waits for before its trap frame have completed at the end of this clock (R298: clock w). -/
def readyTraps (s : State) (core : Nat) : State :=
  (groupsOn s core).foldl (fun t ux => if ux.2.trap.any (fun r => r.frame == 0 && !r.ready) && wordsDone s ux.1 ux.2
    then modGroup t ux.1.uid ux.2.gidx (fun y => { y with trap := y.trap.map (fun r => { r with ready := true }) }) else t) s

/-- The clock of a core advances (R259), once nothing is owed to it; tags given up in it are free (R39), and waiting writes of
CORE.DPART may take effect (R281). -/
def stepClock (core : Nat) (s : State) : Out :=
  if 224 ≤ core then .fault .noSuchPart
  else if (dieOf s (dieOfCore core)).safe || clockOwes s core then .next s
  else
    let s0 := (List.range 12).foldl (fun s p => occupancyEvents s core p) s
    .next (nextDparts (modCore (readyTraps s0 core) core (fun c => { c with
    clk := c.clk + 1
    freed := []
    rtmr := (List.range 8).map (fun d => (c.rtmr[d]?).getD 0 + (if slotRuns s core d then 1 else 0))
    parts := c.parts.map (fun p => (p.1, endClock s0 core p.1 p.2)) })) core)

/-- Two times differ by at most 2 ns (R23, R260). (DEDUCED, log 88) -/
def timesClose (a b : Nat) : Bool := decide (a ≤ b + 2) && decide (b ≤ a + 2)

/-- A die's time advances (R260), never more than 2 ns beyond the hub's: after a correction backwards it holds still until the hub's
time catches up. -/
def stepTime (die ns : Nat) (s : State) : Out :=
  if 8 ≤ die then .fault .noSuchPart
  else
    let t := (dieOf s die).time + ns
    if decide (t ≤ s.hub.time + 2) && (List.range 8).all (fun d => d == die || timesClose t (dieOf s d).time)
    then .next (modDie s die (fun x => { x with time := t % 2 ^ 64 })) else .next s

/-- The hub's cycle advances, with its time, which the dies follow (R23, R256, R260, R261); entries that no longer count are freed (R249). (DESIGN CHOICE, log 62) -/
def stepHub (ns : Nat) (s : State) : Out :=
  let t := s.hub.time + ns
  if (List.range 8).all (fun d => decide (t ≤ (dieOf s d).time + 2))
  then .next (modHub s (fun h => freeEntries { h with cycle := h.cycle + 1, time := t })) else .next s

/-- Firmware corrects the hub's time backwards (R260). -/
def stepCorrect (back : Nat) (s : State) : Out := .next (modHub s (fun h => { h with time := h.time - back }))

/-- The die that a step of the hub's management, or of a core's monitor, reaches. -/
def eventDie : Instr → Option Nat
  | .domtabRun c _ _ | .domtabHalt c _ | .haltComplete c _ | .domtabResume c _ | .domtabEmpty c _ | .dpartWrite c _ _ | .sringWrite c _ _
  | .sampctlWrite c _ | .ctrselWrite c _ _ _ | .dbgResume c _ _ | .dbgStep c _ _ | .dbgStop c _ _ | .dbgQuery c _ | .bindstatRead c _
  | .pcSample c _ | .ringWrAdvance c _ | .memoryRequestSample c _ => some (dieOfCore c)
  | .tlbInvalidate d _ | .tlbInvalidateDone d | .dvfsRequest d _ _ | .dvfsDone d _ | .thermWrite d _ | .watchWrite d _ _ | .hbmlogWrite d _
  | .lswapWrite d _ _ | .injseedWrite d _ | .injctlWrite d _ | .thermalSample d _ _ | .thermalHold d _ | .thermalHoldRelease d _ => some d
  | _ => none

/-- A die in the safe state answers only the sideband (R282, R327): no management of the hub reaches it. -/
def deaf (s : State) (i : Instr) : Bool := (eventDie i).any (fun d => (dieOf s d).safe)

/-- The row of a word that reaches issue undecoded (R126): it runs through an issue only. -/
def atIssueOnly : Instr → Bool
  | .illegalWord _ => true
  | _ => false

/-- A step of another agent: its own number of parts exist, and it is no instruction word. -/
def stepEvent (i : Instr) (s : State) : Out :=
  if !(WellFormed i && (encode i).isNone) then .fault .noSuchPart
  else if deaf s i || atIssueOnly i then .next s else exec i s

/-- One choice is carried out. -/
def perform (c : Choice) (s : State) : Out :=
  match c with
  | .clock core => stepClock core s
  | .issue core part => stepIssue core part s
  | .hubTick ns => stepHub ns s
  | .dieTime die ns => stepTime die ns s
  | .correct back => stepCorrect back s
  | .hostRead off => .next (hostRead off s)
  | .hostWrite off v => .next (hostWrite off v s)
  | .hostFetch pa => .next (hostFetch pa s)
  | .event i => stepEvent i s

/-! A machine whose next step fetches and runs one given instruction (DESIGN CHOICE, log 1). -/

/-- The address at which the instruction is placed, and its page. -/
def fetchVa : Nat := 2 ^ 21

/-- The instruction and its spar as the decoder reads them. -/
def givenWord (w : Nat) : Option (Spar × Instr) :=
  match decode (w % 2 ^ 32) with
  | .error _ => none
  | .ok (.spar _ _ _ _ _ _ _ _) => (instrOf (BitVec.ofNat 32 (w / 2 ^ 32))).map (fun i => (sparOfWord (w % 2 ^ 32), i))
  | .ok i => some (noSpar, i)

/-- The names that an instruction references, each once. -/
def givenNames (w : Nat) : List (NClass × Nat) :=
  match givenWord w with
  | none => []
  | some (sp, i) => (opnds sp i).foldl (fun l o => if l.contains (o.cls, o.num) then l else l ++ [(o.cls, o.num)]) []

/-- The barriers that it names. -/
def givenBars (w : Nat) : List BarRec :=
  match givenWord w with
  | none => []
  | some (_, i) => ((barOf i).map (fun n => (⟨n, 0⟩ : BarRec))).toList

/-- The kernel that holds it. -/
def givenKernel (w : Nat) : Kernel :=
  { img := fetchVa, kidx := 0, code := 0, nwords := 4, hndl := noHandler, widths := 15, chk := false, maxunit := 8
    names := (givenNames w).map (fun cn => ⟨cn.1, cn.2, false, 0, [(0, 3)]⟩), bufs := [], bars := givenBars w, args := [] }

/-- A name of the group, bound and full: the k-th of its list. -/
def givenName (k : Nat) (cn : NClass × Nat) : NameSt :=
  { cls := cn.1, num := cn.2, res := [k]
    spilled := false, out := false, claimed := false, stuck := false, slot := none, staged := false, chosen := 0, comm := true, depth := 0, shared := false, owner := 0
    entries := List.replicate (match cn.1 with | .lane => 8 | .acc => 8 | .uniform => 1 | .perm => 1) { noEntry cn.1 with full := true, held := true } }

/-- The group of eight threads at the first word. -/
def givenGroup (w : Nat) : Group :=
  let names := givenNames w
  { newGroup 0 0 0 0 0 8 0 0 0 0 (givenKernel w) with names := ((List.range names.length).zip names).map (fun kc => givenName kc.1 kc.2) }

/-- Its unit. -/
def givenUnit (uid w : Nat) : DUnit :=
  { newUnit uid 0 0 0 0 0 8 8 0 0 0 0 [] (givenKernel w) with
    tags := [(0, 0)], groups := [givenGroup w], bars := (givenBars w).map (fun b => ⟨b.num, 0, 0, 0, 1, true, [], []⟩) }

/-- A domain table entry that runs domain 0 in address space 0, and shares without limit. -/
def givenDomtab : Nat := 2 ^ 125
def givenDpart : Nat :=
  2 ^ 120 + 15 * 2 ^ 116 + (2 ^ 16 - 1) * 2 ^ 100 + (2 ^ 48 - 1) * 2 ^ 52 + 256 * 2 ^ 43 + 64 * 2 ^ 36 + 192 * 2 ^ 28 + 8 * 2 ^ 24 + 8192 * 2 ^ 10 + 512

/-- The core that will fetch it: at rest, its TLB holding the code page. -/
def givenCore (clk : Nat) : Core := { Core.reset with clk := clk, tlb := [⟨0, fetchVa / 2 ^ 16, 16, 0, true, true⟩] }

/-- The state with an instruction placed where the issue logic fetches next. -/
def placeFetch (s : State) (w : Nat) : State :=
  { s with
    mem := Memory.writeAll (Memory.writeAll s.mem 0 (List.replicate 16 0)) 0 (bytesOfNat 8 w)
    coh := []
    poison := []
    regs := mset (mset s.regs (regKey (.domtab 0 0)) givenDomtab) (regKey (.dpart 0 0)) givenDpart
    units := [givenUnit s.nextUid w]
    nextUid := s.nextUid + 1
    cores := mset s.cores 0 (givenCore (clkOf s 0))
    dies := mset s.dies 0 { dieOf s 0 with safe := false }
    sched := [.issue 0 0] }

end Sys2Proof.Machine
end

