-- ==== Sys2Proof/Machine/Step.lean ====
section
/-! DEFINITION. The step of the part, and the placing of one instruction for it to fetch. -/

namespace Sys2Proof.Machine

open Sys2Proof

/-- One step: the first choice of the schedule is carried out; where the schedule is empty the choice is a free value
(DESIGN CHOICE, log 2). -/
def step (s : State) : Host.Outcome State Fault Refusal :=
  match s.sched with
  | c :: l => perform c { s with sched := l }
  | [] => perform (Config.choice s.free) { s with free := s.free + 1 }

/-- The state with one instruction stored where step fetches next, so that the very next step runs it (DESIGN CHOICE, log 1): bits `w` of
the instruction, `nbits` of them given, the others 0. -/
def State.withFetchWord (s : State) (nbits w : Nat) : State := placeFetch s (w % 2 ^ nbits)

end Sys2Proof.Machine
end

