-- ==== Sys2Proof/Safety.lean ====
section
/-! DEFINITION. What counts as a safe run, and the terms in which the claims speak of an issue: the group that executes a
word, where threads stand, results on their way. -/

namespace Sys2Proof

open Sys2Proof.Machine

/-- Memory is in its canonical form. -/
def Sound (s : State) : Prop := Memory.wf s.mem = true

/-- The first `n` steps of a run from a state all answer a next state, and each keeps `Sound`. -/
def SafeRun : Nat → State → Prop
  | 0, s => Sound s
  | n + 1, s => Sound s ∧ ∃ t, step s = .next t ∧ SafeRun n t

/-- The issue in progress is of the lane-set word `i` by the present threads `ts` of group `g`, whose state is `x`, alone or
with other groups of its unit in the set (R36), and the word's names give none of them a condition of R291 to R293 and R322. A
group of several has no name charged to a halted slot, which another group's write could claim (R46, R47). -/
structure LaneIssue (s : State) (i : Instr) (g : Nat) (x : Group) (ts : List Nat) : Prop where
  sets : (g, ts) ∈ s.iss.sets
  groups : (s.iss.sets.map (·.1)).Nodup
  kept : s.iss.sets = [(g, ts)] ∨ ∀ m ∈ x.names, slotState s x.core m.owner ≠ 2
  group : groupOf s s.iss.uid g = some x
  present : ts ≠ []
  names : ∀ t ∈ ts, nameConds x t (s.iss.off / 4) s.iss.spar i = []

/-- The issue in progress is of the group-set word `i` by group `g`, whose state is `x`, and the word's names give none of
its non-exited threads a condition. -/
structure GroupIssue (s : State) (i : Instr) (g : Nat) (x : Group) : Prop where
  sets : ∃ ts, s.iss.sets = [(g, ts)]
  group : groupOf s s.iss.uid g = some x
  names : ∀ t ∈ liveTids x, nameConds x t (s.iss.off / 4) s.iss.spar i = []

/-- Where the threads of a group stand: their indices with their kernel offsets. -/
def placesOf (x : Group) : List (Nat × Nat) := x.threads.map (fun h => (h.tid, h.off))

/-- Places after some threads have gone on, each to its offset. -/
def goneOn (ts : List Nat) (off : Nat → Nat) (l : List (Nat × Nat)) : List (Nat × Nat) :=
  l.map (fun p => if ts.contains p.1 then (p.1, off p.1) else p)

/-- From `s` to `t` the threads `ts` of a group have gone on to their offsets, and its other threads stand where they stood. -/
def GoesOn (s t : State) (uid g : Nat) (ts : List Nat) (off : Nat → Nat) : Prop :=
  ∃ x y, groupOf s uid g = some x ∧ groupOf t uid g = some y ∧ placesOf y = goneOn ts off (placesOf x)

/-- From `s` to `t` one more result of a group has set out in a core (R54, R151), behind those on their way; results of the
set's other groups may have set out before and after it (R36), and their number shows in the result's own. -/
def Sends (s t : State) (core : Nat) (p : Pend) : Prop :=
  ∃ pre post n, (coreOf t core).pend = (coreOf s core).pend ++ pre ++ [{ p with id := p.id + n }] ++ post ∧ n < s.iss.sets.length ∧
    ∀ q ∈ pre ++ post, q.uid = p.uid ∧ q.g ≠ p.g ∧ q.g ∈ s.iss.sets.map (·.1)

/-- Thread `k`'s value of the lane name of a field with its extension (R121). -/
def laneVal (x : Group) (ext : Nat) (f : BitVec 7) (k : Nat) : Word := valOf x .lane (128 * ext + f.toNat) k

/-- The group's value of the uniform name of a field with its extension (R121). -/
def uniVal (x : Group) (ext : Nat) (f : BitVec 7) : Word := valOf x .uniform (128 * ext + f.toNat) 0

end Sys2Proof
end

