-- ==== Sys2Proof/Certificates/Slice0/Obligations.lean ====
section
/-! DEFINITION. The claims about the DB4, stated from the numbered rules of its manual. -/

namespace Sys2Proof

open Sys2Proof.Machine

/-- What a lane word does to each thread (R150): its latency, the fields of its destination (whose old value D may be read) and
of its sources A and B, and the value D receives, from the effective rounding mode, FTZ, D, A and B. -/
structure LaneOp where
  lat : Nat
  d : BitVec 7
  a : BitVec 7
  b : BitVec 7
  f : Nat → Bool → Word → Word → Word → Word

/-- The integer words (R152 to R156), in arithmetic on the numbers that the entries stand for. -/
inductive IntOp : Instr → LaneOp → Prop where
  | iaAdd (d a b) : IntOp (.iaAdd d a b) ⟨2, d, a, b, fun _ _ _ A B => BitVec.ofInt 32 (A.toInt + B.toInt)⟩
  | iaSub (d a b) : IntOp (.iaSub d a b) ⟨2, d, a, b, fun _ _ _ A B => BitVec.ofInt 32 (A.toInt - B.toInt)⟩
  | iaMul (d a b) : IntOp (.iaMul d a b) ⟨4, d, a, b, fun _ _ _ A B => BitVec.ofNat 32 (A.toNat * B.toNat)⟩
  | iaMulh (d a b) : IntOp (.iaMulh d a b) ⟨4, d, a, b, fun _ _ _ A B => BitVec.ofInt 32 (A.toInt * B.toInt / 2 ^ 32)⟩
  | iaMulhn (d a b) : IntOp (.iaMulhn d a b) ⟨4, d, a, b, fun _ _ _ A B => BitVec.ofNat 32 (A.toNat * B.toNat / 2 ^ 32)⟩
  | iaMin (d a b) : IntOp (.iaMin d a b) ⟨2, d, a, b, fun _ _ _ A B => if A.toInt < B.toInt then A else B⟩
  | iaMax (d a b) : IntOp (.iaMax d a b) ⟨2, d, a, b, fun _ _ _ A B => if A.toInt > B.toInt then A else B⟩
  | iaMinn (d a b) : IntOp (.iaMinn d a b) ⟨2, d, a, b, fun _ _ _ A B => if A.toNat < B.toNat then A else B⟩
  | iaMaxn (d a b) : IntOp (.iaMaxn d a b) ⟨2, d, a, b, fun _ _ _ A B => if A.toNat > B.toNat then A else B⟩
  | iaAnd (d a b) : IntOp (.iaAnd d a b) ⟨2, d, a, b, fun _ _ _ A B => A &&& B⟩
  | iaOr (d a b) : IntOp (.iaOr d a b) ⟨2, d, a, b, fun _ _ _ A B => A ||| B⟩
  | iaXor (d a b) : IntOp (.iaXor d a b) ⟨2, d, a, b, fun _ _ _ A B => A ^^^ B⟩
  | iaShl (d a b) : IntOp (.iaShl d a b) ⟨2, d, a, b, fun _ _ _ A B => if B.toNat < 32 then BitVec.ofNat 32 (A.toNat * 2 ^ B.toNat) else 0⟩
  | iaShr (d a b) : IntOp (.iaShr d a b) ⟨2, d, a, b, fun _ _ _ A B => if B.toNat < 32 then BitVec.ofNat 32 (A.toNat / 2 ^ B.toNat) else 0⟩
  | iaSar (d a b) : IntOp (.iaSar d a b) ⟨2, d, a, b, fun _ _ _ A B => if B.toNat < 32 then BitVec.ofInt 32 (A.toInt / 2 ^ B.toNat) else if A.getLsbD 31 then 0xFFFFFFFF else 0⟩
  | iaRot (d a b) : IntOp (.iaRot d a b) ⟨2, d, a, b, fun _ _ _ A B => A.rotateLeft (B.toNat % 32)⟩
  | icEq (d a b) : IntOp (.icEq d a b) ⟨2, d, a, b, fun _ _ _ A B => if A = B then 1 else 0⟩
  | icNe (d a b) : IntOp (.icNe d a b) ⟨2, d, a, b, fun _ _ _ A B => if A = B then 0 else 1⟩
  | icLt (d a b) : IntOp (.icLt d a b) ⟨2, d, a, b, fun _ _ _ A B => if A.toInt < B.toInt then 1 else 0⟩
  | icLe (d a b) : IntOp (.icLe d a b) ⟨2, d, a, b, fun _ _ _ A B => if A.toInt ≤ B.toInt then 1 else 0⟩
  | icLtn (d a b) : IntOp (.icLtn d a b) ⟨2, d, a, b, fun _ _ _ A B => if A.toNat < B.toNat then 1 else 0⟩
  | icLen (d a b) : IntOp (.icLen d a b) ⟨2, d, a, b, fun _ _ _ A B => if A.toNat ≤ B.toNat then 1 else 0⟩
  | iai (d a imm) : IntOp (.iai d a imm) ⟨2, d, a, 0, fun _ _ _ A _ => BitVec.ofInt 32 (A.toInt + imm.toInt)⟩
  | ishShl (d a n) : IntOp (.ishShl d a n) ⟨2, d, a, 0, fun _ _ _ A _ => BitVec.ofNat 32 (A.toNat * 2 ^ n.toNat)⟩
  | ishShr (d a n) : IntOp (.ishShr d a n) ⟨2, d, a, 0, fun _ _ _ A _ => BitVec.ofNat 32 (A.toNat / 2 ^ n.toNat)⟩
  | ishSar (d a n) : IntOp (.ishSar d a n) ⟨2, d, a, 0, fun _ _ _ A _ => BitVec.ofInt 32 (A.toInt / 2 ^ n.toNat)⟩
  | ishRot (d a n) : IntOp (.ishRot d a n) ⟨2, d, a, 0, fun _ _ _ A _ => A.rotateLeft n.toNat⟩
  | lim (d imm) : IntOp (.lim d imm) ⟨2, d, 0, 0, fun _ _ _ _ _ => BitVec.ofInt 32 imm.toInt⟩
  | lih (d imm) : IntOp (.lih d imm) ⟨2, d, 0, 0, fun _ _ D _ _ => BitVec.ofNat 32 (imm.toNat * 2 ^ 14 + D.toNat % 2 ^ 14)⟩

/-- The f32 words (R157): `fAdd`, `fMul` and the rest take the exact result and round it once. -/
inductive FloatOp : Instr → LaneOp → Prop where
  | faAdd (d a b) : FloatOp (.faAdd d a b) ⟨4, d, a, b, fun m z _ A B => BitVec.ofNat 32 (fAdd f32 m z A.toNat B.toNat)⟩
  | faSub (d a b) : FloatOp (.faSub d a b) ⟨4, d, a, b, fun m z _ A B => BitVec.ofNat 32 (fSub f32 m z A.toNat B.toNat)⟩
  | faMul (d a b) : FloatOp (.faMul d a b) ⟨4, d, a, b, fun m z _ A B => BitVec.ofNat 32 (fMul f32 m z A.toNat B.toNat)⟩
  | faFma (d a b) : FloatOp (.faFma d a b) ⟨4, d, a, b, fun m z D A B => BitVec.ofNat 32 (fFma f32 m z D.toNat A.toNat B.toNat)⟩
  | faFms (d a b) : FloatOp (.faFms d a b) ⟨4, d, a, b, fun m z D A B => BitVec.ofNat 32 (fFms f32 m z D.toNat A.toNat B.toNat)⟩
  | faMin (d a b) : FloatOp (.faMin d a b) ⟨4, d, a, b, fun _ z _ A B => BitVec.ofNat 32 (fLaneMinMax f32 false z A.toNat B.toNat)⟩
  | faMax (d a b) : FloatOp (.faMax d a b) ⟨4, d, a, b, fun _ z _ A B => BitVec.ofNat 32 (fLaneMinMax f32 true z A.toNat B.toNat)⟩
  | faAbs (d a) : FloatOp (.faAbs d a) ⟨4, d, a, 0, fun _ z _ A _ => if f32.isNan A.toNat then 0x7FC00000 else if z && f32.sub A.toNat then 0 else A &&& 0x7FFFFFFF⟩
  | faNeg (d a) : FloatOp (.faNeg d a) ⟨4, d, a, 0, fun _ z _ A _ => if f32.isNan A.toNat then 0x7FC00000 else if z && f32.sub A.toNat then (A ^^^ 0x80000000) &&& 0x80000000 else A ^^^ 0x80000000⟩
  | faEq (d a b) : FloatOp (.faEq d a b) ⟨4, d, a, b, fun _ z _ A B => fCmp false true z A.toNat B.toNat⟩
  | faLt (d a b) : FloatOp (.faLt d a b) ⟨4, d, a, b, fun _ z _ A B => fCmp true false z A.toNat B.toNat⟩
  | faLe (d a b) : FloatOp (.faLe d a b) ⟨4, d, a, b, fun _ z _ A B => fCmp true true z A.toNat B.toNat⟩

/-- Two 16-bit elements of an entry (R102). -/
def elems (f : Nat → Nat → Nat → Nat) (D A B : Word) : Word :=
  BitVec.ofNat 32 (f (D.toNat % 2 ^ 16) (A.toNat % 2 ^ 16) (B.toNat % 2 ^ 16) % 2 ^ 16 +
    2 ^ 16 * (f (D.toNat / 2 ^ 16) (A.toNat / 2 ^ 16) (B.toNat / 2 ^ 16) % 2 ^ 16))

/-- The packed words (R158): each element for itself. -/
inductive PackedOp : Instr → LaneOp → Prop where
  | fhHadd (d a b) : PackedOp (.fhHadd d a b) ⟨4, d, a, b, fun m z D A B => elems (fun _ a b => fAdd f16 m z a b) D A B⟩
  | fhHmul (d a b) : PackedOp (.fhHmul d a b) ⟨4, d, a, b, fun m z D A B => elems (fun _ a b => fMul f16 m z a b) D A B⟩
  | fhHfma (d a b) : PackedOp (.fhHfma d a b) ⟨4, d, a, b, fun m z D A B => elems (fun d a b => fFma f16 m z d a b) D A B⟩
  | fhHmin (d a b) : PackedOp (.fhHmin d a b) ⟨4, d, a, b, fun _ z D A B => elems (fun _ a b => fLaneMinMax f16 false z a b) D A B⟩
  | fhHmax (d a b) : PackedOp (.fhHmax d a b) ⟨4, d, a, b, fun _ z D A B => elems (fun _ a b => fLaneMinMax f16 true z a b) D A B⟩
  | fhBadd (d a b) : PackedOp (.fhBadd d a b) ⟨4, d, a, b, fun m z D A B => elems (fun _ a b => fAdd bf16 m z a b) D A B⟩
  | fhBmul (d a b) : PackedOp (.fhBmul d a b) ⟨4, d, a, b, fun m z D A B => elems (fun _ a b => fMul bf16 m z a b) D A B⟩
  | fhBfma (d a b) : PackedOp (.fhBfma d a b) ⟨4, d, a, b, fun m z D A B => elems (fun d a b => fFma bf16 m z d a b) D A B⟩
  | fhBmin (d a b) : PackedOp (.fhBmin d a b) ⟨4, d, a, b, fun _ z D A B => elems (fun _ a b => fLaneMinMax bf16 false z a b) D A B⟩
  | fhBmax (d a b) : PackedOp (.fhBmax d a b) ⟨4, d, a, b, fun _ z D A B => elems (fun _ a b => fLaneMinMax bf16 true z a b) D A B⟩

/-- The conversions (R111, R159): field b of the partial ones selects the part of A that is read, or of D that is written. -/
inductive ConvOp : Instr → LaneOp → Prop where
  | fcF32i (d a) : ConvOp (.fcF32i d a) ⟨4, d, a, 0, fun m z _ A _ => cvtInt (-(2 ^ 31)) (2 ^ 31 - 1) m z A⟩
  | fcF32n (d a) : ConvOp (.fcF32n d a) ⟨4, d, a, 0, fun m z _ A _ => cvtInt 0 (2 ^ 32 - 1) m z A⟩
  | fcIf32 (d a) : ConvOp (.fcIf32 d a) ⟨4, d, a, 0, fun m _ _ A _ => cvtFromInt m A.toInt⟩
  | fcNf32 (d a) : ConvOp (.fcNf32 d a) ⟨4, d, a, 0, fun m _ _ A _ => cvtFromInt m (Int.ofNat A.toNat)⟩
  | fcH16f32 (d a e) : ConvOp (.fcH16f32 d a e) ⟨4, d, a, 0, fun m z _ A _ => BitVec.ofNat 32 (cvtFmt f16 f32 m z (A.toNat / 2 ^ (16 * e.toNat) % 2 ^ 16))⟩
  | fcBf16f32 (d a e) : ConvOp (.fcBf16f32 d a e) ⟨4, d, a, 0, fun m z _ A _ => BitVec.ofNat 32 (cvtFmt bf16 f32 m z (A.toNat / 2 ^ (16 * e.toNat) % 2 ^ 16))⟩
  | fcF32h16 (d a e) : ConvOp (.fcF32h16 d a e) ⟨4, d, a, 0, fun m z D A _ => putPart D 16 e.toNat (cvtFmt f32 f16 m z A.toNat)⟩
  | fcF32bf16 (d a e) : ConvOp (.fcF32bf16 d a e) ⟨4, d, a, 0, fun m z D A _ => putPart D 16 e.toNat (cvtFmt f32 bf16 m z A.toNat)⟩
  | fcLt8f32 (d a e) : ConvOp (.fcLt8f32 d a e) ⟨4, d, a, 0, fun _ _ _ A _ => BitVec.ofNat 32 (roundFl f32 1 (lt8Val (A.toNat / 2 ^ (8 * e.toNat) % 256)))⟩
  | fcF32lt8 (d a e) : ConvOp (.fcF32lt8 d a e) ⟨4, d, a, 0, fun m z D A _ => putPart D 8 e.toNat (toLt8 m (f32.val (f32.flush z A.toNat)))⟩

/-- The function words (R114, R160, R161). -/
inductive FunOp : Instr → LaneOp → Prop where
  | fxRcp (d a) : FunOp (.fxRcp d a) ⟨8, d, a, 0, fun m z _ A _ => fxWord (fRcp m) z A⟩
  | fxRsqrt (d a) : FunOp (.fxRsqrt d a) ⟨8, d, a, 0, fun m z _ A _ => fxWord (fRsqrt m) z A⟩
  | fxSqrt (d a) : FunOp (.fxSqrt d a) ⟨8, d, a, 0, fun m z _ A _ => fxWord (fSqrt m) z A⟩
  | fxExp2 (d a) : FunOp (.fxExp2 d a) ⟨8, d, a, 0, fun m z _ A _ => fxWord (fExp2 m) z A⟩
  | fxLog2 (d a) : FunOp (.fxLog2 d a) ⟨8, d, a, 0, fun m z _ A _ => fxWord (fLog2 m) z A⟩
  | fxSinpi (d a) : FunOp (.fxSinpi d a) ⟨8, d, a, 0, fun m z _ A _ => fxWord (fSinpi m) z A⟩
  | fxCospi (d a) : FunOp (.fxCospi d a) ⟨8, d, a, 0, fun m z _ A _ => fxWord (fCospi m) z A⟩
  | fxTanh (d a) : FunOp (.fxTanh d a) ⟨8, d, a, 0, fun m z _ A _ => fxWord (fTanh m) z A⟩
  | fxCeil (d a) : FunOp (.fxCeil d a) ⟨4, d, a, 0, fun _ z _ A _ => fxWord (fIntegral true) z A⟩
  | fxFloor (d a) : FunOp (.fxFloor d a) ⟨4, d, a, 0, fun _ z _ A _ => fxWord (fIntegral false) z A⟩
  | fxXexp (d a) : FunOp (.fxXexp d a) ⟨4, d, a, 0, fun _ z _ A _ => fXexp (f32.flush z A.toNat)⟩
  | fxLdexp (d a b) : FunOp (.fxLdexp d a b) ⟨4, d, a, b, fun m z _ A B => BitVec.ofNat 32 (fLdexp m z A.toNat B.toInt)⟩

/-- `sel` (R175). -/
inductive SelOp : Instr → LaneOp → Prop where
  | sel (d a b) : SelOp (.sel d a b) ⟨2, d, a, b, fun _ _ D A B => if D = 0 then B else A⟩

/-- No memory fault stands, and none is planted (R359 to R364, R369): the arrays hold no wrong bit, no lane is stuck or being swapped, no
transfer is in its retries, no channel has failed, and a sector that the array holds as poisoned is so marked. -/
structure MemoryGood (s : State) : Prop where
  dies : ∀ d < 8, bitN (rdReg s (.injctl d)) 63 = false ∧ (dieOf s d).flips = [] ∧ (dieOf s d).stuck = [] ∧ (dieOf s d).swaps = [] ∧ (dieOf s d).xfers = []
  channels : ∀ d < 8, ∀ c < 64, chanFailed s d c = false
  coded : ∀ d < 8, ∀ sec ∈ (dieOf s d).coded, sec ∈ s.poison

/-- Memory, if it is in its canonical form, after bytes are written from `a` on: those bytes, and every other byte as before. -/
def BytesWritten (m m' : List Host.Cell) (a : Nat) (bs : List Byte) : Prop :=
  Memory.wf m = true → ∀ b, Memory.read m' b = if a ≤ b ∧ b < a + bs.length then (bs[b - a]?).getD 0 else Memory.read m b

/-- A little-endian number at a place (R2). -/
def numOf (s : State) (pa n : Nat) : Nat := natOfBytes (homeRead s pa n)

/-- Every word that `op` lists, issued by threads whose names meet no condition, answers a next state in which its result has set
out, for each thread the value of the table in the destination named by field d and its extension (R121, R150), due its latency
after the clock of issue (R151); the threads stand at the following word. -/
def LaneResults (op : Instr → LaneOp → Prop) : Prop :=
  ∀ (s : State) (i : Instr) (o : LaneOp) (g : Nat) (x : Group) (ts : List Nat), op i o → LaneIssue s i g x ts →
    ∃ t, exec i s = .next t ∧
      Sends s t x.core ⟨s.seq, s.iss.uid, g, .lane, ts.map (fun k => (k, 128 * s.iss.spar.dx + o.d.toNat,
        [o.f (rmOf s.iss.spar x) (ftzOf x) (laneVal x s.iss.spar.dx o.d k) (laneVal x s.iss.spar.ax o.a k) (laneVal x s.iss.spar.bx o.b k)])),
        s.iss.clk + o.lat⟩ ∧
      GoesOn s t s.iss.uid g ts (fun _ => nextOff s)

end Sys2Proof

open Sys2Proof in
/-- R150 to R156: the integer words. -/
def Obligations.IntegerWordResults : Prop := LaneResults IntOp

open Sys2Proof in
/-- R157: the f32 words. -/
def Obligations.FloatWordResults : Prop := LaneResults FloatOp

open Sys2Proof in
/-- R158: the packed words. -/
def Obligations.PackedWordResults : Prop := LaneResults PackedOp

open Sys2Proof in
/-- R159: the conversions. -/
def Obligations.ConversionWordResults : Prop := LaneResults ConvOp

open Sys2Proof in
/-- R160: the function words. (The value of a function is the model's, rounded from a 640-bit enclosure, log 12.) -/
def Obligations.FunctionWordResults : Prop := LaneResults FunOp

namespace Sys2Proof

open Sys2Proof.Machine

/-- X of R162: field a of each present thread of the group, 0 for the others. -/
def xRow (x : Group) (ts : List Nat) (ext : Nat) (a : BitVec 7) : List Word :=
  (List.range x.width).map (fun u => if ts.contains u then laneVal x ext a u else 0)

/-- X[u], 0 beyond the group's width. -/
def at0 (l : List Word) (u : Nat) : Word := (l[u]?).getD 0

/-- The cross-lane words (R163, R113): what the present thread `t` of a group of width `W` receives, from the effective rounding
mode, FTZ, X and its own B. -/
inductive XlOp : Instr → BitVec 7 → BitVec 7 → BitVec 7 → (Nat → Bool → Nat → List Word → Nat → Word → Word) → Prop where
  | shfl (d a b) : XlOp (.xlShfl d a b) d a b fun _ _ W X _ B => at0 X (B.toNat % W)
  | shflx (d a b) : XlOp (.xlShflx d a b) d a b fun _ _ W X t B => at0 X (t ^^^ (B.toNat % W))
  | any (d a) : XlOp (.xlAny d a) d a 0 fun _ _ _ X _ _ => if ∃ v ∈ X, v ≠ 0 then 1 else 0
  | all (d a) : XlOp (.xlAll d a) d a 0 fun _ _ _ X _ _ => if ∀ v ∈ X, v ≠ 0 then 1 else 0
  | ballotl (d a) : XlOp (.xlBallotl d a) d a 0 fun _ _ _ X _ _ =>
      BitVec.ofNat 32 ((List.range 32).map (fun u => if at0 X u = 0 then 0 else 2 ^ u)).sum
  | ballh (d a) : XlOp (.xlBallh d a) d a 0 fun _ _ _ X _ _ =>
      BitVec.ofNat 32 ((List.range 32).map (fun u => if at0 X (32 + u) = 0 then 0 else 2 ^ u)).sum
  | scan (d a) : XlOp (.xlScan d a) d a 0 fun _ _ _ X t _ => BitVec.ofNat 32 ((X.take t).map BitVec.toNat).sum
  | red (d a) : XlOp (.xlRed d a) d a 0 fun _ _ _ X _ _ => BitVec.ofNat 32 (X.map BitVec.toNat).sum
  | redmax (d a) : XlOp (.xlRedmax d a) d a 0 fun _ _ _ X _ _ => (X.drop 1).foldl (fun m v => if m.toInt < v.toInt then v else m) (at0 X 0)
  | fred (d a) : XlOp (.xlFred d a) d a 0 fun m z _ X _ _ => BitVec.ofNat 32 (treeFold (fAdd f32 m z) 6 (X.map BitVec.toNat))
  | fredmax (d a) : XlOp (.xlFredmax d a) d a 0 fun _ _ _ X _ _ => BitVec.ofNat 32 (treeFold (fMinMax f32 true) 6 (X.map BitVec.toNat))
  | matchW (d a) : XlOp (.xlMatch d a) d a 0 fun _ _ W X t _ =>
      BitVec.ofNat 32 (((List.range W).find? (fun u => at0 X u == at0 X t)).getD t)
  | popc (d a) : XlOp (.xlPopc d a) d a 0 fun _ _ _ X _ _ => BitVec.ofNat 32 (X.countP (fun v => v != 0))

/-- The latency of a cross-lane word (R151): 7 for a set with threads of both halves of a width-64 group, else 6. -/
def crossLat (s : State) : Nat := if ∃ e ∈ s.iss.sets, (∃ t ∈ e.2, t < 32) ∧ (∃ t ∈ e.2, 32 ≤ t) then 7 else 6

/-- The lane-permutation words (R229, R230): what thread `t` receives, from the map s of the permutation register and X. -/
inductive PlOp : Instr → BitVec 7 → BitVec 7 → BitVec 4 → (List Nat → List Word → Nat → Word) → Prop where
  | apply (d a b) : PlOp (.plApply d a b) d a b fun m X t => at0 X (pAt m t)
  | applyi (d a b) : PlOp (.plApplyi d a b) d a b fun m X t => at0 X (pInv m t)
  | idx (d b) : PlOp (.plIdx d b) d 0 b fun m _ t => BitVec.ofNat 32 (pAt m t)
  | pos (d b) : PlOp (.plPos d b) d 0 b fun m _ t => BitVec.ofNat 32 (pInv m t)
  | cyclen (d b) : PlOp (.plCyclen d b) d 0 b fun m _ t => BitVec.ofNat 32 (cycleOf m t).length
  | cycmin (d b) : PlOp (.plCycmin d b) d 0 b fun m _ t => BitVec.ofNat 32 ((minOf (cycleOf m t)).getD 0)

/-- What `sr` writes for each selector (R27, R176, R259). -/
inductive SrSel (s : State) (u : DUnit) (x : Group) (t : Nat) : Nat → Nat → Prop where
  | tid : SrSel s u x t 0 t
  | lane : SrSel s u x t 1 ((x.base + t) % 32)
  | gidx : SrSel s u x t 2 x.gidx
  | gwidth : SrSel s u x t 3 x.width
  | unitidx : SrSel s u x t 4 u.unitidx
  | unitsize : SrSel s u x t 5 u.usize
  | core : SrSel s u x t 6 x.core
  | dom : SrSel s u x t 7 u.dom
  | clkLow : SrSel s u x t 8 ((coreOf s x.core).clk % 2 ^ 32)
  | clkHigh : SrSel s u x t 9 ((coreOf s x.core).clk / 2 ^ 32 % 2 ^ 32)
  | rtmr : SrSel s u x t 10 (((coreOf s x.core).rtmr[x.slot]?).getD 0 % 2 ^ 32)
  | timeLow : SrSel s u x t 11 ((dieOf s (dieOfCore x.core)).time % 2 ^ 32)
  | timeHigh : SrSel s u x t 12 ((dieOf s (dieOfCore x.core)).time / 2 ^ 32 % 2 ^ 32)

end Sys2Proof

open Sys2Proof Sys2Proof.Machine in
/-- R175, R176: `sel` writes A where D is not zero, else B; `sr` writes each thread's value of the selector. -/
def Obligations.SelectAndIdentityWordResults : Prop :=
  (LaneResults SelOp) ∧
  (∀ (s : State) (d b : BitVec 7) (g : Nat) (x : Group) (ts : List Nat) (u : DUnit) (v : Nat → Nat),
      LaneIssue s (.sr d b) g x ts → unitOf s s.iss.uid = some u → (∀ k ∈ ts, SrSel s u x k b.toNat (v k)) →
      ∃ t, exec (.sr d b) s = .next t ∧
        Sends s t x.core ⟨s.seq, s.iss.uid, g, .lane, ts.map (fun k => (k, 128 * s.iss.spar.dx + d.toNat, [BitVec.ofNat 32 (v k)])), s.iss.clk + 2⟩ ∧
        GoesOn s t s.iss.uid g ts (fun _ => nextOff s)) ∧
  (decode 0x24004103 = .ok (.sel 1 2 3) ∧ decode 0x26008000 = .ok (.sr 2 0) ∧
    ∀ d a b : BitVec 7, encode (.sel d a b) = some (0x12 * 2 ^ 25 + d.toNat * 2 ^ 14 + a.toNat * 2 ^ 7 + b.toNat) ∧
      encode (.sr d b) = some (0x13 * 2 ^ 25 + d.toNat * 2 ^ 14 + b.toNat))

open Sys2Proof Sys2Proof.Machine in
/-- R162, R163, R113: the cross-lane words. -/
def Obligations.CrossLaneWordResults : Prop :=
  ∀ (s : State) (i : Instr) (d a b : BitVec 7) (f : Nat → Bool → Nat → List Word → Nat → Word → Word) (g : Nat) (x : Group) (ts : List Nat),
    XlOp i d a b f → LaneIssue s i g x ts →
    ∃ t, exec i s = .next t ∧
      Sends s t x.core ⟨s.seq, s.iss.uid, g, .lane, ts.map (fun k => (k, 128 * s.iss.spar.dx + d.toNat,
        [f (rmOf s.iss.spar x) (ftzOf x) x.width (xRow x ts s.iss.spar.ax a) k (laneVal x s.iss.spar.bx b k)])), s.iss.clk + crossLat s⟩ ∧
      GoesOn s t s.iss.uid g ts (fun _ => nextOff s)

open Sys2Proof Sys2Proof.Machine in
/-- R229, R230: the lane-permutation words, where the register is of the group's size and its saved form is good. -/
def Obligations.PermuteLaneWordResults : Prop :=
  ∀ (s : State) (i : Instr) (d a : BitVec 7) (b : BitVec 4) (f : List Nat → List Word → Nat → Word) (g : Nat) (x : Group) (ts : List Nat),
    PlOp i d a b f → LaneIssue s i g x ts →
    permSize (entryOf x .perm b.toNat 0).words = x.width → permOk (entryOf x .perm b.toNat 0).words = true →
    ∃ t, exec i s = .next t ∧
      Sends s t x.core ⟨s.seq, s.iss.uid, g, .lane, ts.map (fun k => (k, 128 * s.iss.spar.dx + d.toNat,
        [f (permMap (entryOf x .perm b.toNat 0).words) (xRow x ts s.iss.spar.ax a) k])), s.iss.clk + crossLat s⟩ ∧
      GoesOn s t s.iss.uid g ts (fun _ => nextOff s)

open Sys2Proof Sys2Proof.Machine in
/-- R177: `ix.rd` writes each thread's value of the name indexed by its A; `ix.wr` sends each thread's D to the name indexed by its A. -/
def Obligations.IndexedWordResults : Prop :=
  ∀ (s : State) (d a b : BitVec 7) (g : Nat) (x : Group) (ts : List Nat),
    (LaneIssue s (.ixRd d a b) g x ts →
      ∃ t, exec (.ixRd d a b) s = .next t ∧
        Sends s t x.core ⟨s.seq, s.iss.uid, g, .lane, ts.map (fun k => (k, 128 * s.iss.spar.dx + d.toNat,
          [valOf x .lane (128 * s.iss.spar.bx + b.toNat + (laneVal x s.iss.spar.ax a k).toNat) k])), s.iss.clk + 2⟩ ∧
        GoesOn s t s.iss.uid g ts (fun _ => nextOff s)) ∧
    (LaneIssue s (.ixWr d a b) g x ts →
      ∃ t, exec (.ixWr d a b) s = .next t ∧
        Sends s t x.core ⟨s.seq, s.iss.uid, g, .lane, ts.map (fun k => (k, 128 * s.iss.spar.bx + b.toNat + (laneVal x s.iss.spar.ax a k).toNat,
          [laneVal x s.iss.spar.dx d k])), s.iss.clk + 2⟩ ∧
        GoesOn s t s.iss.uid g ts (fun _ => nextOff s))

namespace Sys2Proof

open Sys2Proof.Machine

/-- The target of a J word (R119, R165): the address of the word itself plus 4 off18, as an offset from the kernel's entry. -/
def jumpTo (s : State) (off : BitVec 18) : Int := (s.iss.off : Int) + (if s.iss.spar.present then 4 else 0) + 4 * off.toInt

/-- The target lies within the kernel's words (R292 CTRL 1). -/
def Inside (x : Group) (o : Int) : Prop := 0 ≤ o ∧ o < 4 * x.kernel.nwords

end Sys2Proof

open Sys2Proof Sys2Proof.Machine in
/-- R165 to R167: each thread of `brz` and `brnz` decides by its own A; no result sets out. `jmp` transfers every thread to its target and writes the offset of
the word after it to its link name, if that name, extension included, is not 0; `ctl.jr` transfers each thread to the kernel's entry plus its A. -/
def Obligations.BranchAndJumpWords : Prop :=
  (∀ (s : State) (a : BitVec 7) (off : BitVec 18) (g : Nat) (x : Group) (ts : List Nat),
      (LaneIssue s (.brz a off) g x ts → (∀ k ∈ ts, laneVal x s.iss.spar.ax a k = 0 → Inside x (jumpTo s off)) →
        ∃ t, exec (.brz a off) s = .next t ∧ (coreOf t x.core).pend = (coreOf s x.core).pend ∧
          GoesOn s t s.iss.uid g ts (fun k => if laneVal x s.iss.spar.ax a k = 0 then (jumpTo s off).toNat else nextOff s)) ∧
      (LaneIssue s (.brnz a off) g x ts → (∀ k ∈ ts, laneVal x s.iss.spar.ax a k ≠ 0 → Inside x (jumpTo s off)) →
        ∃ t, exec (.brnz a off) s = .next t ∧ (coreOf t x.core).pend = (coreOf s x.core).pend ∧
          GoesOn s t s.iss.uid g ts (fun k => if laneVal x s.iss.spar.ax a k ≠ 0 then (jumpTo s off).toNat else nextOff s))) ∧
  (∀ (s : State) (a : BitVec 7) (off : BitVec 18) (g : Nat) (x : Group) (ts : List Nat),
      (∀ i n, (i = .jmp off ∧ n = 128 * s.iss.spar.ax) ∨ (i = .jmpLink a off ∧ a ≠ 0 ∧ n = 128 * s.iss.spar.ax + a.toNat) →
        LaneIssue s i g x ts → Inside x (jumpTo s off) →
        ∃ t, exec i s = .next t ∧ GoesOn s t s.iss.uid g ts (fun _ => (jumpTo s off).toNat) ∧
          (n = 0 → (coreOf t x.core).pend = (coreOf s x.core).pend) ∧
          (n ≠ 0 → Sends s t x.core ⟨s.seq, s.iss.uid, g, .lane, ts.map (fun k => (k, n, [BitVec.ofNat 32 (nextOff s)])), s.iss.clk + 2⟩)) ∧
      (LaneIssue s (.ctlJr a) g x ts →
        (∀ k ∈ ts, (laneVal x s.iss.spar.ax a k).toNat % 4 = 0 ∧ (laneVal x s.iss.spar.ax a k).toNat < 4 * x.kernel.nwords) →
        ∃ t, exec (.ctlJr a) s = .next t ∧ (coreOf t x.core).pend = (coreOf s x.core).pend ∧
          GoesOn s t s.iss.uid g ts (fun k => (laneVal x s.iss.spar.ax a k).toNat)))

open Sys2Proof Sys2Proof.Machine in
/-- R168, R31: `ctl.exit` ends its threads; a group whose threads have all exited has ended; no other thread exits. -/
def Obligations.ExitWord : Prop :=
  ∀ (s : State) (g : Nat) (x : Group) (ts : List Nat), LaneIssue s .ctlExit g x ts →
    ∃ t y, exec .ctlExit s = .next t ∧ groupOf t s.iss.uid g = some y ∧
      y.threads.map (fun h => (h.tid, h.exited)) = x.threads.map (fun h => (h.tid, h.exited || ts.contains h.tid)) ∧
      ((∀ h ∈ x.threads, h.exited = true ∨ h.tid ∈ ts) → y.ended = true)

open Sys2Proof Sys2Proof.Machine in
/-- R178, R345, R348: `sys.nop` and, where breakpoints are not enabled for the slot, `sys.brk` only go on to the next word. With breakpoints enabled
`sys.brk` stops its group: the threads have gone on to the next word and the group's debug stop has started, with DBGSRC kind 3, unless its
unit is checked, cancelled, or the group is already stopped. -/
def Obligations.NopAndBreakWords : Prop :=
  (∀ (s : State) (b : BitVec 7) (g : Nat) (x : Group) (ts : List Nat) (i : Instr), i = .sysNop ∨ i = .sysBrk b → LaneIssue s i g x ts →
      (i = .sysBrk b → bitN (rdReg s (.dbgctl x.core x.slot)) 63 = false) →
      ∃ t, exec i s = .next t ∧ (coreOf t x.core).pend = (coreOf s x.core).pend ∧ GoesOn s t s.iss.uid g ts (fun _ => nextOff s)) ∧
  (∀ (s : State) (b : BitVec 7) (g : Nat) (x : Group) (ts : List Nat) (u : DUnit), LaneIssue s (.sysBrk b) g x ts →
      unitOf s s.iss.uid = some u → u.chk = false → u.cancel = 0 → x.ended = false → x.dbg.mode = 0 →
      x.trap = none → bitN (rdReg s (.dbgctl x.core x.slot)) 63 = true →
      ∃ t y, exec (.sysBrk b) s = .next t ∧ groupOf t s.iss.uid g = some y ∧ placesOf y = goneOn ts (fun _ => nextOff s) (placesOf x) ∧
        y.trap.map (fun r => (r.cond.cause, r.cond.detail, r.fatal, r.dbg)) = some (0x30, 2, false, 128 + 16 * 3))

open Sys2Proof Sys2Proof.Machine in
/-- R120 to R122: a spar's fields stand in the issue for the word behind it, and nothing else changes. -/
def Obligations.SparWord : Prop :=
  ∀ (s : State) (cc dx ax bx : BitVec 4) (ta tb : BitVec 1) (q : BitVec 3) (o : BitVec 2),
    ∃ t, exec (.spar cc dx ax bx ta tb q o) s = .next t ∧
      t.iss.spar = ⟨true, cc.toNat, dx.toNat, ax.toNat, bx.toNat, ta == 1, tb == 1, q.toNat, o.toNat⟩ ∧
      { t with iss := s.iss } = s ∧ { t.iss with spar := s.iss.spar, sparw := s.iss.sparw } = s.iss

open Sys2Proof Sys2Proof.Machine in
/-- R178, R291, R298, R126, R293: `sys.trap` is a trap of cause 0x07 with DETAIL b in the group, in which no thread moves; it is fatal at once where the kernel
has no handler or the slot no frame area (R305). A word of a reserved encoding traps the threads of the issue with ILLEGAL and the DETAIL of what makes
it illegal; a group-set one every thread that has not exited. -/
def Obligations.TrapAndIllegalWords : Prop :=
  (∀ (s : State) (b : BitVec 7) (g : Nat) (x : Group) (ts : List Nat) (u : DUnit), LaneIssue s (.sysTrap b) g x ts →
      unitOf s s.iss.uid = some u → u.cancel = 0 → x.trap = none → (∀ h ∈ x.threads, h.inHandler = false) →
      (∀ k ∈ ts, (threadOf x k).isSome = true) → (∃ h ∈ x.threads, h.exited = false) →
      ∃ t y r, exec (.sysTrap b) s = .next t ∧ groupOf t s.iss.uid g = some y ∧ placesOf y = placesOf x ∧ y.trap = some r ∧
        r.cond.cause = 0x07 ∧ r.cond.detail = b.toNat ∧ (∀ k ∈ ts, k ∈ r.cond.lmask) ∧
        r.fatal = (x.kernel.hndl == noHandler || (frameVa s x).isNone)) ∧
  (∀ (s : State) (w : Word) (g : Nat) (x : Group) (ts : List Nat) (u : DUnit) (e : DecodeErr),
      (g, ts) ∈ s.iss.sets → (s.iss.sets.map (·.1)).Nodup → groupOf s s.iss.uid g = some x → ts ≠ [] → sparBroken s = false → decode w.toNat = .error e →
      unitOf s s.iss.uid = some u → u.cancel = 0 → x.trap = none → (∀ h ∈ x.threads, h.inHandler = false) →
      (∀ k ∈ ts, (threadOf x k).any (fun h => !h.exited) = true) →
      ∃ t y r, exec (.illegalWord w) s = .next t ∧ groupOf t s.iss.uid g = some y ∧ placesOf y = placesOf x ∧ y.trap = some r ∧
        r.cond.cause = 0x01 ∧ r.cond.detail = e.detail ∧ (∀ k ∈ (if w.msb then liveTids x else ts), k ∈ r.cond.lmask) ∧
        r.fatal = (x.kernel.hndl == noHandler || (frameVa s x).isNone))
namespace Sys2Proof

open Sys2Proof.Machine

/-- A queue entry without its release snapshot, which the entry that comes to its queue's head may take at once (R91). -/
def unsnapped (e : TqEntry) : TqEntry := { e with snap := none }

/-- The effective address of a memory word (R68, R169): the pair in field a, and the offset in units of the access size. -/
def addrOf (lo hi : Word) (off : BitVec 7) (size : Nat) : Nat :=
  (Int.emod (lo.toNat + 2 ^ 32 * hi.toNat + off.toInt * size) (2 ^ 64)).toNat

/-- Thread `k`'s effective address. -/
def laneAddr (s : State) (x : Group) (a : BitVec 7) (off : BitVec 7) (size k : Nat) : Nat :=
  addrOf (laneVal x s.iss.spar.ax a k) (valOf x .lane (128 * s.iss.spar.ax + a.toNat + 1) k) off size

/-- Order and scope of a memory word (R88): its spar's, else relaxed at die scope. -/
def orderOf (s : State) : Nat × Nat := if s.iss.spar.present then (s.iss.spar.o, s.iss.spar.q) else (0, 4)

/-- The loads (R170): field d, field a, the offset, the bytes accessed and the code of what they become. -/
inductive LdOp : Instr → BitVec 7 → BitVec 7 → BitVec 7 → Nat → Nat → Prop where
  | n8 (d a off) : LdOp (.ldN8 d a off) d a off 1 0
  | i8 (d a off) : LdOp (.ldI8 d a off) d a off 1 1
  | n16 (d a off) : LdOp (.ldN16 d a off) d a off 2 2
  | i16 (d a off) : LdOp (.ldI16 d a off) d a off 2 3
  | b32 (d a off) : LdOp (.ldB32 d a off) d a off 4 4
  | b64 (d a off) : LdOp (.ldB64 d a off) d a off 8 5
  | b128 (d a off) : LdOp (.ldB128 d a off) d a off 16 6

/-- The stores (R172): field d, field a, the offset, the bytes stored. -/
inductive StOp : Instr → BitVec 7 → BitVec 7 → BitVec 7 → Nat → Prop where
  | b8 (d a off) : StOp (.stB8 d a off) d a off 1
  | b16 (d a off) : StOp (.stB16 d a off) d a off 2
  | b32 (d a off) : StOp (.stB32 d a off) d a off 4
  | b64 (d a off) : StOp (.stB64 d a off) d a off 8
  | b128 (d a off) : StOp (.stB128 d a off) d a off 16

/-- The atomics (R173): their fields and fn. -/
inductive AtOp : Instr → BitVec 7 → BitVec 7 → BitVec 7 → Nat → Prop where
  | add (d a b) : AtOp (.atAdd d a b) d a b 0
  | min (d a b) : AtOp (.atMin d a b) d a b 1
  | max (d a b) : AtOp (.atMax d a b) d a b 2
  | minn (d a b) : AtOp (.atMinn d a b) d a b 3
  | maxn (d a b) : AtOp (.atMaxn d a b) d a b 4
  | and (d a b) : AtOp (.atAnd d a b) d a b 5
  | or (d a b) : AtOp (.atOr d a b) d a b 6
  | xor (d a b) : AtOp (.atXor d a b) d a b 7
  | xchg (d a b) : AtOp (.atXchg d a b) d a b 8
  | cas (d a b) : AtOp (.atCas d a b) d a b 9
  | fadd (d a b) : AtOp (.atFadd d a b) d a b 10

/-- Each thread of the list has one entry more at the tail of its queue (R87): of the kind, address and data that the thread gives,
of the size, with the word's order, scope and place, of the issue set `set`, neither translated nor parked. -/
def Enqueues (s : State) (x y : Group) (ts : List Nat) (set size : Nat) (group : Bool) (pm : List Nat)
    (kind : Nat → MemKind) (va : Nat → Nat) (data : Nat → List Byte) : Prop :=
  ∀ k ∈ ts, ∀ h, threadOf x k = some h → ∃ h' id, threadOf y k = some h' ∧
    h'.tq.map unsnapped = h.tq.map unsnapped ++ [⟨id, kind k, (orderOf s).1, (orderOf s).2, va k, size, data k, set, 2 * h.lane + h.tid / 32,
      none, none, none, 0, s.iss.off / 4, s.iss.sparw, s.iss.word, group, s.iss.clk, pm, false⟩]

/-- One more load or atomic word stands among a core's issued ones (R171): with its code and its destination names, and for each
present thread of group `g`, and of the set's other groups (R36), a result to come. -/
def Issues (s t : State) (x : Group) (g : Nat) (ts : List Nat) (uniform : Bool) (fn : Nat) (dsts : List Nat) : Prop :=
  ∃ mem, (coreOf t x.core).loads = (coreOf s x.core).loads ++ [⟨s.seq, s.iss.uid, uniform, fn, dsts, mem, false, 0⟩] ∧
    mem.filter (fun m => m.1.1 == g) = ts.map (fun k => ((g, k), none, false)) ∧
    ∀ m ∈ mem, m.1.1 ∈ s.iss.sets.map (·.1) ∧ m.2 = (none, false)

/-- The byte `j` of a run of lane names from name `n` on (R100, R172). -/
def runByte (x : Group) (n k j : Nat) : Byte := BitVec.ofNat 8 ((valOf x .lane (n + j / 4) k).toNat / 256 ^ (j % 4))

end Sys2Proof

open Sys2Proof Sys2Proof.Machine in
/-- R169 to R171, R87, R88: a load puts one entry in each present thread's queue and its destinations among the core's issued loads,
and the threads go on; nothing is read yet. -/
def Obligations.LoadWords : Prop :=
  ∀ (s : State) (i : Instr) (d a off : BitVec 7) (size fn g : Nat) (x : Group) (ts : List Nat),
    LdOp i d a off size fn → LaneIssue s i g x ts → ts.Nodup → (∀ l ∈ (coreOf s x.core).loads, l.id ≠ s.seq) →
    ∃ t y, exec i s = .next t ∧ groupOf t s.iss.uid g = some y ∧ placesOf y = goneOn ts (fun _ => nextOff s) (placesOf x) ∧
      Enqueues s x y ts s.seq size false ts (fun _ => .load (size == 8)) (laneAddr s x a off size) (fun _ => []) ∧
      Issues s t x g ts false fn ((List.range ((size + 3) / 4)).map (128 * s.iss.spar.dx + d.toNat + ·))

open Sys2Proof Sys2Proof.Machine in
/-- R169, R172, R87, R88: a store puts one entry in each present thread's queue with the bytes of its names, and the threads go on;
no byte of memory changes yet, and the word has no destination. -/
def Obligations.StoreWords : Prop :=
  ∀ (s : State) (i : Instr) (d a off : BitVec 7) (size g : Nat) (x : Group) (ts : List Nat),
    StOp i d a off size → LaneIssue s i g x ts → ts.Nodup →
    ∃ t y, exec i s = .next t ∧ groupOf t s.iss.uid g = some y ∧ placesOf y = goneOn ts (fun _ => nextOff s) (placesOf x) ∧
      Enqueues s x y ts s.seq size false ts (fun _ => .store) (laneAddr s x a off size)
        (fun k => (List.range size).map (runByte x (128 * s.iss.spar.dx + d.toNat) k)) ∧
      (coreOf t x.core).loads = (coreOf s x.core).loads ∧ t.mem = s.mem

open Sys2Proof Sys2Proof.Machine in
/-- R169, R173, R87, R88: an atomic puts one entry of 4 bytes with its operand B and its D in each present thread's queue and its
destination among the core's issued loads, and the threads go on. -/
def Obligations.AtomicWords : Prop :=
  ∀ (s : State) (i : Instr) (d a b : BitVec 7) (fn g : Nat) (x : Group) (ts : List Nat),
    AtOp i d a b fn → LaneIssue s i g x ts → ts.Nodup → (∀ l ∈ (coreOf s x.core).loads, l.id ≠ s.seq) →
    ∃ t y, exec i s = .next t ∧ groupOf t s.iss.uid g = some y ∧ placesOf y = goneOn ts (fun _ => nextOff s) (placesOf x) ∧
      Enqueues s x y ts s.seq 4 false ts (fun k => .atomic fn (laneVal x s.iss.spar.bx b k) (laneVal x s.iss.spar.dx d k))
        (laneAddr s x a 0 4) (fun _ => []) ∧
      Issues s t x g ts false 4 [128 * s.iss.spar.dx + d.toNat] ∧ t.mem = s.mem

open Sys2Proof Sys2Proof.Machine in
/-- R197: `uld` and `ust` put one entry in the queue of the group's lowest non-exited thread, and the group goes on; a load's uniform
destinations stand among the core's issued loads. -/
def Obligations.UniformMemoryWords : Prop :=
  ∀ (s : State) (d a off : BitVec 7) (g : Nat) (x : Group) (l : Nat),
    minOf (liveTids x) = some l → (∀ r ∈ (coreOf s x.core).loads, r.id ≠ s.seq) →
    let va := fun size => addrOf (uniVal x s.iss.spar.ax a) (valOf x .uniform (128 * s.iss.spar.ax + a.toNat + 1) 0) off size
    (∀ i size fn, (i = .uldB32 d a off ∧ size = 4 ∧ fn = 4) ∨ (i = .uldB64 d a off ∧ size = 8 ∧ fn = 5) → GroupIssue s i g x →
      ∃ t y, exec i s = .next t ∧ groupOf t s.iss.uid g = some y ∧ placesOf y = goneOn (liveTids x) (fun _ => nextOff s) (placesOf x) ∧
        Enqueues s x y [l] s.seq size true (liveTids x) (fun _ => .load (size == 8)) (fun _ => va size) (fun _ => []) ∧
        Issues s t x g [l] true fn ((List.range (size / 4)).map (128 * s.iss.spar.dx + d.toNat + ·))) ∧
    (GroupIssue s (.ustB32 d a off) g x →
      ∃ t y, exec (.ustB32 d a off) s = .next t ∧ groupOf t s.iss.uid g = some y ∧ placesOf y = goneOn (liveTids x) (fun _ => nextOff s) (placesOf x) ∧
        Enqueues s x y [l] s.seq 4 true (liveTids x) (fun _ => .store) (fun _ => va 4)
          (fun _ => (List.range 4).map (fun j => BitVec.ofNat 8 ((uniVal x s.iss.spar.dx d).toNat / 256 ^ j))) ∧
        (coreOf t x.core).loads = (coreOf s x.core).loads ∧ t.mem = s.mem)

namespace Sys2Proof

open Sys2Proof.Machine

/-- The uniform words (R180 to R182): their destination field and the value it receives, from the old D, A and B. -/
inductive UniOp : Instr → BitVec 7 → BitVec 7 → BitVec 7 → (Word → Word → Word → Word) → Prop where
  | add (d a b) : UniOp (.uaAdd d a b) d a b fun _ A B => BitVec.ofInt 32 (A.toInt + B.toInt)
  | sub (d a b) : UniOp (.uaSub d a b) d a b fun _ A B => BitVec.ofInt 32 (A.toInt - B.toInt)
  | mul (d a b) : UniOp (.uaMul d a b) d a b fun _ A B => BitVec.ofNat 32 (A.toNat * B.toNat)
  | and (d a b) : UniOp (.uaAnd d a b) d a b fun _ A B => A &&& B
  | or (d a b) : UniOp (.uaOr d a b) d a b fun _ A B => A ||| B
  | xor (d a b) : UniOp (.uaXor d a b) d a b fun _ A B => A ^^^ B
  | shl (d a b) : UniOp (.uaShl d a b) d a b fun _ A B => if B.toNat < 32 then BitVec.ofNat 32 (A.toNat * 2 ^ B.toNat) else 0
  | shr (d a b) : UniOp (.uaShr d a b) d a b fun _ A B => if B.toNat < 32 then BitVec.ofNat 32 (A.toNat / 2 ^ B.toNat) else 0
  | min (d a b) : UniOp (.uaMin d a b) d a b fun _ A B => if A.toInt < B.toInt then A else B
  | max (d a b) : UniOp (.uaMax d a b) d a b fun _ A B => if A.toInt > B.toInt then A else B
  | minn (d a b) : UniOp (.uaMinn d a b) d a b fun _ A B => if A.toNat < B.toNat then A else B
  | maxn (d a b) : UniOp (.uaMaxn d a b) d a b fun _ A B => if A.toNat > B.toNat then A else B
  | eq (d a b) : UniOp (.ucEq d a b) d a b fun _ A B => if A = B then 1 else 0
  | ne (d a b) : UniOp (.ucNe d a b) d a b fun _ A B => if A = B then 0 else 1
  | lt (d a b) : UniOp (.ucLt d a b) d a b fun _ A B => if A.toInt < B.toInt then 1 else 0
  | ltn (d a b) : UniOp (.ucLtn d a b) d a b fun _ A B => if A.toNat < B.toNat then 1 else 0
  | addImm (d a imm) : UniOp (.uai d a imm) d a 0 fun _ A _ => BitVec.ofInt 32 (A.toInt + imm.toInt)
  | imm (d imm) : UniOp (.ulim d imm) d 0 0 fun _ _ _ => BitVec.ofInt 32 imm.toInt
  | immHigh (d imm) : UniOp (.ulih d imm) d 0 0 fun D _ _ => BitVec.ofNat 32 (imm.toNat * 2 ^ 14 + D.toNat % 2 ^ 14)

/-- A group-set word that writes one uniform name ran: its result sets out, due `lat` clocks on, and the group goes on. -/
def GroupSends (s t : State) (x : Group) (g n lat : Nat) (v : Word) : Prop :=
  Sends s t x.core ⟨s.seq, s.iss.uid, g, .uniform, [(0, n, [v])], s.iss.clk + lat⟩ ∧
  GoesOn s t s.iss.uid g (liveTids x) (fun _ => nextOff s)

/-- The group waits in the word in progress (R179): its threads stand where they stood, and no result sets out. -/
def Waits (s t : State) (x : Group) (g : Nat) (k : WaitKind) : Prop :=
  ∃ y, groupOf t s.iss.uid g = some y ∧ y.wait = ⟨k, nextOff s, s.iss.clk, false⟩ ∧ placesOf y = placesOf x ∧
    (coreOf t x.core).pend = (coreOf s x.core).pend

/-- The words whose group only waits, with what it waits for (R98, R188, R189, R191, R194, R195); `p` is what the word asks of the
group and the state beyond its names. -/
inductive WaitOp (s : State) (x : Group) : Instr → Prop → WaitKind → Prop where
  | oc (d a) : WaitOp s x (.syncOc d a) True (.oc d.toNat a.toNat)
  | dwait : WaitOp s x .syncDwait True .dwait
  | obRel (a) (r : Rsv) : WaitOp s x (.obRel a) (r ∈ (partOf (coreOf s x.core) x.part).rsvs ∧ r.uid = s.iss.uid ∧ r.g = x.gidx ∧
      (uniVal x s.iss.spar.ax a).toNat = r.start * 2 ^ 16 + r.size * 2 ^ 8 + r.slot)
      (.obRel ((uniVal x s.iss.spar.ax a).toNat % 256))
  | obRec (a) (r : Rsv) : WaitOp s x (.obRec a) (r ∈ (partOf (coreOf s x.core) x.part).rsvs ∧ r.uid = s.iss.uid ∧ r.g = x.gidx ∧
      (uniVal x s.iss.spar.ax a).toNat = r.start * 2 ^ 16 + r.size * 2 ^ 8 + r.slot)
      (.obRec ((uniVal x s.iss.spar.ax a).toNat % 256) (valOf x .uniform (128 * s.iss.spar.ax + a.toNat + 1) 0))
  | gateCall (a) : WaitOp s x (.gateCall a) True (.gateCall (uniVal x s.iss.spar.ax a).toNat 0)
  | gateRet : WaitOp s x .gateRet (x.gstack ≠ []) (.gateRet 0)

/-- Every non-exited thread of the group has one fence entry more at the tail of its queue (R95), of the order and scope. -/
def FencesPlaced (x y : Group) (ord scope : Nat) : Prop :=
  ∀ k h, threadOf x k = some h → h.exited = false → ∃ h' e, threadOf y k = some h' ∧ h'.tq.map unsnapped = h.tq.map unsnapped ++ [e] ∧
    e.kind = .fence ∧ e.ord = ord ∧ e.scope = scope

end Sys2Proof

open Sys2Proof Sys2Proof.Machine in
/-- R180 to R182: the uniform words write what their operation gives of the group's uniform values, two clocks on. -/
def Obligations.UniformWordResults : Prop :=
  ∀ (s : State) (i : Instr) (d a b : BitVec 7) (f : Word → Word → Word → Word) (g : Nat) (x : Group),
    UniOp i d a b f → GroupIssue s i g x →
    ∃ t, exec i s = .next t ∧ GroupSends s t x g (128 * s.iss.spar.dx + d.toNat) 2
      (f (uniVal x s.iss.spar.dx d) (uniVal x s.iss.spar.ax a) (uniVal x s.iss.spar.bx b))

open Sys2Proof Sys2Proof.Machine in
/-- R183: the whole group of `ubrz` and `ubrnz` branches or goes on by its uniform A; no result sets out. -/
def Obligations.UniformBranchWords : Prop :=
  (decode 0x8C1BFFFC = .ok (.ubrnz 6 (BitVec.ofInt 18 (-4))) ∧ decode 0x8A1BFFFC = .ok (.ubrz 6 (BitVec.ofInt 18 (-4)))) ∧
  ∀ (s : State) (a : BitVec 7) (off : BitVec 18) (g : Nat) (x : Group),
    let A := uniVal x s.iss.spar.ax a
    (GroupIssue s (.ubrz a off) g x → (A = 0 → Inside x (jumpTo s off)) →
      ∃ t, exec (.ubrz a off) s = .next t ∧ (coreOf t x.core).pend = (coreOf s x.core).pend ∧
        GoesOn s t s.iss.uid g (liveTids x) (fun _ => if A = 0 then (jumpTo s off).toNat else nextOff s)) ∧
    (GroupIssue s (.ubrnz a off) g x → (A ≠ 0 → Inside x (jumpTo s off)) →
      ∃ t, exec (.ubrnz a off) s = .next t ∧ (coreOf t x.core).pend = (coreOf s x.core).pend ∧
        GoesOn s t s.iss.uid g (liveTids x) (fun _ => if A ≠ 0 then (jumpTo s off).toNat else nextOff s))

open Sys2Proof Sys2Proof.Machine in
/-- R104, R192, R196, R270, R272: `mode.rd` and `ctr.rd` write the mode word and the counter to a uniform name, the counter only while its
selector counts the group's own domain; `mode.wr` writes the mode word, RM 1 for an unused code and reserved bits 0; `ctr.mark` goes on,
and where its slot's ring is not valid or records no marks, no byte of memory changes. R272, R262, R263: into an open ring it writes its record at the
place that the private WR gives, which moves on by one; into a full ring, or with 32 records buffered in the core, it adds 1 to LOST instead. -/
def Obligations.ModeAndCounterWords : Prop :=
  ∀ (s : State) (d a : BitVec 7) (g : Nat) (x : Group),
    (GroupIssue s (.modeRd d) g x → ∃ t, exec (.modeRd d) s = .next t ∧ GroupSends s t x g (128 * s.iss.spar.dx + d.toNat) 2 x.fmode) ∧
    (GroupIssue s (.modeWr a) g x → ∃ t y, exec (.modeWr a) s = .next t ∧ groupOf t s.iss.uid g = some y ∧
      placesOf y = goneOn (liveTids x) (fun _ => nextOff s) (placesOf x) ∧
      let A := (uniVal x s.iss.spar.ax a).toNat
      y.fmode.toNat = (if A % 8 = 1 ∨ A % 8 = 2 ∨ A % 8 = 3 ∨ A % 8 = 4 then A % 8 else 1) + 8 * (A / 8 % 2)) ∧
    (GroupIssue s (.ctrRd d a) g x → ∃ t, exec (.ctrRd d a) s = .next t ∧
      let sel := rdReg s (.ctrsel x.core x.part a.toNat)
      GroupSends s t x g (128 * s.iss.spar.dx + d.toNat) 2
        (if bitN sel 31 = true ∧ bitN sel 30 = false ∧ fld sel 23 12 = x.dom
         then BitVec.ofNat 32 (((partOf (coreOf s x.core) x.part).counters[a.toNat]?).getD 0) else 0)) ∧
    (GroupIssue s (.ctrMark a) g x → ∃ t, exec (.ctrMark a) s = .next t ∧ GoesOn s t s.iss.uid g (liveTids x) (fun _ => nextOff s) ∧
      (bitN (rdReg s (.sring x.core x.slot)) 124 = false ∨ bitN (rdReg s (.sring x.core x.slot)) 127 = false → t.mem = s.mem) ∧
      (∀ u rd lost pa,
        let v := rdReg s (.sring x.core x.slot)
        let wr := ((coreOf s x.core).ringWr[x.slot]?).getD 0
        let cap := 2 ^ (fld v 120 117 + 6)
        bitN v 124 = true → bitN v 127 = true → unitOf s s.iss.uid = some u → MemoryGood s → x.slot < (coreOf s x.core).ringWr.length →
        ringPa s x.core x.slot (fld v 116 61 + 8) false = some rd → ringPa s x.core x.slot (fld v 116 61 + 16) true = some lost →
        ringPa s x.core x.slot (fld v 116 61 + 64 + 32 * (wr % cap)) true = some pa →
        if wr - numOf s rd 8 < cap ∧ (coreOf s x.core).ringRecs.length < 32 then
          BytesWritten s.mem t.mem pa (bytesOfNat 1 3 ++ bytesOfNat 1 0 ++ bytesOfNat 1 x.part ++ bytesOfNat 1 x.core ++ bytesOfNat 2 x.dom ++
            bytesOfNat 2 x.gidx ++ bytesOfNat 8 (issueVa s x) ++ bytesOfNat 8 (timeOf s x.core) ++ bytesOfNat 4 (uniVal x s.iss.spar.ax a).toNat ++
            bytesOfNat 2 u.lid ++ bytesOfNat 2 0) ∧
          ((coreOf t x.core).ringWr[x.slot]?) = some (wr + 1)
        else BytesWritten s.mem t.mem lost (bytesOfNat 8 (numOf s lost 8 + 1))))

open Sys2Proof Sys2Proof.Machine in
/-- R179, R98, R188, R189, R191, R194, R195: the group of these words stands at its word and waits; `sync.mwait` moreover puts an acquire load of 4 bytes
at die scope in the lead thread's queue and waits for the word to differ from B. -/
def Obligations.WaitingWords : Prop :=
  (∀ (s : State) (i : Instr) (p : Prop) (k : WaitKind) (g : Nat) (x : Group), WaitOp s x i p k → p → GroupIssue s i g x →
      ∃ t, exec i s = .next t ∧ Waits s t x g k ∧ t.mem = s.mem) ∧
  (∀ (s : State) (a b : BitVec 7) (g l : Nat) (x : Group) (h : Thread), GroupIssue s (.syncMwait a b) g x →
      minOf (liveTids x) = some l → threadOf x l = some h →
      let va := addrOf (uniVal x s.iss.spar.ax a) (valOf x .uniform (128 * s.iss.spar.ax + a.toNat + 1) 0) 0 4
      ∃ t y h' e, exec (.syncMwait a b) s = .next t ∧ groupOf t s.iss.uid g = some y ∧
        y.wait = ⟨.mwait va (uniVal x s.iss.spar.bx b) true, nextOff s, s.iss.clk, false⟩ ∧ placesOf y = placesOf x ∧
        threadOf y l = some h' ∧ h'.tq.map unsnapped = h.tq.map unsnapped ++ [e] ∧ e.kind = .mwaitLoad ∧ e.va = va ∧ e.size = 4 ∧
        e.ord = 1 ∧ e.scope = 4 ∧ t.mem = s.mem)

open Sys2Proof Sys2Proof.Machine in
/-- R95, R189: `sync.fence` puts a fence of its order and scope in every non-exited thread's queue and goes on; `sync.trig` puts
release fences at system scope there, goes on, and leaves its group with a trigger that is pending or made. R185, R333: `sync.bar` and `sync.arr` put release fences at unit scope in every non-exited thread's queue and one more pending arrival on
the barrier; the group of `sync.bar` waits, that of `sync.arr` goes on, but on a cell that counts the groups of a checked unit. `sync.wt`
waits while an arrival of its group on the barrier is pending or the phase of its last one has not completed, else it goes on. -/
def Obligations.FenceAndBarrierWords : Prop :=
  (∀ (s : State) (g : Nat) (x : Group),
      (∀ d a, GroupIssue s (.syncFence d a) g x →
        ∃ t y, exec (.syncFence d a) s = .next t ∧ groupOf t s.iss.uid g = some y ∧
          placesOf y = goneOn (liveTids x) (fun _ => nextOff s) (placesOf x) ∧ FencesPlaced x y a.toNat d.toNat ∧ t.mem = s.mem) ∧
      (GroupIssue s .syncTrig g x →
        ∃ t y, exec .syncTrig s = .next t ∧ groupOf t s.iss.uid g = some y ∧
          placesOf y = goneOn (liveTids x) (fun _ => nextOff s) (placesOf x) ∧ FencesPlaced x y 2 5 ∧ y.trigger ≠ 0 ∧ t.mem = s.mem)) ∧
  (∀ (s : State) (d : BitVec 7) (g : Nat) (x : Group) (u : DUnit), unitOf s s.iss.uid = some u →
      let arrives := fun (y : Group) => ∃ a : Arrival, a.bar = d.toNat ∧ y.arrs = x.arrs ++ [a]
      let checked := u.chk = true ∧ ∃ b, u.bars.find? (fun b => b.num == d.toNat) = some b ∧ b.zero = true
      (∀ i, (i = .syncBar d ∨ i = .syncArr d ∧ checked) → GroupIssue s i g x →
        ∃ t y, exec i s = .next t ∧ groupOf t s.iss.uid g = some y ∧ y.wait = ⟨.bar d.toNat none, nextOff s, s.iss.clk, false⟩ ∧
          placesOf y = placesOf x ∧ FencesPlaced x y 2 1 ∧ arrives y ∧ t.mem = s.mem) ∧
      (GroupIssue s (.syncArr d) g x → ¬checked →
        ∃ t y, exec (.syncArr d) s = .next t ∧ groupOf t s.iss.uid g = some y ∧ y.wait = x.wait ∧
          placesOf y = goneOn (liveTids x) (fun _ => nextOff s) (placesOf x) ∧ FencesPlaced x y 2 1 ∧ arrives y ∧ t.mem = s.mem) ∧
      (GroupIssue s (.syncWt d) g x →
        ∃ t y, exec (.syncWt d) s = .next t ∧ groupOf t s.iss.uid g = some y ∧ y.arrs = x.arrs ∧ t.mem = s.mem ∧
          if ∃ a ∈ x.arrs, a.bar = d.toNat then y.wait = ⟨.bar d.toNat none, nextOff s, s.iss.clk, false⟩ ∧ placesOf y = placesOf x
          else if ∃ b, u.bars.find? (fun b => b.num == d.toNat) = some b ∧ mget x.ar d.toNat = some b.ph
            then y.wait = ⟨.wt d.toNat, nextOff s, s.iss.clk, false⟩ ∧ placesOf y = placesOf x
            else y.wait = x.wait ∧ placesOf y = goneOn (liveTids x) (fun _ => nextOff s) (placesOf x)))
namespace Sys2Proof

open Sys2Proof.Machine

/-- Group `y` has one outstanding operation of a class more than `x` (R96): entry number `id` at the tail of the class's queue, of the word in
progress, not started, which waits for every store and atomic still in the queues of the threads `ts` (R97). -/
def Outstanding (s : State) (x y : Group) (cls : Nat) (ts : List Nat) (id arg : Nat) : Prop :=
  ∃ deps, y.oc = x.oc.set cls ((x.oc[cls]?).getD 0 + 1) ∧
    y.eq = x.eq.set cls ((x.eq[cls]?).getD [] ++ [⟨id, false, false, deps, 0, arg, false, s.iss.off / 4, s.iss.sparw, s.iss.word, s.iss.clk⟩]) ∧
    ∀ h ∈ x.threads, h.tid ∈ ts → ∀ e ∈ h.tq, (e.kind = .store ∨ ∃ f b c, e.kind = .atomic f b c) → e.id ∈ deps

/-- A range of core-local offsets lies in one buffer of the unit on the core (R63). -/
def InBuffer (u : DUnit) (core off n : Nat) : Prop := ∃ b ∈ u.bufs, b.core = core ∧ b.off ≤ off ∧ off + n ≤ b.off + b.size

/-- The words of the permutation register that a field names. -/
def permVal (x : Group) (f : BitVec 7) : List Word := (entryOf x .perm f.toNat 0).words

/-- The words that the route solver serves (R221, R223, R225, R226, R228): the register each writes (16 for none) and what it carries. -/
inductive SolverOp (s : State) (x : Group) : Instr → Nat → RtOp → Prop where
  | load (d a) : SolverOp s x (.pmLoad d a) d.toNat
      (.load ((liveTids x).map (fun k => (k, laneVal x s.iss.spar.ax a k))) ((x.threads.filter (fun h => h.exited)).map (fun h => h.tid)))
  | comp (d a b) : SolverOp s x (.pmComp d a b) d.toNat (.comp (permVal x a) (permVal x b))
  | rand (d a w) : SolverOp s x (.pmRand d a w) d.toNat
      (.rand (valOf x .uniform (128 * s.iss.spar.ax + a.toNat + 1) 0 ++ uniVal x s.iss.spar.ax a) (128 * s.iss.spar.ax + a.toNat) w.toNat)
  | save (d a) : SolverOp s x (.pmSave d a) 16 (.save (uniVal x s.iss.spar.dx d).toNat (permVal x a))
  | rest (d a) : SolverOp s x (.pmRest d a) d.toNat (.rest (uniVal x s.iss.spar.ax a).toNat)

/-- The words of the array (R206 to R210): the tile each names, whether it writes the tile, and what it carries to the array queue for
the threads `ts`. -/
inductive ArrayOp (s : State) (x : Group) (ts : List Nat) : Instr → BitVec 7 → Bool → MxOp → Prop where
  | mma (d a b) : ArrayOp s x ts (.mxMma d a b) d true (.mma ((List.range 4).map (fun k => valOf x .uniform (128 * s.iss.spar.ax + a.toNat + k) 0))
      (uniVal x s.iss.spar.bx b) (valOf x .uniform (128 * s.iss.spar.bx + b.toNat + 1) 0))
  | mmag (d a b) : ArrayOp s x ts (.mxMmag d a b) d true (.mmag (uniVal x s.iss.spar.ax a)
      (uniVal x s.iss.spar.bx b) (valOf x .uniform (128 * s.iss.spar.bx + b.toNat + 1) 0))
  | mcv (d a b) : ArrayOp s x ts (.mxMcv d a b) d true (.mcv ((List.range 6).map (fun k => valOf x .uniform (128 * s.iss.spar.ax + a.toNat + k) 0))
      (uniVal x s.iss.spar.bx b) (valOf x .uniform (128 * s.iss.spar.bx + b.toNat + 1) 0))
  | zero (d) : ArrayOp s x ts (.mxZero d) d true .zero
  | get (d a b) : ArrayOp s x ts (.mxGet d a b) a false (.get (128 * s.iss.spar.dx + d.toNat) (ts.map (fun k => (k, laneVal x s.iss.spar.bx b k))))
  | put (d a b) : ArrayOp s x ts (.mxPut d a b) d true (.put (ts.map (fun k => (k, laneVal x s.iss.spar.ax a k)))
      (ts.map (fun k => (k, laneVal x s.iss.spar.bx b k))))
  | sto (d a) : ArrayOp s x ts (.mxSto d a) d false (.sto ((List.range 3).map (fun k => valOf x .uniform (128 * s.iss.spar.ax + a.toNat + k) 0)))
  | rmax (d a) : ArrayOp s x ts (.mxRmax d a) a false (.rmax (128 * s.iss.spar.dx + d.toNat))
  | rscale (d a) : ArrayOp s x ts (.mxRscale d a) d true (.rscale (ts.map (fun k => (k, laneVal x s.iss.spar.ax a k))))

/-- `k` KiB of an operand buffer from KiB `st` on are free of the reservations (R191). -/
def RunFree (l : List Rsv) (k st : Nat) : Prop := st + k ≤ 192 ∧ ∀ j < k, ∀ r ∈ l, ¬ (r.start ≤ st + j ∧ st + j < r.start + r.size)

/-- A reservation slot is free (R191). -/
def SlotFree (l : List Rsv) (n : Nat) : Prop := 1 ≤ n ∧ n ≤ 32 ∧ ∀ r ∈ l, r.slot ≠ n

end Sys2Proof

open Sys2Proof Sys2Proof.Machine in
/-- R190, R96, R97: the words that hand a chain to a copy channel or the quantisation engine, where R190 admits the head and the domain may use the channel:
one operation more in the class, the chain behind those that wait for the channel, and the group goes on. R190, R96, R97: `eng.put` and `eng.get` in a unit that is not checked, where R190 admits the descriptor: one window operation more, and the
group goes on. -/
def Obligations.EngineWords : Prop :=
  (∀ (s : State) (i : Instr) (d a : BitVec 7) (ch cls g : Nat) (x : Group) (u : DUnit),
      (i = .engCopy d a ∧ ch = d.toNat ∧ cls = 0 ∧ ch < 4 ∧ bitN (dpCpch (rdReg s (.dpart x.core x.slot))) ch = true) ∨
        (i = .engQuant a ∧ ch = 4 ∧ cls = 2) →
      GroupIssue s i g x → unitOf s s.iss.uid = some u → (uniVal x s.iss.spar.ax a).toNat % 32 = 0 →
      InBuffer u x.core (uniVal x s.iss.spar.ax a).toNat 32 → (coreOf s x.core).chans.length = 5 →
      ∃ t y, exec i s = .next t ∧ groupOf t s.iss.uid g = some y ∧ placesOf y = goneOn (liveTids x) (fun _ => nextOff s) (placesOf x) ∧
        Outstanding s x y cls (liveTids x) s.seq (uniVal x s.iss.spar.ax a).toNat ∧
        (chanOf t x.core ch).run = (chanOf s x.core ch).run ∧
        (chanOf t x.core ch).waiting = (chanOf s x.core ch).waiting ++ [⟨s.iss.uid, g, s.seq, (uniVal x s.iss.spar.ax a).toNat, x.slot, x.dom⟩] ∧
        t.mem = s.mem) ∧
  (∀ (s : State) (i : Instr) (a : BitVec 7) (get g : Nat) (x : Group) (u : DUnit), (i = .engPut a ∧ get = 0) ∨ (i = .engGet a ∧ get = 2 ^ 32) →
      GroupIssue s i g x → unitOf s s.iss.uid = some u → u.chk = false → (uniVal x s.iss.spar.ax a).toNat % 64 = 0 →
      InBuffer u x.core (uniVal x s.iss.spar.ax a).toNat 64 →
      ∃ t y, exec i s = .next t ∧ groupOf t s.iss.uid g = some y ∧ placesOf y = goneOn (liveTids x) (fun _ => nextOff s) (placesOf x) ∧
        Outstanding s x y 4 (liveTids x) s.seq ((uniVal x s.iss.spar.ax a).toNat + get) ∧ t.mem = s.mem)

open Sys2Proof Sys2Proof.Machine in
/-- R221, R223, R225, R226, R228, R96, R97: the solver's words: one route-solver operation more, what it reads at issue behind those that wait for the
solver, and the group goes on. -/
def Obligations.SolverWords : Prop :=
  ∀ (s : State) (i : Instr) (dst g : Nat) (op : RtOp) (x : Group), SolverOp s x i dst op → GroupIssue s i g x →
    ∃ t y fr, exec i s = .next t ∧ groupOf t s.iss.uid g = some y ∧ placesOf y = goneOn (liveTids x) (fun _ => nextOff s) (placesOf x) ∧
      Outstanding s x y 3 (liveTids x) s.seq 0 ∧
      (coreOf t x.core).solverQ = (coreOf s x.core).solverQ ++ [⟨s.iss.uid, g, s.seq, dst, fr, op, s.iss.clk, 0, s.iss.spar.cc, []⟩] ∧ t.mem = s.mem

open Sys2Proof Sys2Proof.Machine in
/-- R222, R224, R227: `pm.ident` and `pm.inv` send a register's words, due two clocks on, and `pm.cyc` its number of cycles, due four clocks on, where a register
that is read holds a good saved form. -/
def Obligations.DirectPermutationWords : Prop :=
  ∀ (s : State) (d a : BitVec 7) (g : Nat) (x : Group),
    let sends := fun (i : Instr) (ws : List Word) => ∃ t, exec i s = .next t ∧
      Sends s t x.core ⟨s.seq, s.iss.uid, g, .perm, [(0, d.toNat, ws)], s.iss.clk + 2⟩ ∧ GoesOn s t s.iss.uid g (liveTids x) (fun _ => nextOff s)
    (GroupIssue s (.pmIdent d a) g x → sends (.pmIdent d a) (List.replicate 11 0 ++ [BitVec.ofNat 32 a.toNat])) ∧
    (GroupIssue s (.pmInv d a) g x → permOk (permVal x a) = true → sends (.pmInv d a) (permInverse (permVal x a))) ∧
    (GroupIssue s (.pmCyc d a) g x → permOk (permVal x a) = true → ∃ t, exec (.pmCyc d a) s = .next t ∧
      GroupSends s t x g (128 * s.iss.spar.dx + d.toNat) 4 (BitVec.ofNat 32 (cycleCount (permMap (permVal x a)))))

open Sys2Proof Sys2Proof.Machine in
/-- R218, R224: the inverse by reversed stages is the inverse of the register's map: an index goes out where it came in. R218 to R220: the settings that the
route solver makes of a permutation keep the saved form and realise it. -/
def Obligations.InverseByReversedStages : Prop :=
  (∀ ws : List Word, ws.length = 12 → permOk ws = true → permOk (permInverse ws) = true ∧ permSize (permInverse ws) = permSize ws ∧
    ∀ k < permSize ws, pAt (permMap ws) (pAt (permMap (permInverse ws)) k) = k ∧ pAt (permMap (permInverse ws)) (pAt (permMap ws) k) = k) ∧
  ∀ (c : Nat) (m : List Nat), c < 4 → m.length = 8 * 2 ^ c → m.Nodup → (∀ v ∈ m, v < 8 * 2 ^ c) →
    (permOf c m).length = 12 ∧ permOk (permOf c m) = true ∧ permSize (permOf c m) = 8 * 2 ^ c ∧ permMap (permOf c m) = m

open Sys2Proof Sys2Proof.Machine in
/-- R199, R206 to R210, R212, R96, R97: the array's words: one matrix operation more, what the word reads at issue behind those in the array
queue, stamped with the last clock of its issue, which for the two halves of a width-64 group is the second, and the threads go on. (That each group of a set
has its own entry is the model's choice, log 27.) -/
def Obligations.ArrayWords : Prop :=
  ∀ (s : State) (i : Instr) (tile : BitVec 7) (w : Bool) (op : MxOp) (g : Nat) (x : Group) (ts : List Nat),
    ArrayOp s x ts i tile w op → LaneIssue s i g x ts →
    let clk := s.iss.clk + (if x.width = 64 ∧ (∃ k ∈ ts, k < 32) ∧ (∃ k ∈ ts, 32 ≤ k) then 1 else 0)
    ∃ t y n pre post, exec i s = .next t ∧ groupOf t s.iss.uid g = some y ∧ placesOf y = goneOn ts (fun _ => nextOff s) (placesOf x) ∧
      n < s.iss.sets.length ∧ Outstanding s x y 1 ts (s.seq + n) 0 ∧
      (partOf (coreOf t x.core) x.part).mxq = (partOf (coreOf s x.core) x.part).mxq ++ pre ++ [⟨s.iss.uid, g, s.seq + n, tile.toNat, ts, op, clk⟩] ++ post ∧
      (∀ m ∈ pre ++ post, m.uid = s.iss.uid ∧ m.g ≠ g ∧ m.g ∈ s.iss.sets.map (·.1)) ∧ t.mem = s.mem

open Sys2Proof Sys2Proof.Machine in
/-- R191: `ob.rsv` takes the lowest free slot and the lowest free run of its size while its domain's share lasts, and writes the handle; else it
writes 0 and reserves nothing. -/
def Obligations.ReserveWord : Prop :=
  ∀ (s : State) (d a : BitVec 7) (g k : Nat) (x : Group), GroupIssue s (.obRsv d a) g x →
    k = (uniVal x s.iss.spar.ax a).toNat → 1 ≤ k → k ≤ 192 →
    let l := (partOf (coreOf s x.core) x.part).rsvs
    let room := ((l.filter (fun r => r.owner == x.slot)).map (fun r => r.size)).sum + k ≤ dpObuf (rdReg s (.dpart x.core x.slot))
    ∃ t, exec (.obRsv d a) s = .next t ∧ t.mem = s.mem ∧
      (∀ n st, room → SlotFree l n → (∀ m < n, ¬ SlotFree l m) → RunFree l k st → (∀ m < st, ¬ RunFree l k m) →
        GroupSends s t x g (128 * s.iss.spar.dx + d.toNat) 2 (BitVec.ofNat 32 (st * 2 ^ 16 + k * 2 ^ 8 + n)) ∧
        (partOf (coreOf t x.core) x.part).rsvs = l ++
          [⟨n, st, k, s.iss.uid, g, valOf x .uniform (128 * s.iss.spar.ax + a.toNat + 1) 0, x.slot, x.dom⟩]) ∧
      ((¬ room ∨ (∀ n, ¬ SlotFree l n) ∨ (∀ st, ¬ RunFree l k st)) →
        GroupSends s t x g (128 * s.iss.spar.dx + d.toNat) 2 0 ∧ (partOf (coreOf t x.core) x.part).rsvs = l)

namespace Sys2Proof

open Sys2Proof.Machine

/-- Entry `e` of thread `k`'s queue may take its step (R89, R94, R81, R319): no older entry of the queue blocks it, it is not parked, its line request
has been sent, and the group's queues are not halted. -/
structure MayTake (s : State) (uid g k id : Nat) (u : DUnit) (x : Group) (h : Thread) (e : TqEntry) : Prop where
  unit : unitOf s uid = some u
  group : groupOf s uid g = some x
  thread : threadOf x k = some h
  entry : h.tq.find? (fun e => e.id == id) = some e
  ready : e.parked = none
  goes : tqHalted s u x = false
  eligible : eligible s x h e = true
  line : lineWaits s x e = false

/-- The entry has left the thread's queue, and the others stand as they stood. -/
def LeftQueue (x y : Group) (k id : Nat) : Prop :=
  ∀ h, threadOf x k = some h → ∃ h', threadOf y k = some h' ∧ h'.tq.map unsnapped = (h.tq.filter (fun o => o.id != id)).map unsnapped

/-- The newest entry of the core's POOL that holds a byte and that a load of the unit reads (R90 T2, R94): one of another unit's interval only once it
is committed (R187). -/
def newestStore (s : State) (core uid b : Nat) : Option PoolEntry :=
  ((coreOf s core).pool.filter (fun p => (!p.buffered || p.after.isSome || p.uid == uid) && decide (p.pa ≤ b) && decide (b < p.pa + p.size))).getLast?

/-- A byte that a load may take (R90 T2, R86): the newest POOL entry's where one holds it, else a value of the coherence order no older than
the thread's floor. -/
def MayRead (s : State) (core uid : Nat) (h : Thread) (b : Nat) (v : Byte) : Prop :=
  match newestStore s core uid b with
  | some p => v = (p.data[b - p.pa]?).getD 0
  | none => ∃ i n, Nat.min (floorOf (coreOf s core) h b) (latestIx s b) ≤ i ∧ (cohOf s b)[i]? = some (n, v)

/-- What an atomic writes, from the old word, its operand and the expected word (R173). -/
def atNew (fn : Nat) (old b e : Word) : Option Word :=
  match fn with
  | 0 => some (BitVec.ofNat 32 (old.toNat + b.toNat))
  | 1 => some (if old.toInt < b.toInt then old else b)
  | 2 => some (if old.toInt > b.toInt then old else b)
  | 3 => some (if old.toNat < b.toNat then old else b)
  | 4 => some (if old.toNat > b.toNat then old else b)
  | 5 => some (old &&& b)
  | 6 => some (old ||| b)
  | 7 => some (old ^^^ b)
  | 8 => some b
  | 9 => if old = e then some b else none
  | _ => some (BitVec.ofNat 32 (fAdd f32 1 false old.toNat b.toNat))

/-- One name's entry of a thread takes the value of a write (R54): it is full if no other write of it is on its way. -/
def Takes (x y : Group) (c : NClass) (n k id : Nat) (ws : List Word) : Prop :=
  (entryOf y c n k).words = ws ∧ (entryOf y c n k).full = ((entryOf x c n k).q.filter (fun i => i != id)).isEmpty

/-- The name is bound and the thread's entry of it is held, not waiting for a drop. -/
def Bound (x : Group) (c : NClass) (n k : Nat) : Prop :=
  (∃ m, nameOf x c n = some m ∧ m.res ≠ [] ∧ entIx c k < m.entries.length) ∧ (entryOf x c n k).held = true ∧ (entryOf x c n k).drop = false

end Sys2Proof

open Sys2Proof Sys2Proof.Machine in
/-- R90 T1, T3, T4, R85, R89, R173, R187, R337: a store or atomic that passes its check moves into the core's POOL, an atomic keeping its place in its queue until it
performs; from the POOL onto its path, a committed store once the entries that it is to follow have performed (DESIGN CHOICE, log 58); and from its path it performs: its bytes stand in memory, every other byte as before, and an atomic's old
value goes to its load set. -/
def Obligations.StoreTransitions : Prop :=
  ∀ s : State,
    (∀ uid g k id u x h e pa, MayTake s uid g k id u x h e → e.kind.pools = true → e.pooled = false → drained s u x e = true →
      lowerLaneWaits s u x e = false → entryCheck s u x e = .ok pa → (bufferedPa u pa = true → e.kind = .store → (coreOf s x.core).cbuf + 1 ≤ 8192) →
      ∃ t y, exec (.storeToPool uid g k id) s = .next t ∧ groupOf t uid g = some y ∧ placesOf y = placesOf x ∧ t.mem = s.mem ∧
        (e.kind = .store → LeftQueue x y k id) ∧
        (e.kind ≠ .store → ∃ h', threadOf y k = some h' ∧ h'.tq.map unsnapped = h.tq.map (fun o => unsnapped (if o.id = id then { o with pooled := true } else o))) ∧
        (coreOf t x.core).pool = (coreOf s x.core).pool ++ [⟨e.id, uid, g, k, e.kind, e.va, pa, e.data, e.size, e.ord, e.scope, e.set, false,
          bufferedPa u pa && e.kind == .store, isHost pa, x.dom, e.widx, e.word, none⟩]) ∧
    (∀ core id p, (coreOf s core).pool.find? (fun p => p.id == id) = some p → p.onPath = false →
      (p.buffered = false ∧ p.after = none ∨ ∃ l, p.after = some l ∧ ∀ q ∈ (coreOf s core).pool, q.id ∉ l) →
      (∀ q ∈ (coreOf s core).pool.takeWhile (fun q => q.id != id), q.onPath = false → overlap q.pa q.size p.pa p.size = false) →
      ∃ t, exec (.poolToPath core id) s = .next t ∧ t.mem = s.mem ∧
        (coreOf t core).pool = (coreOf s core).pool.map (fun q => if q.id = id then { q with onPath := true } else q)) ∧
    (∀ core id p, (coreOf s core).pool.find? (fun p => p.id == id) = some p → p.onPath = true → MemoryGood s →
      (∀ q ∈ (coreOf s core).pool.takeWhile (fun q => q.id != id), overlap q.pa q.size p.pa p.size = false) →
      (p.kind = .store → ∃ t, exec (.performAtHome core id) s = .next t ∧ BytesWritten s.mem t.mem p.pa p.data ∧
        (coreOf t core).pool = (coreOf s core).pool.filter (fun q => q.id != id)) ∧
      (∀ fn b e, p.kind = .atomic fn b e → p.pa + 4 ≤ 2 ^ 52 → (∀ j < 4, (p.pa + j) / 64 ∉ s.poison) →
        ∃ t, exec (.performAtHome core id) s = .next t ∧
          let old := wordAt ((List.range 4).map (fun j => Memory.read s.mem (p.pa + j))) 0
          BytesWritten s.mem t.mem p.pa (match atNew fn old b e with | some v => bytesOfNat 4 v.toNat | none => []) ∧
          (coreOf t core).pool = (coreOf s core).pool.filter (fun q => q.id != id) ∧
          (∀ x, groupOf s p.uid p.g = some x → ∃ y, groupOf t p.uid p.g = some y ∧ LeftQueue x y p.t id) ∧
          ∀ l ∈ (coreOf s core).loads, l.id = p.set → l.uid = p.uid → ∃ l' ∈ (coreOf t core).loads, l'.id = l.id ∧
            ∀ m ∈ l.mem, m.1 = (p.g, p.t) → (m.1, some [old], false) ∈ l'.mem))

open Sys2Proof Sys2Proof.Machine in
/-- R54, R151, R171: a result whose time has come, and the results of a load set whose threads all have theirs, the clock after the last of them, are written to their entries, each the next
write of its entry; every entry that they do not name keeps its value and its full bit, and no byte of memory changes. -/
def Obligations.ResultsArrive : Prop :=
  ∀ s : State,
    (∀ core id p x, (coreOf s core).pend.find? (fun p => p.id == id) = some p → groupOf s p.uid p.g = some x → p.due ≤ (coreOf s core).clk →
      nextWrite x p.cls (p.vals.map (fun v => (v.1, v.2.1))) id = true → (p.vals.map (fun v => (entIx p.cls v.1, v.2.1))).Nodup →
      (∀ v ∈ p.vals, Bound x p.cls v.2.1 v.1) →
      ∃ t y, exec (.resultWrite core id) s = .next t ∧ groupOf t p.uid p.g = some y ∧ placesOf y = placesOf x ∧ t.mem = s.mem ∧
        (∀ v ∈ p.vals, Takes x y p.cls v.2.1 v.1 id v.2.2) ∧
        (∀ c n k, (∀ v ∈ p.vals, c = p.cls → n = v.2.1 → entIx c k ≠ entIx p.cls v.1) → entryOf y c n k = entryOf x c n k) ∧
        (coreOf t core).pend = (coreOf s core).pend.filter (fun q => !(q.id == id && q.uid == p.uid && q.g == p.g))) ∧
    (∀ core l g x, (coreOf s core).loads.find? (fun r => r.id == l.id) = some l → l.uniform = false → loadReady s l = true → l.last < clkOf s core → l.dsts.Nodup →
      (l.mem.map (fun m => m.1)).Nodup → groupOf s l.uid g = some x →
      (∀ m ∈ l.mem, m.1.1 = g → m.2.1 ≠ none → ∀ n ∈ l.dsts, Bound x .lane n m.1.2) →
      ∃ t y, exec (.loadComplete core l.id) s = .next t ∧ groupOf t l.uid g = some y ∧ placesOf y = placesOf x ∧ t.mem = s.mem ∧
        (∀ m ∈ l.mem, m.1.1 = g → ∀ ws, m.2.1 = some ws → ∀ nv ∈ l.dsts.zip ws, Takes x y .lane nv.1 m.1.2 l.id [nv.2]) ∧
        (∀ c n k, (c = .lane → n ∈ l.dsts → ∀ m ∈ l.mem, m.1 = (g, k) → m.2.1 = none) → entryOf y c n k = entryOf x c n k))

open Sys2Proof Sys2Proof.Machine in
/-- R90 T2, T5, R86, R92, R75, R81, R82, R185: a load that passes its check, with no atomic of its core to its bytes in the POOL, leaves its queue and takes each
byte from the newest store of the POOL that holds it, or where none does a value of the coherence order no older than the floor; two loads of one
word that share bytes take them together, with one value for each byte. A fence leaves its queue, and its acquire raises the thread's floors to the
latest values; the last fence of an arrival sets the clock in which it counts. The coalescer sends its next line request, one in a clock, where the
miss-status entries last; a walk that finds a translation leaves it in the core's and the die's TLB. (When a miss-status entry is free, and that
a line address is virtual, are the model's choices, logs 23, 103, 104.) -/
def Obligations.LoadFenceAndRequestTransitions : Prop :=
  (∀ s : State,
      (∀ uid g k id choices u x h e wp pa l, MayTake s uid g k id u x h e → e.kind = .load wp → entryCheck s u x e = .ok pa → pa < 2 ^ 52 → MemoryGood s →
        (∀ p ∈ (coreOf s x.core).pool, overlap p.pa p.size pa e.size = true → p.kind = .store) →
        (∀ j < e.size, newestStore s x.core uid (pa + j) = none → (pa + j) / 64 ∉ s.poison ∧ cohOf s (pa + j) ≠ []) →
        (coreOf s x.core).loads.filter (fun r => r.id == e.set) = [l] → l.uid = uid → l.uniform = false →
        (satisfiedWith s u x h e pa = [⟨x, h, e, pa⟩] →
          ∃ t y bs, exec (.loadSatisfy uid g k id choices) s = .next t ∧ groupOf t uid g = some y ∧ LeftQueue x y k id ∧ t.mem = s.mem ∧ bs.length = e.size ∧
            (∀ j < e.size, MayRead s x.core uid h (pa + j) ((bs[j]?).getD 0)) ∧
            (coreOf t x.core).loads.filter (fun r => r.id == e.set) =
              [{ l with last := clkOf s x.core, mem := l.mem.map (fun m => if m.1 = (g, k) then (m.1, some (loadWords l.fn bs), false) else m) }]) ∧
        (∀ k' h' e' pa', k' ≠ k → threadOf x k' = some h' → e'.kind = .load wp → mayLoad s u ⟨x, h', e', pa'⟩ = true →
          (∀ j < e'.size, newestStore s x.core uid (pa' + j) = none → (pa' + j) / 64 ∉ s.poison ∧ cohOf s (pa' + j) ≠ []) →
          (satisfiedWith s u x h e pa = [⟨x, h, e, pa⟩, ⟨x, h', e', pa'⟩] ∨ satisfiedWith s u x h e pa = [⟨x, h', e', pa'⟩, ⟨x, h, e, pa⟩]) →
          ∃ t bs bs', exec (.loadSatisfy uid g k id choices) s = .next t ∧ t.mem = s.mem ∧ bs.length = e.size ∧ bs'.length = e'.size ∧
            (∀ j j', j < e.size → j' < e'.size → pa + j = pa' + j' → bs[j]? = bs'[j']?) ∧
            (coreOf t x.core).loads.filter (fun r => r.id == e.set) =
              [{ l with last := clkOf s x.core, mem := l.mem.map (fun m => if m.1 = (g, k) then (m.1, some (loadWords l.fn bs), false)
                else if m.1 = (g, k') then (m.1, some (loadWords l.fn bs'), false) else m) }])) ∧
      (∀ uid g k id u x h e, MayTake s uid g k id u x h e → e.kind = .fence → drained s u x e = true →
        ∃ t y h', exec (.fenceRemove uid g k id) s = .next t ∧ groupOf t uid g = some y ∧ LeftQueue x y k id ∧ t.mem = s.mem ∧ threadOf y k = some h' ∧
          h'.floors = (if (e.ord = 1 ∨ e.ord = 3) ∧ (e.scope = 1 ∨ e.scope = 3 ∨ e.scope = 4 ∨ e.scope = 5)
            then s.coh.map (fun c => (c.1, c.2.length - 1)) else h.floors) ∧
          (∀ a ∈ x.arrs, a.tag = e.tag → a.due = none → fencesDone y a.tag = true →
            { a with due := some (slowerCore s x.core u.home, clkOf s (slowerCore s x.core u.home) + (if x.core = u.home then 2 else 8)) } ∈ y.arrs))) ∧
  (∀ s : State,
      (∀ core part line mask rest, (partOf (coreOf s core) part).lines = (line, mask) :: rest → (partOf (coreOf s core) part).portFree ≤ clkOf s core →
        let o := (partOf (coreOf s core) part).lineOf
        let miss := if o.2.2.2 = 0 then missSectors s core o.2.1 (domAsid (rdReg s (.domtab core o.2.1))) line mask else []
        ((mshrLive s core).length + miss.length ≤ 512 →
          ∃ t, exec (.lineRequest core part) s = .next t ∧ (partOf (coreOf t core) part).lines = rest ∧
            (coreOf t core).mshr = mshrLive s core ++ miss.map (fun sec => (o.2.1, sec)) ∧
            (partOf (coreOf t core) part).portFree = clkOf s core + 1 ∧ t.mem = s.mem) ∧
        (512 < (mshrLive s core).length + miss.length → exec (.lineRequest core part) s = .next s)) ∧
      (∀ core asid va e, MemoryGood s → walk s (dieOfCore core) asid va = .ok e →
        ∃ t, exec (.translationWalk core asid va) s = .next t ∧ e ∈ (coreOf t core).tlb ∧ e ∈ (dieOf t (dieOfCore core)).tlb ∧ t.mem = s.mem))
namespace Sys2Proof

open Sys2Proof.Machine

/-- The latest index of every location that has been written (R86): what an acquire raises a thread's floors to (R92). -/
def latestFloors (s : State) : NMap Nat := s.coh.map (fun c => (c.1, c.2.length - 1))

/-- The group has left its waiting word (R179): it waits no more, and its non-exited threads stand at an offset. -/
def Resumes (x y : Group) (off : Nat) : Prop :=
  y.wait = ⟨.none, 0, 0, false⟩ ∧ y.threads.map (fun h => (h.tid, h.exited, h.off)) = x.threads.map (fun h => (h.tid, h.exited, if h.exited then h.off else off))

/-- Every non-exited thread of the group has acquired (R92, R98, R185). -/
def Acquired (s : State) (y : Group) : Prop := ∀ h ∈ y.threads, h.exited = false → h.floors = latestFloors s

/-- The unit and the group of a waiting word, in a group that takes releases (R319, R349). -/
structure MayRelease (s : State) (uid g : Nat) (u : DUnit) (x : Group) : Prop where
  unit : unitOf s uid = some u
  group : groupOf s uid g = some x
  free : canRelease s u x = true

/-- The caller's state that the gable stack keeps (R194). -/
def CallerKept (x : Group) (f : GableFrame) : Prop :=
  f.slot = x.slot ∧ f.kernel = x.kernel ∧ f.fmode = x.fmode ∧ f.dom = x.dom ∧ f.asid = x.asid ∧ f.next = x.wait.next

/-- All names of a callee fit at once (R59, R194): those of its share masks are held by the caller, its own lane names take no more than the RROWS rows and its
own uniform names no more than the RUNI entries of its descriptor, and the core's spilled directory has room; units and groups have their own numbers. -/
structure CalleeFits (s : State) (x : Group) (d : Gable) (k : Kernel) : Prop where
  shared : ∀ c n, sharedIn d c n = true → nameOf x c n ≠ none
  held : ∀ m ∈ x.names, sharedIn d m.cls m.num = true → ∃ e ∈ m.entries, e.held = true
  once : (k.names.map (fun r => (r.cls, r.num))).Nodup
  rows : bindSize x.width .lane * ((declared k .lane).filter (fun r => !sharedIn d .lane r.num)).length ≤ rowsFor x d.rrows
  uniforms : ((declared k .uniform).filter (fun r => !sharedIn d .uniform r.num)).length ≤ d.runi
  single : ∀ h ∈ holders s x.core x.part .uniform, h.name.res.length = 1
  directory : spilledOn s x.core ≤ 8192
  units : (s.units.map (fun u => u.uid)).Nodup ∧ ∀ u ∈ s.units, (u.groups.map (fun y => y.gidx)).Nodup

end Sys2Proof

open Sys2Proof Sys2Proof.Machine in
/-- R98, R188, R189, R191: a group that waits in `sync.dwait`, `sync.oc`, `ob.rel` or `ob.rec` is released when its condition holds, with an acquire
where the rule gives one, and the reservation is freed or its record replaced; a woken or timed-out `sync.mwait` loads its word again. R184, R185, R189: an arrival counts in the clock that the end of its fences set, and completes the phase when the cell's count reaches its target (on a cell that counts the
groups of a checked unit the commit step decides, so that clause leaves it out); the group's record of the barrier is the phase it arrived in. A group of
`sync.trig` is marked triggered once its fences are done. -/
def Obligations.WaitsArrivalsAndTriggers : Prop :=
  (∀ (s : State) (uid g : Nat) (u : DUnit) (x : Group), MayRelease s uid g u x →
      (x.wait.kind = .dwait → (∀ p ∈ u.prods, ∀ l, s.hub.launches.find? (fun l => l.order == p) = some l → l.triggered = true) →
        ∃ t y, exec (.dwaitRelease uid g) s = .next t ∧ groupOf t uid g = some y ∧ Resumes x y x.wait.next ∧ Acquired s y ∧ t.mem = s.mem) ∧
      (∀ cls n, x.wait.kind = .oc cls n → (x.oc[cls]?).getD 0 ≤ n →
        ∃ t y, exec (.ocWaitRelease uid g) s = .next t ∧ groupOf t uid g = some y ∧ Resumes x y x.wait.next ∧ Acquired s y ∧ t.mem = s.mem) ∧
      (∀ slot, x.wait.kind = .obRel slot → (x.oc[1]?).getD 0 = 0 →
        ∃ t y, exec (.obReleaseFree uid g) s = .next t ∧ groupOf t uid g = some y ∧ Resumes x y x.wait.next ∧ t.mem = s.mem ∧
          (partOf (coreOf t x.core) x.part).rsvs = (partOf (coreOf s x.core) x.part).rsvs.filter (fun r => !(r.uid == uid && r.g == g && r.slot == slot))) ∧
      (∀ slot w, x.wait.kind = .obRec slot w → (x.oc[1]?).getD 0 = 0 →
        ∃ t y, exec (.obRecordReplace uid g) s = .next t ∧ groupOf t uid g = some y ∧ Resumes x y x.wait.next ∧ t.mem = s.mem ∧
          (partOf (coreOf t x.core) x.part).rsvs = (partOf (coreOf s x.core) x.part).rsvs.map (fun r =>
            if r.uid = uid ∧ r.g = g ∧ r.slot = slot then { r with record := w } else r)) ∧
      (∀ i va cmp l h, (i = .mwaitWake uid g ∧ x.wait.woken = true) ∨ (i = .mwaitTimeout uid g ∧ x.wait.since + 65536 ≤ clkOf s x.core) →
        x.wait.kind = .mwait va cmp false → minOf (liveTids x) = some l → threadOf x l = some h →
        ∃ t y h' e, exec i s = .next t ∧ groupOf t uid g = some y ∧ y.wait.kind = .mwait va cmp true ∧ y.wait.next = x.wait.next ∧ placesOf y = placesOf x ∧
          threadOf y l = some h' ∧ h'.tq.map unsnapped = h.tq.map unsnapped ++ [e] ∧ e.kind = .mwaitLoad ∧ e.va = va ∧ e.size = 4 ∧ t.mem = s.mem)) ∧
  (∀ (s : State) (uid g : Nat) (u : DUnit) (x : Group), unitOf s uid = some u → groupOf s uid g = some x →
      (∀ n a b, u.cancel = 0 → u.rollPhase = 0 → x.arrs.find? (fun a => a.bar == n) = some a → u.bars.find? (fun b => b.num == n) = some b →
        (u.chk && b.zero) = false → (∃ c n, a.due = some (c, n) ∧ n ≤ clkOf s c) →
        ∃ t y v c, exec (.barrierArrival uid g n) s = .next t ∧ groupOf t uid g = some y ∧ unitOf t uid = some v ∧ v.bars.find? (fun b => b.num == n) = some c ∧
          (c.ph, c.cnt) = (if b.cnt + 1 = b.tgt then ((b.ph + 1) % 2 ^ 32, 0) else (b.ph, b.cnt + 1)) ∧
          mget y.ar n = some b.ph ∧ y.arrs = x.arrs.filter (fun c => c.tag != a.tag) ∧ placesOf y = placesOf x ∧ t.mem = s.mem) ∧
      (2 ≤ x.trigger → fencesDone x (x.trigger - 2) = true →
        ∃ t, exec (.groupTriggered uid g) s = .next t ∧ groupOf t uid g = some { x with trigger := 1 } ∧ t.mem = s.mem))

open Sys2Proof Sys2Proof.Machine in
/-- R194, R195, R308: where no result of the group is on its way, a gable call places system release fences once every counter is 0, and once they are done takes GATE 1 for an index that the gable table
does not hold, or enters the callee: the caller's slot, kernel, mode word and next word stand on the gable stack, the mode word is its reset value
and the threads stand at the entry; the names of its share masks are the caller's, its other names are its own, charged to its slot, and where all of them fit
those that are live at word index 0 hold their resources, empty (a callee whose names do not bind waits again, the model's choice, log 119). A return places its fences likewise, and then the caller
goes on where it left. -/
def Obligations.GableCallsAndReturns : Prop :=
  ∀ (s : State) (uid g : Nat) (u : DUnit) (x : Group), MayRelease s uid g u x → resultsDue s uid g x.core = false →
    (∀ i k k', (i = .gateCallEntry uid g ∧ (∃ n, k = .gateCall n 0 ∧ k' = .gateCall n s.seq) ∨ i = .gateReturn uid g ∧ k = .gateRet 0 ∧ k' = .gateRet s.seq) →
      x.wait.kind = k → (∀ n ∈ x.oc, n = 0) →
      ∃ t y, exec i s = .next t ∧ groupOf t uid g = some y ∧ y.wait.kind = k' ∧ FencesPlaced x y 2 5 ∧ placesOf y = placesOf x ∧ t.mem = s.mem) ∧
    (∀ n tag, x.wait.kind = .gateCall n tag → tag ≠ 0 → fencesDone x tag = true → domGsize (rdReg s (.domtab x.core x.slot)) ≤ n →
      x.trap = none → (∀ h ∈ x.threads, h.inHandler = false) → (∃ h ∈ x.threads, h.exited = false) →
      ∃ t y r, exec (.gateCallEntry uid g) s = .next t ∧ groupOf t uid g = some y ∧ y.wait.kind = .none ∧ placesOf y = placesOf x ∧ y.trap = some r ∧
        r.cond.cause = 0x08 ∧ r.cond.detail = 1) ∧
    (∀ n tag pa d sl k, x.wait.kind = .gateCall n tag → tag ≠ 0 → fencesDone x tag = true → n < domGsize (rdReg s (.domtab x.core x.slot)) →
      memCheck s x.core x.asid .engRead false (domGbase (rdReg s (.domtab x.core x.slot)) + 64 * n) 64 = .ok pa → d = gableOf (homeRead s pa 64) →
      gableCheck s x n d = .ok (sl, k) → gableRoom s x d sl = true →
      ∃ t y, exec (.gateCallEntry uid g) s = .next t ∧ groupOf t uid g = some y ∧ t.mem = s.mem ∧
        (CalleeFits s x d k → y.gstack.length ≠ x.gstack.length ∧
          (∀ c n m, sharedIn d c n = true → nameOf x c n = some m → nameOf y c n = some { m with shared := true }) ∧
          (∀ r ∈ k.names, sharedIn d r.cls r.num = false → ∃ m, nameOf y r.cls r.num = some m ∧ m.spilled = false ∧
            ((m.res = []) ↔ (liveAt r 0 = false ∨ r.cls = .perm ∨ r.cls = .acc)) ∧ ∀ e ∈ m.entries, e.full = false ∧ e.held = false)) ∧
        (y.gstack.length ≠ x.gstack.length → (∃ f rest, y.gstack = f :: rest ∧ rest.length = x.gstack.length ∧ CallerKept x f ∧ y.slot = sl ∧
            y.kernel = k ∧ y.dom = d.tdom ∧ y.fmode = 1 ∧ Resumes x y (4 * d.entry) ∧
            ∀ c n, (∃ m ∈ x.names, m.cls = c ∧ m.num = n) → sharedIn d c n = false → ∃ m ∈ f.names, m.cls = c ∧ m.num = n) ∧
          (∀ c n, sharedIn d c n = true → ∃ m, nameOf y c n = some m ∧ m.shared = true) ∧
          (∀ r ∈ k.names, sharedIn d r.cls r.num = false → ∃ m, nameOf y r.cls r.num = some m ∧ m.shared = false ∧ m.owner = sl) ∧
          (∀ c n, sharedIn d c n = false → (∀ r ∈ k.names, r.cls = c → r.num ≠ n) → nameOf y c n = none))) ∧
    (∀ tag f rest, x.wait.kind = .gateRet tag → tag ≠ 0 → x.wait.woken = false → fencesDone x tag = true → x.gstack = f :: rest →
      slotRuns s x.core f.slot = true →
      ∃ t y, exec (.gateReturn uid g) s = .next t ∧ groupOf t uid g = some y ∧ y.gstack = rest ∧ y.slot = f.slot ∧ y.kernel = f.kernel ∧ y.dom = f.dom ∧
        y.asid = f.asid ∧ y.fmode = f.fmode ∧ Resumes x y f.next ∧ Acquired s y ∧ t.mem = s.mem)

open Sys2Proof Sys2Proof.Machine in
/-- R298 to R306: the frame of a trap is written where R299 puts it once the group's words have completed and the clock has passed; the handler is entered the clock after, at word
index HNDL, with an acquire, the frame's address in k254 and k255 where the kernel declares them, and GRP.FMODE and the gable stack as they
were; the oldest held condition is taken as a trap once the group has left the handler; a stop broadcast that has reached a group is its trap,
a fatal one for a fatal stop. -/
def Obligations.TrapsTaken : Prop :=
  ∀ (s : State) (uid g : Nat) (u : DUnit) (x : Group), unitOf s uid = some u → groupOf s uid g = some x →
    (∀ r va pa, x.trap = some r → r.frame = 0 → r.ready = true → r.dbg = 0 → wordsDone s u x = true → u.cancel = 0 → MemoryGood s →
      (r.bcast = true → x.pause = none) → frameVa s x = some va → vlocOf va = .mapped →
      memCheck s x.core x.asid .engWrite false va 2048 = .ok pa →
      ∃ t y, exec (.trapFrameWrite uid g) s = .next t ∧ groupOf t uid g = some y ∧ placesOf y = placesOf x ∧
        BytesWritten s.mem t.mem pa (frameBytes u x r (standsAtGroupWord s x)) ∧
        (r.fatal = false ∨ x.gstack = [] → y.trap = some { r with frame := 1, frameClk := clkOf s x.core })) ∧
    (∀ r, x.trap = some r → r.frame = 1 → r.fatal = false → r.frameClk < clkOf s x.core → canRelease s u x = true → x.dbg.mode = 0 → u.rollPhase = 0 →
      x.stopAt = none →
      ∃ t y, exec (.handlerEntry uid g) s = .next t ∧ groupOf t uid g = some y ∧ Resumes x y (4 * x.kernel.hndl) ∧ Acquired s y ∧ y.trap = none ∧
        (∀ h ∈ y.threads, h.exited = false → h.inHandler = true) ∧ y.fmode = x.fmode ∧ y.gstack.length = x.gstack.length ∧ t.mem = s.mem ∧
        ∀ m n, nameOf x .uniform 254 = some m → nameOf x .uniform 255 = some n → m.entries ≠ [] → n.entries ≠ [] →
          (valOf y .uniform 255 0 ++ valOf y .uniform 254 0).toNat = ((frameVa s x).getD 0) % 2 ^ 64) ∧
    (∀ c, x.trap = none → inHandler x = false → x.dbg.mode = 0 → u.cancel = 0 → threadHeld x = [] → oldestCond x.heldConds = some c →
      ∃ t y r, exec (.heldTrapTaken uid g) s = .next t ∧ groupOf t uid g = some y ∧ y.trap = some r ∧ r.cond = c ∧ r.frame = 0 ∧
        y.heldConds = x.heldConds.filter (fun d => d != c) ∧ placesOf y = placesOf x ∧ t.mem = s.mem) ∧
    (∀ d c, x.stopAt = some (d, c, 1) → c ≤ clkOf s d →
      ∃ t y r, exec (.stopBroadcastArrival uid g) s = .next t ∧ groupOf t uid g = some y ∧ y.stopAt = none ∧ y.trap = some r ∧ r.fatal = true ∧
        placesOf y = placesOf x ∧ t.mem = s.mem) ∧
    (∀ d c k, x.stopAt = some (d, c, k) → k ≠ 1 → c ≤ clkOf s d → x.trap = none →
      ∃ t y r, exec (.stopBroadcastArrival uid g) s = .next t ∧ groupOf t uid g = some y ∧ y.stopAt = none ∧ y.trap = some r ∧ r.fatal = false ∧
        r.cond.cause = 0x30 ∧ r.cond.detail = 2 ∧ r.dbg = u.dbgSrc ∧ placesOf y = placesOf x ∧ t.mem = s.mem)

namespace Sys2Proof

open Sys2Proof.Machine

/-- The clock step of a core's cluster (R4, R288). -/
def clusterStep (s : State) (core : Nat) : Nat := fld (rdReg s (.dvfs (dieOfCore core) (core % 28 / 4))) 35 32

end Sys2Proof

open Sys2Proof Sys2Proof.Machine in
/-- R307, R33: a unit whose stop has reached every group, each with its last frame written, ends with its twin: their queues, parked entries and unstarted
commands are gone. R187, R332, R333, R337: a checked pair that has ended with equal signatures finally commits: the primary's buffered stores
are to perform, each of a core after the entries of its POOL that are to perform already and after the committed ones before it (that they are numbered so is
the model's choice, log 58), and the twin's are gone; with unequal ones both twins begin a rollback (R336), while retries last. A rollback goes back to the
checkpoint 64 cycles on, by the slower clock of the pair's clusters: threads, cells and scratchpad bytes as they were, nothing issued left but committed stores;
and the groups of both twins run again 32 cycles after that. -/
def Obligations.UnitsStopAndRollBack : Prop :=
  ∀ (s : State) (uid : Nat) (u : DUnit), unitOf s uid = some u →
    (u.fatalClk ≠ none → u.cancel = 0 → (∀ v ∈ pairOf s uid, ∃ w, unitOf s v = some w ∧ w.groups.all frameSettled = true) →
      ∃ t, exec (.fatalUnitEnd uid) s = .next t ∧ ∀ v ∈ pairOf s uid, ∃ w a, unitOf s v = some w ∧ unitOf t v = some a ∧ a.cancel = 2 ∧
        a.groups.map (fun x => (x.gidx, x.eq)) = w.groups.map (fun x => (x.gidx, x.eq.map (fun q => q.filter (fun e => e.started)))) ∧
        (∀ x ∈ a.groups, x.trap = none ∧ x.stopAt = none ∧ x.arrs = [] ∧ ∀ h ∈ x.threads, h.tq = [] ∧ h.aside = [] ∧ h.cond = none) ∧
        ∀ c, (∀ p ∈ (coreOf t c).pool, ¬ (p.buffered = true ∧ p.after = none ∧ p.uid = v)) ∧ (∀ o ∈ (coreOf t c).solverQ, o.uid ≠ v) ∧
          (∀ ch ∈ (coreOf t c).chans, ∀ r ∈ ch.waiting, r.uid ≠ v) ∧ ∀ n, ∀ m ∈ (partOf (coreOf t c) n).mxq, m.uid ≠ v) ∧
    (∀ v w, u.twin = some v → v ≠ uid → unitOf s v = some w → w.twin = some uid → u.chk = true → w.primary = !u.primary →
      (∀ d, d = u ∨ d = w → d.rollPhase = 0 ∧ d.cancel = 0 ∧ ∀ x ∈ d.groups, x.ended = true ∧ (∀ n ∈ x.oc, n = 0) ∧ (∀ h ∈ x.threads, h.tq = []) ∧
        (∀ l ∈ (coreOf s x.core).loads, l.uid = d.uid → ∀ m ∈ l.mem, m.1.1 ≠ x.gidx) ∧ ∀ p ∈ (coreOf s x.core).pend, p.uid = d.uid → p.g ≠ x.gidx) →
      (unitSig u = unitSig w → ∀ p q, p = (if u.primary then u else w) → q = (if u.primary then w else u) →
        (∀ c, ((coreOf s c).pool.map (fun e => e.id)).Nodup) → (unitCores p).Nodup →
        ∃ t a b, exec (.finalCommit uid) s = .next t ∧ unitOf t uid = some a ∧ unitOf t v = some b ∧ a.rollPhase = 3 ∧ b.rollPhase = 3 ∧ t.mem = s.mem ∧
          (∀ c ∈ unitCores q, ∀ e ∈ (coreOf t c).pool, e.uid = q.uid → e.buffered = true → e.after ≠ none) ∧
          (∀ c ∈ unitCores p, ∀ pre e post, (coreOf s c).pool = pre ++ e :: post → e.uid = p.uid → e.buffered = true → e.after = none →
            ∃ l, { e with after := some l } ∈ (coreOf t c).pool ∧ ∀ n, n ∈ l ↔
              (∃ d ∈ (coreOf s c).pool, d.id = n ∧ (d.buffered = false ∨ d.after ≠ none)) ∨ ∃ d ∈ pre, d.id = n ∧ d.uid = p.uid ∧ d.buffered = true ∧ d.after = none)) ∧
      (unitSig u ≠ unitSig w → u.rolls < retryOf s u.home →
        ∃ t a b, exec (.finalCommit uid) s = .next t ∧ unitOf t uid = some a ∧ unitOf t v = some b ∧ a.rollPhase = 1 ∧ b.rollPhase = 1 ∧
          a.rolls = u.rolls + 1 ∧ b.rolls = w.rolls + 1 ∧ a.rollClk = b.rollClk ∧ a.rollClk.2 = clkOf s a.rollClk.1 + 64 ∧ t.mem = s.mem ∧
          ∀ x ∈ u.groups ++ w.groups, clusterStep s a.rollClk.1 ≤ clusterStep s x.core)) ∧
    (∀ v w k j, u.twin = some v → v ≠ uid → unitOf s v = some w → u.rollPhase = 1 → u.rollClk.2 ≤ clkOf s u.rollClk.1 →
      startedEnded s uid = true → startedEnded s v = true → u.ckpt = some k → w.ckpt = some j →
      ∃ t a b, exec (.rollbackReplay uid) s = .next t ∧ unitOf t uid = some a ∧ unitOf t v = some b ∧ a.rollPhase = 2 ∧ b.rollPhase = 2 ∧
        a.groups.map (fun x => (x.gidx, placesOf x, x.fmode, x.wait)) = k.groups.map (fun x => (x.gidx, placesOf x, x.fmode, x.wait)) ∧
        b.groups.map (fun x => (x.gidx, placesOf x, x.fmode, x.wait)) = j.groups.map (fun x => (x.gidx, placesOf x, x.fmode, x.wait)) ∧
        (∀ c, (∀ p ∈ (coreOf t c).pool, p.after = none → p.uid ≠ uid ∧ p.uid ≠ v) ∧ (∀ l ∈ (coreOf t c).loads, l.uid ≠ uid ∧ l.uid ≠ v) ∧
          ∀ p ∈ (coreOf t c).pend, p.uid ≠ uid ∧ p.uid ≠ v) ∧
        t.mem = j.scratch.foldr (fun e m => Memory.writeAll m e.1 e.2) (k.scratch.foldr (fun e m => Memory.writeAll m e.1 e.2) s.mem)) ∧
    (u.rollPhase = 2 → u.rollClk.2 ≤ clkOf s u.rollClk.1 →
      ∃ t, exec (.rollbackResume uid) s = .next t ∧ t.mem = s.mem ∧ ∀ v ∈ pairOf s uid, ∀ w, unitOf s v = some w →
        unitOf t v = some { w with rollPhase := 0, rollClk := (0, 0) })

namespace Sys2Proof

open Sys2Proof.Machine

/-- A register value holds the fields `fs` of a written value and 0 elsewhere (R5, R6). -/
def Holds (w v : Nat) (fs : List (Nat × Nat)) : Prop := ∀ n, bitN w n = (fs.any (fun f => decide (f.2 ≤ n) && decide (n ≤ f.1)) && bitN v n)

/-- From `s` to `t` no register but one changes. -/
def OnlyReg (s t : State) (r : Reg) : Prop := ∀ q, regKey q ≠ regKey r → rdReg t q = rdReg s q

/-- The registers whose writable fields are stored, with those fields (R5, R6). -/
inductive PlainReg : Reg → List (Nat × Nat) → Prop where
  | tframe (c k) : PlainReg (.tframe c k) [(127, 127), (98, 64)]
  | chkctl (c) : PlainReg (.chkctl c) [(63, 12)]
  | dbgctl (c k) : PlainReg (.dbgctl c k) [(63, 63), (55, 21)]
  | brk (c k n) : PlainReg (.brk c k n) [(63, 63), (55, 2)]
  | asroot (d n) : PlainReg (.asroot d n) [(63, 63), (60, 0)]
  | l2way (d n) : PlainReg (.l2way d n) [(63, 63), (35, 0)]
  | wintab (d n) : PlainReg (.wintab d n) [(255, 251), (247, 36)]
  | devnum : PlainReg .devnum [(16, 0)]
  | mboxin (w) : PlainReg (.mboxin w) [(63, 0)]

/-- Registers that firmware cannot write (R6). -/
inductive FixedReg : Reg → Prop where
  | ctrval (c p n) : FixedReg (.ctrval c p n)
  | bindstat (c k) : FixedReg (.bindstat c k)
  | chkstat (c) : FixedReg (.chkstat c)
  | dbgstat (c k) : FixedReg (.dbgstat c k)
  | dbgqr (c n) : FixedReg (.dbgqr c n)
  | cpwp (c n) : FixedReg (.cpwp c n)
  | aelog (d n) : FixedReg (.aelog d n)
  | telog (d n) : FixedReg (.telog d n)
  | kjover : FixedReg .kjover
  | lrver : FixedReg .lrver
  | mboxout (w) : FixedReg (.mboxout w)

end Sys2Proof

open Sys2Proof Sys2Proof.Machine in
/-- R5, R6, R280, R282, R284: a register without a behaviour of its own takes the writable fields of a write, and reads 0 elsewhere; a read-only one is not
changed, nor any of a die that is in its safe state; CORE.DOMTAB takes the fields of a write that starts no run while its slot is EMPTY; the
doorbell takes a 1 while it reads 0, and the hub then holds the message. Nothing else changes. -/
def Obligations.RegisterWrites : Prop :=
  ∀ (s : State) (v : Nat),
    (∀ r fs, PlainReg r fs → deafReg s r = false → ∃ t, exec (.registerWrite r v) s = .next t ∧ Holds (rdReg t r) v fs ∧ OnlyReg s t r ∧ { t with regs := s.regs } = s) ∧
    (∀ r, FixedReg r ∨ deafReg s r = true → exec (.registerWrite r v) s = .next s) ∧
    (∀ c k, domState v ≠ 1 → (dieOf s (dieOfCore c)).safe = false →
      (slotState s c k = 0 → ∃ t, exec (.registerWrite (.domtab c k) v) s = .next t ∧ Holds (rdReg t (.domtab c k)) v [(124, 24)] ∧
        OnlyReg s t (.domtab c k) ∧ { t with regs := s.regs } = s) ∧
      (slotState s c k ≠ 0 → exec (.registerWrite (.domtab c k) v) s = .next s)) ∧
    (bitN v 0 = true → rdReg s .mboxdb = 0 → ∃ t, exec (.registerWrite .mboxdb v) s = .next t ∧ rdReg t .mboxdb = 1 ∧ OnlyReg s t .mboxdb ∧
      t.hub.msg = (List.range 8).flatMap (fun w => bytesOfNat 8 (rdReg s (.mboxin w))))

open Sys2Proof Sys2Proof.Machine in
/-- R262, R263, R265, R270, R325, R346, R366 to R368: the registers of sampling, counting, temperatures, watchpoints and HBM5: the fields of the write within
their limits, and what the write resets; a ring that is opened gives the core its private WR from the header, and one whose BASE is no good is closed
and reported (that the write which sets V does so at once is the model's choice, log 82, and so is the report's code, log 81). A write that arms the
injector waits, to be carried out again, while the channel has a lane swap or write-backs on their way (the model's choice, log 130). -/
def Obligations.MonitorRegisterWrites : Prop :=
  ∀ (s : State) (c d k p n v : Nat),
    (bitN v 127 = false → ∃ t, exec (.sringWrite c k v) s = .next t ∧ bitN (rdReg t (.sring c k)) 127 = false ∧
      fld (rdReg t (.sring c k)) 126 124 = fld v 126 124 ∧ fld (rdReg t (.sring c k)) 116 61 = fld v 116 61 ∧
      fld (rdReg t (.sring c k)) 120 117 = Nat.min 10 (fld v 120 117) ∧ OnlyReg s t (.sring c k) ∧ t.mem = s.mem) ∧
    (bitN v 127 = true → k < (coreOf s c).ringWr.length → ∃ t, exec (.sringWrite c k v) s = .next t ∧
      fld (rdReg t (.sring c k)) 126 124 = fld v 126 124 ∧ fld (rdReg t (.sring c k)) 116 61 = fld v 116 61 ∧
      fld (rdReg t (.sring c k)) 120 117 = Nat.min 10 (fld v 120 117) ∧ OnlyReg s t (.sring c k) ∧ t.mem = s.mem ∧
      (∀ pa, ringPa s c k (fld v 116 61) false = some pa → fld v 116 61 % 4096 = 0 → bitN (rdReg t (.sring c k)) 127 = true ∧
        ((coreOf t c).ringWr[k]?) = some (numOf s pa 8) ∧ (∀ r ∈ (coreOf t c).ringRecs, r.slot ≠ k) ∧ t.hub = s.hub) ∧
      (ringPa s c k (fld v 116 61) false = none ∨ fld v 116 61 % 4096 ≠ 0 → bitN (rdReg t (.sring c k)) 127 = false ∧
        (coreOf t c).ringWr = (coreOf s c).ringWr ∧ t.hub.reports = s.hub.reports ++ [(dieOfCore c, 5)])) ∧
    (∃ t, exec (.sampctlWrite c v) s = .next t ∧ fld (rdReg t (.sampctl c)) 62 59 = Nat.min 10 (fld v 62 59) ∧
      (∀ hi lo, (hi, lo) ∈ [(63, 63), (58, 54), (31, 0)] → fld (rdReg t (.sampctl c)) hi lo = fld v hi lo) ∧ OnlyReg s t (.sampctl c) ∧ t.mem = s.mem ∧
      ∀ q < 12, (partOf (coreOf t c) q).gen = BitVec.ofNat 64 (fld v 31 0 * 2 ^ 32 + q + 1) ∧ (partOf (coreOf t c) q).genClk = clkOf s c) ∧
    (∃ t, exec (.ctrselWrite c p n v) s = .next t ∧ Holds (rdReg t (.ctrsel c p n)) v [(31, 12)] ∧ OnlyReg s t (.ctrsel c p n) ∧
      ((partOf (coreOf t c) p).counters[n]?).getD 0 = 0 ∧ t.mem = s.mem) ∧
    (∃ t, exec (.thermWrite d v) s = .next t ∧
      (let w := fld v 55 48; fld (rdReg t (.therm d)) 55 48 = if w < 60 then 60 else if 105 < w then 105 else w) ∧
      (let w := fld v 47 40; fld (rdReg t (.therm d)) 47 40 = if w < 70 then 70 else if 110 < w then 110 else w) ∧
      fld (rdReg t (.therm d)) 39 32 = fld (rdReg s (.therm d)) 23 16 ∧ fld (rdReg t (.therm d)) 31 0 = fld (rdReg s (.therm d)) 31 0 ∧
      OnlyReg s t (.therm d) ∧ { t with regs := s.regs } = s) ∧
    (∃ t, exec (.watchWrite d n v) s = .next t ∧ fld (rdReg t (.watch d n)) 107 92 = 0 ∧ bitN (rdReg t (.watch d n)) 127 = bitN v 127 ∧
      fld (rdReg t (.watch d n)) 51 0 = fld v 51 0 ∧ fld (rdReg t (.watch d n)) 119 108 = fld v 119 108 ∧ OnlyReg s t (.watch d n)) ∧
    (∃ t, exec (.hbmlogWrite d v) s = .next t ∧ Holds (rdReg t (.hbmlog d)) (rdReg s (.hbmlog d)) [(23, 14)] ∧ OnlyReg s t (.hbmlog d) ∧ { t with regs := s.regs } = s) ∧
    (∃ t, exec (.lswapWrite d c v) s = .next t ∧ OnlyReg s t (.lswap d c) ∧
      (∀ b lo, (b, lo) ∈ [(7, 0), (15, 8)] → bitN (rdReg t (.lswap d c)) b = (bitN v b || bitN (rdReg s (.lswap d c)) b) ∧
        fld (rdReg t (.lswap d c)) (lo + 5) lo = fld (if bitN v b && !bitN (rdReg s (.lswap d c)) b then v else rdReg s (.lswap d c)) (lo + 5) lo) ∧
      (rdReg t (.lswap d c) ≠ rdReg s (.lswap d c) → (mget (dieOf t d).swaps c).isSome = true)) ∧
    (∃ t, exec (.injseedWrite d v) s = .next t ∧ rdReg t (.injseed d) = (if v % 2 ^ 64 = 0 then 0x9E3779B97F4A7C15 else v % 2 ^ 64) ∧ OnlyReg s t (.injseed d) ∧
      { t with regs := s.regs } = s) ∧
    (d ∈ s.hub.img.tests → bitN v 63 = true → chanBusy s d (fld v 61 56) = true → exec (.injctlWrite d v) s = .next s) ∧
    (bitN v 63 = false ∨ bitN (rdReg s (.injctl d)) 63 = false → (d ∈ s.hub.img.tests → bitN v 63 = true → chanBusy s d (fld v 61 56) = false) →
      ∃ t, exec (.injctlWrite d v) s = .next t ∧ (dieOf t d).stuck = [] ∧ OnlyReg s t (.injctl d) ∧ t.mem = s.mem ∧
      fld (rdReg t (.injctl d)) 61 48 = fld v 61 48 ∧ fld (rdReg t (.injctl d)) 23 0 = fld v 23 0 ∧
      (d ∈ s.hub.img.tests → bitN (rdReg t (.injctl d)) 63 = bitN v 63) ∧
      (d ∈ s.hub.img.tests → bitN v 63 = true → fld (rdReg t (.injctl d)) 47 44 = 0 ∧
        ∀ e ∈ (dieOf t d).l2, ∀ l ∈ e.2, l.line / 256 % 64 ≠ fld v 61 56))

open Sys2Proof Sys2Proof.Machine in
/-- R63, R75, R277, R281, R283, R288, R317: shares within their limits, TLB invalidation of an address space or of the page of any size that covers a VPN, the
flashing, clock steps, voltage first where the step rises and clock first where it falls (that the first of CURMV and CURF shows at once with ANS = 1, and that an equal step counts
as falling, is the model's choice, log 113), and CORE.BINDSTAT: what a write or read of them does, and how what it starts ends. -/
def Obligations.ControlRegisterWrites : Prop :=
  ∀ (s : State) (c d k v : Nat),
    (rebinding s c k = false → (∀ q ∈ (coreOf s c).dpartQ, q.1 ≠ k) →
      ∃ t, exec (.dpartWrite c k v) s = .next t ∧ OnlyReg s t (.dpart c k) ∧ t.mem = s.mem ∧
        let w := rdReg t (.dpart c k)
        dpRows w = Nat.min 512 (dpRows v) ∧ dpUreg w = Nat.min 8192 (dpUreg v) ∧ dpAcc w = Nat.min 8 (dpAcc v) ∧ dpObuf w = Nat.min 192 (dpObuf v) ∧
        dpPerm w = Nat.min 64 (dpPerm v) ∧ dpBars w = Nat.min 256 (dpBars v) ∧ dpSbank w = dpSbank v ∧ dpL1way w = dpL1way v ∧ dpCpch w = dpCpch v ∧ dpWt w = dpWt v) ∧
    (rebinding s c k = true → ∃ t, exec (.dpartWrite c k v) s = .next t ∧ t.regs = s.regs ∧ (coreOf t c).dpartQ = (coreOf s c).dpartQ ++ [(k, v)]) ∧
    (bitN (rdReg s (.tlbinv d)) 63 = false → ∃ t, exec (.tlbInvalidate d v) s = .next t ∧ Holds (rdReg t (.tlbinv d)) v [(63, 62), (59, 0)] ∧
      OnlyReg s t (.tlbinv d) ∧ { t with regs := s.regs } = s) ∧
    (bitN (rdReg s (.tlbinv d)) 63 = true → ∃ t, exec (.tlbInvalidateDone d) s = .next t ∧
      bitN (rdReg t (.tlbinv d)) 63 = false ∧ OnlyReg s t (.tlbinv d) ∧ t.mem = s.mem ∧
      let v := rdReg s (.tlbinv d)
      let kept := fun (l : List Tlb) => l.filter (fun e => e.asid != fld v 59 40 || (!bitN v 62 && e.vpage != fld v 39 0 * 2 ^ 16 / 2 ^ e.bits))
      (dieOf t d).tlb = kept (dieOf s d).tlb ∧ ∀ e, (coreOf t e).tlb = if dieOfCore e = d then kept (coreOf s e).tlb else (coreOf s e).tlb) ∧
    (bitN (rdReg s (.flash k)) 63 = false → ∃ t, exec (.flashWrite k v) s = .next t ∧ bitN (rdReg t (.flash k)) 63 = bitN v 63 ∧
      bitN (rdReg t (.flash k)) 1 = bitN v 1 ∧ bitN (rdReg t (.flash k)) 0 = (bitN v 1 && linkBusy s k) ∧ OnlyReg s t (.flash k) ∧ { t with regs := s.regs } = s) ∧
    (bitN (rdReg s (.flash k)) 63 = true → exec (.flashWrite k v) s = .next s) ∧
    (linkBusy s k = false → ∃ t, exec (.linkDrained k) s = .next t ∧ bitN (rdReg t (.flash k)) 0 = false ∧ OnlyReg s t (.flash k) ∧ { t with regs := s.regs } = s) ∧
    (∃ t, exec (.dvfsRequest d c v) s = .next t ∧ fld (rdReg t (.dvfs d c)) 55 52 = Nat.min 8 (fld v 55 52) ∧ fld (rdReg t (.dvfs d c)) 47 36 = fld v 47 36 ∧
      OnlyReg s t (.dvfs d c) ∧ t.mem = s.mem ∧
      fld (rdReg t (.dvfs d c)) 63 62 = (if bitN v 61 = false ∨ fld (rdReg s (.dvfs d c)) 63 62 = 1 then fld (rdReg s (.dvfs d c)) 63 62
        else if fld v 47 36 < voltFloor s (Nat.min 8 (fld v 55 52)) ∨ s.hub.img.vc < fld v 47 36 ∨
          1000 < fld v 47 36 ∨ (bitN (rdReg s (.therm d)) (8 + c) = true ∧ 0 < fld v 55 52) then 3 else 1) ∧
      (bitN v 61 = true → fld (rdReg s (.dvfs d c)) 63 62 ≠ 1 → fld (rdReg t (.dvfs d c)) 63 62 = 1 →
        if fld (rdReg s (.dvfs d c)) 35 32 < Nat.min 8 (fld v 55 52)
        then fld (rdReg t (.dvfs d c)) 27 16 = fld v 47 36 ∧ fld (rdReg t (.dvfs d c)) 35 32 = fld (rdReg s (.dvfs d c)) 35 32
        else fld (rdReg t (.dvfs d c)) 35 32 = Nat.min 8 (fld v 55 52) ∧ fld (rdReg t (.dvfs d c)) 27 16 = fld (rdReg s (.dvfs d c)) 27 16)) ∧
    (∀ q, mget (dieOf s d).dvfs c = some q → q / 2 ^ 12 < 16 → ∃ t, exec (.dvfsDone d c) s = .next t ∧ fld (rdReg t (.dvfs d c)) 63 62 = 2 ∧
      fld (rdReg t (.dvfs d c)) 35 32 = q / 2 ^ 12 ∧ fld (rdReg t (.dvfs d c)) 27 16 = q % 2 ^ 12 ∧ OnlyReg s t (.dvfs d c)) ∧
    (∃ t, exec (.bindstatRead c k) s = .next t ∧ ((coreOf t c).noslot[k]?).getD 0 = 0 ∧ t.regs = s.regs ∧ t.mem = s.mem ∧
      t.hub.answers = s.hub.answers ++ [((coreOf s c).noslot[k]?).getD 0 * 2 ^ 32 + Nat.min 65535 (waitGroups s c k) * 2 ^ 16 + overBits s c k])

open Sys2Proof Sys2Proof.Machine in
/-- R46, R47, R48, R259, R279, R280: the states of a domain slot: RUN with the fields of the write and a running clock from 0; fields alone while it is EMPTY;
HALT in place, HALTING until 64 cycles on, where a thread keeps its arrival at a group-set word only; the resume, which wakes monitored waits; EMPTY for a slot without resident unit. No byte of memory changes. -/
def Obligations.DomainSlotStates : Prop :=
  ∀ (s : State) (c k v : Nat),
    (slotState s c k = 0 → domState v = 1 → (dieOf s (dieOfCore c)).safe = false →
      ∃ t, exec (.domtabRun c k v) s = .next t ∧ Holds (rdReg t (.domtab c k)) v [(127, 24)] ∧ ((coreOf t c).rtmr[k]?).getD 0 = 0 ∧
        OnlyReg s t (.domtab c k) ∧ t.units = s.units ∧ t.mem = s.mem) ∧
    (slotState s c k = 0 → domState v ≠ 1 → (dieOf s (dieOfCore c)).safe = false →
      ∃ t, exec (.domtabRun c k v) s = .next t ∧ Holds (rdReg t (.domtab c k)) v [(124, 24)] ∧ OnlyReg s t (.domtab c k) ∧ { t with regs := s.regs } = s) ∧
    (slotState s c k = 1 → ∃ t, exec (.domtabHalt c k) s = .next t ∧ slotState t c k = 3 ∧ fld (rdReg t (.domtab c k)) 124 0 = fld (rdReg s (.domtab c k)) 124 0 ∧
      mget (coreOf t c).haltClk k = some (clkOf s c) ∧ OnlyReg s t (.domtab c k) ∧ t.mem = s.mem ∧
      ∀ u ∈ t.units, ∀ x ∈ u.groups, x.core = c → x.slot = k → ∀ h ∈ x.threads, h.joined = false ∧ (standsAtGroupWord t x h.tid = false → h.ready = none)) ∧
    (slotState s c k = 3 → (mget (coreOf s c).haltClk k).getD 0 + 64 ≤ clkOf s c →
      ∃ t, exec (.haltComplete c k) s = .next t ∧ slotState t c k = 2 ∧ OnlyReg s t (.domtab c k) ∧ t.units = s.units ∧ t.mem = s.mem) ∧
    (slotState s c k = 3 → clkOf s c < (mget (coreOf s c).haltClk k).getD 0 + 64 → exec (.haltComplete c k) s = .next s) ∧
    (slotState s c k = 2 → ∃ t, exec (.domtabResume c k) s = .next t ∧ slotState t c k = 1 ∧ OnlyReg s t (.domtab c k) ∧ t.mem = s.mem ∧
      ∀ u ∈ t.units, ∀ x ∈ u.groups, x.core = c → x.slot = k → ∀ va cmp, x.wait.kind = .mwait va cmp false → x.wait.woken = true) ∧
    (slotState s c k = 2 → slotHeld s c k = false →
      ∃ t, exec (.domtabEmpty c k) s = .next t ∧ slotState t c k = 0 ∧ OnlyReg s t (.domtab c k) ∧ { t with regs := s.regs } = s)

open Sys2Proof Sys2Proof.Machine in
/-- R48, R60, R61, R64, R281: the moves of a rebinding and of the spill engine: a moving name is written out to its slots and gives its resource back; the
pause ends when its time, 32 + 2n cycles on, has come (R64); a name's words that wait are written to its slots; a bound name's entries are filled from its slots. -/
def Obligations.SpillEngine : Prop :=
  ∀ (s : State) (uid g : Nat) (u : DUnit) (x : Group), unitOf s uid = some u → groupOf s uid g = some x →
    (∀ p c n rest level m va pa, x.pause = some p → p.moves = (c, n) :: rest → movingName x c n = some (level, m) →
      levelName x level c n = some m → p.start + 30 + 2 * (p.done + moveCost x c) ≤ clkOf s x.core → moveBusy s x uid m = false → slotVa u x m = some va →
      MemoryGood s → slotFault s uid g level c n = none →
      memCheck s x.core (levelAsid x (nameLevel x m)) .store false va 4 = .ok pa →
      ∃ t y, exec (.rebindWriteOut uid g) s = .next t ∧ groupOf t uid g = some y ∧ y.pause.map (fun q => q.moves) = some rest ∧
        (levelName y level c n).map (fun q => (q.res, q.out)) = some ([], true) ∧
        (∀ e w, c = .uniform → m.entries = [e] → e.words = [w] → e.held = true → e.full = true → BytesWritten s.mem t.mem pa (bytesOfNat 4 w.toNat))) ∧
    (∀ p, x.pause = some p → p.moves = [] → p.wants = [] → p.till ≤ clkOf s x.core → (coreOf s x.core).dpartQ = [] →
      ∃ t, exec (.rebindPauseEnd uid g) s = .next t ∧ groupOf t uid g = some { x with pause := none } ∧ t.mem = s.mem) ∧
    (∀ c n level m va s', (levelNames x).find? (fun l => l.2.cls == c && l.2.num == n && l.2.slot.isSome && l.2.entries.any (fun e => e.wt != 0)) = some (level, m) →
      levelName x level c n = some m → slotVa u x m = some va → (coreOf s x.core).outQ = [] →
      spillPut x.core (levelDom x (nameLevel x m)) (levelAsid x (nameLevel x m)) (pendingWords va m (List.range m.entries.length)) s = .ok s' →
      ∃ t y m', exec (.spillWriteThrough uid g c n) s = .next t ∧ groupOf t uid g = some y ∧ levelName y level c n = some m' ∧ t.mem = s'.mem ∧
        (∀ e ∈ m'.entries, e.wt = 0) ∧ m'.entries.map (fun e => e.words) = m.entries.map (fun e => e.words)) ∧
    (∀ c n m va, nameOf x c n = some m → tqHalted s u x = false → x.pause = none → (∀ e ∈ m.entries, e.wt = 0) →
      m.entries.any (fun e => e.inSlot && e.held) = true → wantsName s x c n = true → m.res ≠ [] → slotVa u x m = some va → MemoryGood s →
      (∀ e ∈ fillEntries va m, ∃ ws, spillGet x.core (levelAsid x (nameLevel x m)) s e.2 = .ok ws) →
      ∃ t y m', exec (.spillFill uid g c n) s = .next t ∧ groupOf t uid g = some y ∧ nameOf y c n = some m' ∧ t.mem = s.mem ∧
        ∀ e ∈ fillEntries va m, ∀ ws, spillGet x.core (levelAsid x (nameLevel x m)) s e.2 = .ok ws →
          (m'.entries[e.1]?).map (fun q => (q.words, q.inSlot)) = some (ws, false))

namespace Sys2Proof

open Sys2Proof.Machine

/-- The hub's next record (R246): the head `b` of PASID `p`'s intake, the first in the rotation that the level table has room for, in a hub cycle that has
processed none yet. -/
structure NextRecord (s : State) (p : Nat) (b : List Byte) : Prop where
  cycle : s.hub.procCycle ≤ s.hub.cycle
  first : (waitingPasids s).find? (fun p => (headOf s p).any (fun b => !heldHead s p b)) = some p
  head : headOf s p = some b

/-- No level entry lies below a launch (R249: graphs, phases and jobs alone have children). -/
def Hierarchical (s : State) : Prop := ∀ e ∈ s.hub.levels, ∀ p, e.parent = some p → p.1 ≠ .launch

/-- The level entry of a key is `e`, and the key has no second one (R249). -/
def OnlyEntry (s : State) (d : Nat) (l : Level) (n : Nat) (e : LevelEntry) : Prop :=
  liveEntry s d l n = some e ∧ ∀ e' ∈ s.hub.levels, e'.is d l n = true → e' = e

/-- The record leaves its intake and is its PASID's turn (R246). -/
def Processed (s t : State) (p : Nat) : Prop :=
  t.hub.intake = dropFirst p s.hub.intake ∧ t.hub.lastPasid = some p ∧ t.hub.procCycle = s.hub.cycle + 1

/-- The event that processes a record, by its KIND and, for a control record, its COP (R248, R249, R253). -/
def processing (b : List Byte) : Instr :=
  match numAt b 2 1 with
  | 0 => .processLaunch
  | 1 => .processGraphNode
  | 2 => .processPhaseStep
  | 3 => if numAt b 3 1 = 1 then .controlCancel else .controlClose
  | _ => .processLaunch

/-- A launch of an accepted record: each field from the record's bytes (R248). -/
def FromRecord (l : Launch) (p : Nat) (b : List Byte) : Prop :=
  l.dom = numAt b 4 2 ∧ l.lid = numAt b 72 2 ∧ l.pasid = p ∧ l.asid = p % 2 ^ 20 ∧ l.kind = numAt b 2 1 ∧ l.wcode = numAt b 3 1 ∧ l.prio = numAt b 6 1 ∧
  l.kimg = numAt b 8 8 ∧ l.kidx = numAt b 16 4 ∧ l.usize = numAt b 20 4 ∧ l.ucnt = numAt b 24 4 ∧ l.spsz = numAt b 28 4 ∧ l.argb = numAt b 32 8 ∧
  l.aff = numAt b 40 8 ∧ l.spill = numAt b 56 8 ∧ l.shreq = numAt b 64 8 ∧ l.nextUnit = 0

end Sys2Proof

open Sys2Proof Sys2Proof.Machine in
/-- R245, R310: the queue port: a record is taken and answered Successful, or answered Retry when intake holds 512 records or 32 of the PASID; other deferrable
writes and reads are answered Unsupported Request; a posted write is dropped and counted. -/
def Obligations.QueuePort : Prop :=
  ∀ s : State,
    (∀ p off bs, bs.length = 128 → off % 128 = 0 → off < 4096 → s.hub.intake.length < 512 → (s.hub.intake.filter (fun r => r.pasid == p)).length < 32 →
      exec (.qportSubmit p off bs) s = .next { s with hub := { s.hub with intake := s.hub.intake ++ [⟨p, bs⟩], answers := s.hub.answers ++ [0] } }) ∧
    (∀ p off bs, bs.length = 128 → off % 128 = 0 → off < 4096 →
      512 ≤ s.hub.intake.length ∨ 32 ≤ (s.hub.intake.filter (fun r => r.pasid == p)).length →
      exec (.qportSubmit p off bs) s = .next { s with hub := { s.hub with answers := s.hub.answers ++ [1] } }) ∧
    (∀ p off n, n ≠ 128 ∨ off % 128 ≠ 0 ∨ p = none →
      exec (.qportUnsupportedDmwr p off n) s = .next { s with hub := { s.hub with answers := s.hub.answers ++ [2] } }) ∧
    (∀ p, exec (.qportMemoryRead p) s = .next { s with hub := { s.hub with answers := s.hub.answers ++ [2] } }) ∧
    (∀ p, ∃ t, exec (.qportMemoryWrite p) s = .next t ∧ { t with hub := { t.hub with rejects := s.hub.rejects } } = s ∧
      let l := (mget s.hub.rejects (p.getD 0)).getD ⟨0, []⟩
      mget t.hub.rejects (p.getD 0) = some ⟨l.count + 1, l.entries⟩ ∧ ∀ q, q ≠ p.getD 0 → mget t.hub.rejects q = mget s.hub.rejects q)

open Sys2Proof Sys2Proof.Machine in
/-- R246, R248, R249, R251, R253, R311: a record without a reason against it takes effect: a launch with the fields of the record and a closed level entry that
counts its units; a close; a cancel, which ends the launch's resident units. A record with a reason adds no launch and counts as a reject. -/
def Obligations.RecordsProcessed : Prop :=
  ∀ (s : State) (p : Nat) (b : List Byte), NextRecord s p b →
    (recReason s p b ≠ 0 → ∃ t, exec (processing b) s = .next t ∧ Processed s t p ∧ t.hub.launches = s.hub.launches ∧
      (mget t.hub.rejects p).map (fun l => l.count) = some (((mget s.hub.rejects p).map (fun l => l.count)).getD 0 + 1)) ∧
    (recReason s p b = 0 → recKind b ≠ 3 → Hierarchical s → ∃ t l e, exec (processing b) s = .next t ∧ Processed s t p ∧
      t.hub.launches = s.hub.launches ++ [l] ∧ FromRecord l p b ∧ l.order = s.hub.orderNext ∧ t.hub.orderNext = s.hub.orderNext + 1 ∧
      liveEntry t l.dom .launch l.lid = some e ∧ e.closed = true ∧ e.done = recDone b ∧ e.donePasid = p ∧
      (l.ended = 0 → e.count = l.ucnt ∧ e.state = 0 ∧ e.freeing = false)) ∧
    (∀ e, recReason s p b = 0 → recKind b = 3 → OnlyEntry s (recDom b) (recLevel b) (recCid b) e → e.freeing = false →
      ∃ t e', exec (processing b) s = .next t ∧ Processed s t p ∧ liveEntry t (recDom b) (recLevel b) (recCid b) = some e' ∧
        (numAt b 3 1 ≠ 1 → e'.closed = true ∧ e'.done = recDone b ∧ e'.donePasid = p ∧
          (e.count = 0 → e'.freeing = true ∧ e'.state = if e.state = 0 then 1 else e.state)) ∧
        (numAt b 3 1 = 1 → e.state = 0 → e'.state = 2 ∧
          (recLevel b = .launch → ∀ u ∈ t.units, u.dom = recDom b → u.lid = recCid b → u.cancel ≠ 0)))

open Sys2Proof Sys2Proof.Machine in
/-- R31, R189, R254 to R258, R311: the turn of a launch: its next unit is placed, and its share request passed to the die once, or the launch is passed over
until it is tried again, or it ends with STATE 3 when its image is no good. A completed unit leaves the machine, its launch counts one less, and at 0 the launch
has completed; not in the hub cycle of a cancel of it or of a level above it (R250). A launch whose groups have all triggered is triggered. (That a launch that is passed over waits
for one of the three events of R256 is the model's reading, log 73.) -/
def Obligations.UnitsDispatchedAndCompleted : Prop :=
  ∀ s : State,
    (∀ l, s.hub.dispCycle ≤ s.hub.cycle → turnOf s = some l → ∃ t, exec .dispatchTurn s = .next t ∧
      t.hub.lastDom = some l.dom ∧ t.hub.dispCycle = s.hub.cycle + 1 ∧
      (∀ r, dispatchCheck s l = .error r →
        (mget t.hub.rejects l.pasid).map (fun g => g.count) = some (((mget s.hub.rejects l.pasid).map (fun g => g.count)).getD 0 + 1) ∧
        (s.hub.launches.find? (fun k => k.dom == l.dom && k.lid == l.lid) = some l →
          t.hub.launches = s.hub.launches.map (fun k => if k.order = l.order then { k with ended := 3 } else k))) ∧
      (∀ k, dispatchCheck s l = .ok k → t.mem = s.mem ∧
        ((preferred s l l.nextUnit = none ∨ ∃ d c, preferred s l l.nextUnit = some (d, c) ∧
            placeNext { s with hub := { s.hub with lastDom := some l.dom, dispCycle := s.hub.cycle + 1 } } l k d c = none) →
          t.units = s.units ∧ t.hub.launches = s.hub.launches.map (fun x => if x.order = l.order then { x with held := true } else x)) ∧
        (∀ d c s1, preferred s l l.nextUnit = some (d, c) →
          placeNext { s with hub := { s.hub with lastDom := some l.dom, dispCycle := s.hub.cycle + 1 } } l k d c = some s1 →
          t.hub.launches = s.hub.launches.map (fun x => if x.order = l.order then
            { x with nextUnit := x.nextUnit + 1, checked := k.chk, told := x.told ++ if d ∈ l.told then [] else [d] } else x) ∧
          (∃ u ∈ t.units, u.uid = s.nextUid ∧ u.dom = l.dom ∧ u.lid = l.lid ∧ u.unitidx = l.nextUnit ∧ u.asid = l.asid ∧ u.pasid = l.pasid ∧
            u.usize = l.usize ∧ u.width = 8 * 2 ^ l.wcode ∧ u.argb = l.argb ∧ u.die = d ∧ u.spill = l.spill + 128 * l.spsz * l.nextUnit) ∧
          t.hub.shares = s.hub.shares ++ if d ∈ l.told then [] else [(l.dom, l.lid, d, l.shreq)]))) ∧
    (∀ uid u e, unitOf s uid = some u → (∀ v ∈ pairOf s uid, ∃ w, unitOf s v = some w ∧ unitDone s w = true) →
      OnlyEntry s u.dom .launch u.lid e → Hierarchical s →
      (∀ k ∈ s.hub.levels, k.dom = u.dom → k.state = 2 → k.freeing = false → k.cycle = s.hub.cycle → isBelow s u.dom (k.level, k.ident) 4 (.launch, u.lid) = false) →
      ∃ t e', exec (.unitComplete uid) s = .next t ∧ t.units.map (fun w => w.uid) = (s.units.map (fun w => w.uid)).filter (fun v => !(pairOf s uid).contains v) ∧
        liveEntry t u.dom .launch u.lid = some e' ∧ e'.count = e.count - 1 ∧
        (e.count ≤ 1 → e.closed = true → e.freeing = false → e'.freeing = true ∧ e'.state = if e.state = 0 then 1 else e.state)) ∧
    (∀ d n l, s.hub.launches.find? (fun l => l.dom == d && l.lid == n) = some l → l.ended ≠ 0 ∨ l.ucnt ≤ l.nextUnit →
      (∀ u ∈ s.units, u.dom = d → u.lid = n → u.cancel = 0 → ∀ x ∈ u.groups, x.ended = true ∨ x.trigger = 1) →
      exec (.launchTriggered d n) s = .next { s with hub := { s.hub with launches := s.hub.launches.map (fun k => if k.order == l.order then { k with triggered := true } else k) } })

namespace Sys2Proof

open Sys2Proof.Machine

/-- The message of a TYPE is being served (R284, R285). -/
def Serves (s : State) (ty : Nat) : Prop := rdReg s .mboxdb = 1 ∧ numAt s.hub.msg 2 2 = ty

/-- The answer stands in HUB.MBOXOUT and the doorbell reads 0 (R284): the version, STATUS, DETAIL, the message's SEQ, and a payload of 56 bytes. -/
def Answered (s t : State) (ver status detail : Nat) (payload : List Byte) : Prop :=
  rdReg t .mboxdb = 0 ∧ ∀ w < 8, rdReg t (.mboxout w) = numAt (bytesOfNat 2 ver ++ bytesOfNat 1 status ++ bytesOfNat 1 detail ++
    (s.hub.msg.drop 4).take 4 ++ payload ++ List.replicate (56 - payload.length) 0) (8 * w) 8

/-- The message is denied with a DETAIL (R284), in the version agreed if one is, and nothing but the answer changes. -/
def Denied (s t : State) (detail : Nat) : Prop :=
  (∃ v, (s.hub.mboxVer ≠ 0 → v = s.hub.mboxVer) ∧ Answered s t v 2 detail []) ∧ { t with regs := s.regs, free := s.free } = s

end Sys2Proof

open Sys2Proof Sys2Proof.Machine in
/-- R284 to R287, R312: the mailbox: a message of each TYPE is answered by its rule: the version agreed; a denial with its DETAIL; busy; the report of 7976
bytes, written and then answered; a debug register's value (of a safe die denied with DETAIL 1, which is the model's choice, log 114); the reject log.
(That the hub supports at least one version, none of them 0.0, is the model's choice, log 45.) -/
def Obligations.MailboxMessages : Prop :=
  ∀ (s : State), s.hub.msg.length = 64 →
    let m := s.hub.msg
    (Serves s 1 →
      (numAt m 12 52 ≠ 0 → ∃ t, exec .mboxVersion s = .next t ∧ Denied s t 3) ∧
      (∀ v, numAt m 12 52 = 0 → v = Nat.min (numAt m 10 2) Config.mboxHigh.toNat →
        (v < Nat.max (numAt m 8 2) Config.mboxLow.toNat → ∃ t, exec .mboxVersion s = .next t ∧ Denied s t 4) ∧
        (Nat.max (numAt m 8 2) Config.mboxLow.toNat ≤ v →
          ∃ t, exec .mboxVersion s = .next t ∧ t.hub.mboxVer = v ∧ Answered s t v 0 0 (bytesOfNat 2 v)))) ∧
    (∀ ty i, (ty, i) ∈ [(2, Instr.mboxAttestation false), (2, .mboxAttestation true), (3, .mboxDebugAccess true), (3, .mboxDebugAccess false), (4, .mboxRejectLog),
        (0, .mboxUnknownType), (5, .mboxUnknownType)] → Serves s ty → s.hub.mboxVer = 0 → s.hub.report = none → ∃ t, exec i s = .next t ∧ Denied s t 4) ∧
    (Serves s 2 → s.hub.mboxVer ≠ 0 → s.hub.report = none →
      (∃ t, exec (.mboxAttestation true) s = .next t ∧ Answered s t s.hub.mboxVer 1 0 []) ∧
      (attestOk m = false → ∃ t, exec (.mboxAttestation false) s = .next t ∧ Denied s t 3) ∧
      (attestOk m = true → ∃ t r, exec (.mboxAttestation false) s = .next t ∧ t.hub.report = some r ∧ { t with hub := { t.hub with report := none } } = s ∧
        r.length = 7976 ∧ numAt r 0 2 = 0x0100 ∧ numAt r 4 4 = 7976 ∧ (r.drop 8).take 32 = (m.drop 8).take 32)) ∧
    (∀ r, s.hub.report = some r → s.hub.mboxVer ≠ 0 →
      ∃ t, exec .attestationReportWritten s = .next t ∧ BytesWritten s.mem t.mem (2 ^ 50 + numAt m 40 8) r ∧ t.hub.report = none ∧
        Answered s t s.hub.mboxVer 0 0 (bytesOfNat 4 7976)) ∧
    (Serves s 3 → s.hub.mboxVer ≠ 0 →
      (∀ a, (numAt m 13 1 > 1 ∨ numAt m 14 2 ≠ 0 ∨ numAt m 16 4 ≥ 2 ^ 20 ∨ numAt m 20 4 ≠ 0 ∨ numAt m 40 24 ≠ 0) ∨ debugTarget m = none ∨
          (∃ r, debugTarget m = some (r, none) ∧ numAt m 13 1 = 1) → ∃ t, exec (.mboxDebugAccess a) s = .next t ∧ Denied s t 3) ∧
      (∀ r w, numAt m 13 1 ≤ 1 → numAt m 14 2 = 0 → numAt m 16 4 < 2 ^ 20 → numAt m 20 4 = 0 → numAt m 40 24 = 0 → debugTarget m = some (r, w) →
        (numAt m 13 1 = 1 → w ≠ none) →
        (∀ a, a = false ∨ deafReg s r = true → ∃ t, exec (.mboxDebugAccess a) s = .next t ∧ Denied s t 1) ∧
        (deafReg s r = false → numAt m 13 1 = 0 → ∃ t, exec (.mboxDebugAccess true) s = .next t ∧ { t with regs := s.regs } = s ∧
          Answered s t s.hub.mboxVer 0 0 (bytesOfNat 16 (debugValue s r))) ∧
        (∀ f, deafReg s r = false → numAt m 13 1 = 1 → w = some f → ∃ t, exec (.mboxDebugAccess true) s = .next t ∧
          Answered s t s.hub.mboxVer 0 0 (bytesOfNat 16 (debugValue (f (numAt m 24 (if narrow m then 8 else 16)) s) r))))) ∧
    (Serves s 4 → s.hub.mboxVer ≠ 0 →
      (numAt m 8 4 ≥ 2 ^ 20 ∨ numAt m 12 52 ≠ 0 → ∃ t, exec .mboxRejectLog s = .next t ∧ Denied s t 3) ∧
      (∀ l, numAt m 8 4 < 2 ^ 20 → numAt m 12 52 = 0 → mget s.hub.rejects (numAt m 8 4) = some l →
        ∃ t, exec .mboxRejectLog s = .next t ∧ { t with regs := s.regs } = s ∧
          Answered s t s.hub.mboxVer 0 0 (bytesOfNat 8 l.count ++ (List.range 6).flatMap (fun i => bytesOfNat 8 ((l.entries[i]?).getD 0))))) ∧
    (∀ ty, ty = 0 ∨ 4 < ty → Serves s ty → s.hub.mboxVer ≠ 0 → ∃ t, exec .mboxUnknownType s = .next t ∧ Denied s t 2)

open Sys2Proof Sys2Proof.Machine in
/-- R5, R282, R283, R327: after power-on and after a package reset every register reads its reset value, but those of locked links; no unit is resident; a die
with a self-test code, or without a configuration image, is safe and its links are locked; host memory keeps its bytes. The sideband record has a die's
number, state and code (their places are the model's, log 44). -/
def Obligations.StartUpAndSideband : Prop :=
  ∀ s : State,
    (∀ img codes i, i = Instr.powerOn img codes ∨ i = .packageReset img codes → ∃ t, exec i s = .next t ∧
      (∀ r, (∀ n < 10, regKey r ≠ regKey (.flash n)) → rdReg t r = regReset r) ∧ t.units = [] ∧ t.cores = [] ∧ t.reports = [] ∧ t.poison = [] ∧
      t.hub.intake = [] ∧ t.hub.launches = [] ∧ t.hub.levels = [] ∧ t.hub.mboxVer = 0 ∧ t.hub.img = (if img.valid then img else BootImage.none) ∧
      (∀ a, isHost a = true → Memory.read t.mem a = Memory.read s.mem a) ∧
      ∀ d < 8, (dieOf t d).safe = (((codes[d]?).getD 0 != 0) || !img.valid) ∧ (dieOf t d).time = (dieOf s d).time ∧
        ((codes[d]?).getD 0 ≠ 0 → (dieOf t d).code = (codes[d]?).getD 0 % 256) ∧
        ((dieOf t d).safe = true → ∀ n ∈ dieLinks d, bitN (rdReg t (.flash n)) 63 = true ∧ bitN (rdReg t (.flash n)) 1 = true)) ∧
    (∀ d < 8, ∃ r, exec (.sidebandStatus d) s = .next { s with hub := { s.hub with sideband := s.hub.sideband ++ [r] } } ∧ r.length = 16 ∧
      numAt r 0 1 = d ∧ numAt r 1 1 = (if (dieOf s d).safe then 1 else 0) ∧ numAt r 2 1 = (dieOf s d).code % 256)

namespace Sys2Proof

open Sys2Proof.Machine

/-- A record for an open ring (R263): it stands at its place and the private WR moves on, or, with the ring or the core's record buffer full, LOST counts it. -/
def Recorded (s t : State) (core slot : Nat) (bs : List Byte) : Prop :=
  ∀ rd lost pa, MemoryGood s →
    let v := rdReg s (.sring core slot)
    let wr := ((coreOf s core).ringWr[slot]?).getD 0
    ringPa s core slot (fld v 116 61 + 8) false = some rd → ringPa s core slot (fld v 116 61 + 16) true = some lost →
    ringPa s core slot (fld v 116 61 + 64 + 32 * (wr % 2 ^ (fld v 120 117 + 6))) true = some pa →
    (wr - natOfBytes (homeRead s rd 8) < 2 ^ (fld v 120 117 + 6) ∧ (coreOf s core).ringRecs.length < 32 →
      BytesWritten s.mem t.mem pa bs ∧ (coreOf t core).ringWr = setAt (coreOf s core).ringWr slot (wr + 1) ∧
      (coreOf t core).ringRecs = (coreOf s core).ringRecs ++ [⟨slot, wr⟩]) ∧
    (2 ^ (fld v 120 117 + 6) ≤ wr - natOfBytes (homeRead s rd 8) ∨ 32 ≤ (coreOf s core).ringRecs.length →
      BytesWritten s.mem t.mem lost (bytesOfNat 8 (natOfBytes (homeRead s lost 8) + 1)) ∧ (coreOf t core).ringRecs = (coreOf s core).ringRecs)

/-- No group changes, but that a `sync.mwait` that waits may be woken (R188). -/
def OnlyWoken (s t : State) : Prop :=
  ∀ uid g x, groupOf s uid g = some x → ∃ w, groupOf t uid g = some { x with wait := { x.wait with woken := w } }

/-- The die has tripped (R327): it is safe with the code, its links are locked, THERM says so, and no unit is on it. -/
def Tripped (t : State) (die code : Nat) : Prop :=
  (dieOf t die).safe = true ∧ (dieOf t die).code = code ∧ bitN (rdReg t (.therm die)) 63 = true ∧ (∀ u ∈ t.units, u.die ≠ die) ∧
  ∀ n ∈ dieLinks die, bitN (rdReg t (.flash n)) 63 = true ∧ bitN (rdReg t (.flash n)) 1 = true

/-- The lanes of a channel that fail and that no spare replaces (R361, R367). -/
def badLanes (s : State) (die ch : Nat) : List Nat :=
  (((dieOf s die).stuck.filter (fun f => f.1 == ch)).map (fun f => f.2)).filter (fun l => !(swappedLanes (rdReg s (.lswap die ch))).contains l)

/-- The wrong bits of a sector in the array (R359). -/
def wrongBits (s : State) (die sec : Nat) : List Nat := ((dieOf s die).flips.filter (fun f => f.1 == sec)).map (fun f => f.2)

/-- An access waits in the L2 for a sector, which is not there and is in no transfer (R80, R363). -/
def Asked (s : State) (die sec : Nat) : Prop :=
  (∃ w ∈ (dieOf s die).wants, w.1 = sec) ∧ l2Has s die sec = false ∧ ∀ x ∈ (dieOf s die).xfers, x.sector ≠ sec

/-- A sector has come: nothing waits for it, and it stands in the L2, or passes by it where no way may hold it (R80). -/
def Delivered (t : State) (die sec : Nat) : Prop :=
  (∀ w ∈ (dieOf t die).wants, w.1 ≠ sec) ∧ (l2Has t die sec = true ∨ sec ∈ (dieOf t die).passed)

/-- The transfers of a channel in their retries (R362). -/
def retries (s : State) (die ch : Nat) : List Xfer := (dieOf s die).xfers.filter (fun x => sectorChan x.sector == ch)

/-- A channel moves sectors: its die is not safe, no lane of it is being swapped, it has not failed, and the die's injector is off. -/
def Moves (s : State) (die ch : Nat) : Prop :=
  (dieOf s die).safe = false ∧ mget (dieOf s die).swaps ch = none ∧ bitN (rdReg s (.lswap die ch)) 63 = false ∧ bitN (rdReg s (.injctl die)) 63 = false

end Sys2Proof

open Sys2Proof Sys2Proof.Machine in
/-- R263, R265 to R269: a program-counter sample at the end of each period: the generator steps, and the thread that it draws has its record; a tagged request's
record when it has completed, and none before (the ticks that it shows are inputs, log 78); WR of a ring moves on as its records perform. -/
def Obligations.SamplesTaken : Prop :=
  ∀ (s : State) (core part slot : Nat),
    (bitN (rdReg s (.sampctl core)) 63 = true → (partOf (coreOf s core) part).genClk + 2 ^ (fld (rdReg s (.sampctl core)) 62 59 + 10) ≤ clkOf s core →
      settled s core part = true → (dieOf s (dieOfCore core)).safe = false →
      ∃ t, exec (.pcSample core part) s = .next t ∧ OnlyWoken s t ∧
        (partOf (coreOf t core) part).gen = xorshift (partOf (coreOf s core) part).gen ∧
        (partOf (coreOf t core) part).genClk = (partOf (coreOf s core) part).genClk + 2 ^ (fld (rdReg s (.sampctl core)) 62 59 + 10) ∧
        let pos := (xorshift (partOf (coreOf s core) part).gen).toNat / 2 ^ 55
        (threadAt s core part (pos % 32) (pos / 32) = none → t.mem = s.mem) ∧
        (∀ u x h, threadAt s core part (pos % 32) (pos / 32) = some (u, x, h) →
          (bitN (rdReg s (.sring core x.slot)) 127 = true → bitN (rdReg s (.sring core x.slot)) 126 = true → Recorded s t core x.slot (pcRecord s u x h)) ∧
          (bitN (rdReg s (.sring core x.slot)) 127 = false ∨ bitN (rdReg s (.sring core x.slot)) 126 = false → t.mem = s.mem))) ∧
    (∀ q, (∀ r ∈ (coreOf s core).tagged, r.slot = q.slot → r.part = q.part → r.pc = q.pc → r.time = q.time → taggedDone s core r = false) →
      exec (.memoryRequestSample core q) s = .next s) ∧
    (∀ q r, taggedOf s core q = some r → (dieOf s (dieOfCore core)).safe = false →
      ∃ t, exec (.memoryRequestSample core q) s = .next t ∧ OnlyWoken s t ∧ (coreOf t core).tagged = (coreOf s core).tagged.erase r ∧
        (bitN (rdReg s (.sring core r.slot)) 127 = true → bitN (rdReg s (.sring core r.slot)) 125 = true → Recorded s t core r.slot (reqRecord core q r)) ∧
        (bitN (rdReg s (.sring core r.slot)) 127 = false ∨ bitN (rdReg s (.sring core r.slot)) 125 = false → t.mem = s.mem)) ∧
    (∀ r pa, (dieOf s (dieOfCore core)).safe = false → MemoryGood s → (coreOf s core).ringRecs.find? (fun r => r.slot == slot) = some r → ringPa s core slot (fld (rdReg s (.sring core slot)) 116 61) true = some pa →
      natOfBytes (homeRead s pa 8) = r.idx →
      ∃ t, exec (.ringWrAdvance core slot) s = .next t ∧ BytesWritten s.mem t.mem pa (bytesOfNat 8 (r.idx + 1)) ∧ OnlyWoken s t ∧
        (coreOf t core).ringRecs = (coreOf s core).ringRecs.filter (fun q => !(q.slot == slot && q.idx == r.idx)))

open Sys2Proof Sys2Proof.Machine in
/-- R325 to R327: a die's temperatures as sampled, a report for each junction reading that rises to TWARN, and the trips at 115 and 105 degrees and by order; a cluster that reaches THOT is
held at step 0, and released when it has stayed cool for 1 ms. -/
def Obligations.TemperaturesHoldsAndTrips : Prop :=
  ∀ (s : State) (die : Nat), die < 8 → (dieOf s die).safe = false →
    (∀ js hs cur hbm r, r = (js.take 14).map (Nat.min 255) → cur = maxOf r → hbm = maxOf ((hs.take 2).map (Nat.min 255)) →
      ∃ t, exec (.thermalSample die js hs) s = .next t ∧
        (cur < 115 → hbm < 105 → fld (rdReg t (.therm die)) 23 16 = cur ∧ fld (rdReg t (.therm die)) 31 24 = hbm ∧
          fld (rdReg t (.therm die)) 39 32 = Nat.max (fld (rdReg s (.therm die)) 39 32) cur ∧ OnlyReg s t (.therm die) ∧ t.units = s.units ∧ t.mem = s.mem ∧
          t.hub.reports = s.hub.reports ++ List.replicate ((List.range r.length).filter (fun i =>
            decide (((dieOf s die).readings[i]?).getD 0 < fld (rdReg s (.therm die)) 55 48 ∧ fld (rdReg s (.therm die)) 55 48 ≤ (r[i]?).getD 0))).length (die, 1)) ∧
        (115 ≤ cur → Tripped t die 0xF0) ∧ (cur < 115 → 105 ≤ hbm → Tripped t die 0xF1)) ∧
    (∃ t, exec (.orderedTrip die) s = .next t ∧ Tripped t die 0xF2) ∧
    (∀ cl, cl < 7 → bitN (rdReg s (.therm die)) (8 + cl) = false → fld (rdReg s (.therm die)) 47 40 ≤ junctionOf (dieOf s die).readings cl →
      ∃ t, exec (.thermalHold die cl) s = .next t ∧ fld (rdReg t (.dvfs die cl)) 35 32 = 0 ∧ t.units = s.units ∧ t.mem = s.mem ∧
        ∀ n, bitN (rdReg t (.therm die)) n = (decide (n = 8 + cl) || decide (n = 62) || bitN (rdReg s (.therm die)) n)) ∧
    (∀ cl c, cl < 7 → mget (dieOf s die).cool cl = some c → bitN (rdReg s (.therm die)) (8 + cl) = true → c + 1000000 ≤ (dieOf s die).time →
      ∃ t, exec (.thermalHoldRelease die cl) s = .next t ∧ OnlyReg s t (.therm die) ∧ t.units = s.units ∧ t.mem = s.mem ∧
        (∀ n, n ≠ 62 → bitN (rdReg t (.therm die)) n = (decide (n ≠ 8 + cl) && bitN (rdReg s (.therm die)) n)) ∧
        bitN (rdReg t (.therm die)) 62 = (List.range 7).any (fun k => decide (k ≠ cl) && bitN (rdReg s (.therm die)) (8 + k)))

open Sys2Proof Sys2Proof.Machine in
/-- R359 to R367: transfers of a sector, with the injector off: the L2 asks only for a sector that misses; one without fault; a corrected bit, scrubbed and
logged; two wrong bits, or the poison code, delivered poisoned; a write that puts the array right; a lane that fails, retried every 30 ns up to four attempts,
then replaced by a spare or the channel failed; the end of a swap. (Which sector moves first is an input, log 102; that faults come from the injector
alone is the model's choice, log 46.) -/
def Obligations.HbmTransfers : Prop :=
  ∀ (s : State) (die ch : Nat), die < 8 → Moves s die ch →
    (∀ sector sec : Nat, sec = die * 2 ^ 32 + sector →
      ((∀ w ∈ (dieOf s die).wants, w.1 ≠ sec) ∨ l2Has s die sec = true → exec (.hbmTransfer die sector false) s = .next s) ∧
      (sec ∉ (dieOf s die).wb → exec (.hbmTransfer die sector true) s = .next s)) ∧
    (∀ sector sec : Nat, sec = die * 2 ^ 32 + sector → sectorChan sec = ch → badLanes s die ch = [] →
      (Asked s die sec → ∃ t : State, exec (.hbmTransfer die sector false) s = .next t ∧ Delivered t die sec ∧
        (wrongBits s die sec = [] → sec ∉ (dieOf s die).coded → t.mem = s.mem ∧ t.regs = s.regs ∧ (sec ∈ t.poison ↔ sec ∈ s.poison)) ∧
        (∀ b : Nat, wrongBits s die sec = [b] → sec ∉ (dieOf s die).coded → wrongBits t die sec = [] ∧ t.mem = s.mem ∧ (sec ∈ t.poison ↔ sec ∈ s.poison) ∧
          fld (rdReg t (.hbmlog die)) 63 52 = Nat.min 4095 (fld (rdReg s (.hbmlog die)) 63 52 + 1) ∧
          let r : Nat := rdReg t (.aelog die (fld (rdReg s (.hbmlog die)) 23 19))
          bitN r 127 = true ∧ (sec < 2 ^ 46 → b < 512 → fld r 55 10 = sec ∧ fld r 9 0 = b)) ∧
        (∀ a b : Nat, wrongBits s die sec = [a, b] → sec ∉ (dieOf s die).coded → t.mem = s.mem ∧ sec ∈ t.poison ∧
          fld (rdReg t (.hbmlog die)) 51 44 = Nat.min 255 (fld (rdReg s (.hbmlog die)) 51 44 + 1)) ∧
        (sec ∈ (dieOf s die).coded → t.mem = s.mem ∧ t.regs = s.regs ∧ sec ∈ t.poison)) ∧
      (sec ∈ (dieOf s die).wb → ∃ t : State, exec (.hbmTransfer die sector true) s = .next t ∧ wrongBits t die sec = [] ∧ t.mem = s.mem ∧ t.regs = s.regs ∧
        (dieOf t die).wb = (dieOf s die).wb.erase sec ∧ (sec ∈ (dieOf t die).coded ↔ sec ∈ s.poison))) ∧
    (∀ (sector sec : Nat) (w : Bool), sec = die * 2 ^ 32 + sector → sectorChan sec = ch → badLanes s die ch ≠ [] → (w = false → Asked s die sec) → (w = true → sec ∈ (dieOf s die).wb) →
      ∃ (t : State) (x : Xfer), exec (.hbmTransfer die sector w) s = .next t ∧ (dieOf t die).xfers = (dieOf s die).xfers ++ [x] ∧ t.mem = s.mem ∧ t.regs = s.regs ∧
        x.sector = sec ∧ x.write = w ∧ x.attempts = 1 ∧ x.time = (dieOf s die).time ∧ x.tried = (dieOf s die).time ∧ x.swapping = false ∧
        ∀ l : Nat, l ∈ x.lanes ↔ l ∈ badLanes s die ch) ∧
    (∀ x : Xfer, (dieOf s die).xfers.find? (fun x => sectorChan x.sector == ch && !x.swapping && decide (x.tried + 30 ≤ (dieOf s die).time)) = some x →
      ∃ t : State, exec (.parityRetry die ch) s = .next t ∧
        (badLanes s die ch = [] → x.write = true ∨ (wrongBits s die x.sector = [] ∧ x.sector ∉ (dieOf s die).coded) →
          retries t die ch = (retries s die ch).filter (fun y => y != x) ∧ t.mem = s.mem ∧ (x.write = false → Delivered t die x.sector) ∧
          fld (rdReg t (.hbmlog die)) 43 32 = Nat.min 4095 (fld (rdReg s (.hbmlog die)) 43 32 + 1)) ∧
        (∀ l : List Nat, badLanes s die ch ≠ [] → l = x.lanes.filter (fun l => (badLanes s die ch).contains l) →
          (x.attempts < 3 → ∃ y : Xfer, (dieOf t die).xfers = (dieOf s die).xfers.filter (fun y => y != x) ++ [y] ∧ y.sector = x.sector ∧ y.attempts = x.attempts + 1 ∧
            y.lanes = l ∧ y.swapping = false ∧ y.tried = (dieOf s die).time) ∧
          (3 ≤ x.attempts → l ≠ [] → l.length + (swappedLanes (rdReg s (.lswap die ch))).length ≤ 2 →
            mget (dieOf t die).swaps ch = some (dieOf s die).time ∧
            (swappedLanes (rdReg t (.lswap die ch))).length = l.length + (swappedLanes (rdReg s (.lswap die ch))).length ∧
            ∃ y ∈ (dieOf t die).xfers, y.sector = x.sector ∧ y.swapping = true) ∧
          (3 ≤ x.attempts → l = [] ∨ 2 < l.length + (swappedLanes (rdReg s (.lswap die ch))).length →
            bitN (rdReg t (.lswap die ch)) 63 = true ∧ (x.write = false → x.sector ∈ t.poison) ∧
            retries t die ch = (retries s die ch).filter (fun y => y != x)))) ∧
    (∀ (a : State) (c : Nat), a = { s with dies := mset s.dies die { dieOf s die with swaps := [(ch, c)] } } → c + 2000 ≤ (dieOf s die).time →
      ∃ t : State, exec (.laneSwapDone die ch) a = .next t ∧ mget (dieOf t die).swaps ch = none ∧ ∀ x ∈ retries t die ch, x.swapping = false) ∧
    (∀ (a : State) (sector sec v : Nat), a = { s with regs := mset s.regs (regKey (.lswap die ch)) v } → bitN v 63 = true → sec = die * 2 ^ 32 + sector → sectorChan sec = ch →
      (sec ∈ (dieOf s die).wb → ∃ t : State, exec (.hbmTransfer die sector true) a = .next t ∧ t.mem = a.mem ∧ t.poison = a.poison ∧ wrongBits t die sec = wrongBits a die sec) ∧
      (Asked s die sec → ∃ t : State, exec (.hbmTransfer die sector false) a = .next t ∧ sec ∈ t.poison ∧ t.mem = a.mem ∧ Delivered t die sec))

namespace Sys2Proof

open Sys2Proof.Machine

/-- A command of CORE.DBGCMD has its answer (R352): GO reads 0, and the answer 1 says taken, 2 refused. -/
def CmdAnswered (t : State) (core slot a : Nat) : Prop :=
  bitN (rdReg t (.dbgcmd core slot)) 127 = false ∧ fld (rdReg t (.dbgcmd core slot)) 62 61 = a

end Sys2Proof

open Sys2Proof Sys2Proof.Machine in
/-- R347, R348, R350, R352 to R357: the debugger: a resume lets every group of a stopped unit form candidates again; a step lets one group issue a number of words;
a stop sends the broadcast; each is refused for a unit that it does not fit. A resume of a swapped-out group leaves GO = 1 and the units as they were while the
swap block's bytes wait or a reservation is not free, and is carried out when it is issued again (the model's choice, log 71). A step that has ended, and a watch hit, are debug stops. A query
answers with the name's binding and value. -/
def Obligations.DebuggerCommands : Prop :=
  ∀ (s : State) (core slot v : Nat), bitN v 127 = true →
    (∀ op i, (op, i) ∈ [(1, Instr.dbgResume core slot v), (2, .dbgStep core slot v), (3, .dbgStop core slot v)] → fld v 126 124 = op →
      dbgUnit s core slot v = none → ∃ t, exec i s = .next t ∧ CmdAnswered t core slot 2 ∧ OnlyReg s t (.dbgcmd core slot) ∧ { t with regs := s.regs } = s) ∧
    (∀ u, dbgUnit s core slot v = some u → unitOf s u.uid = some u →
      (fld v 126 124 = 1 → dbgAllStopped u = false →
        ∃ t, exec (.dbgResume core slot v) s = .next t ∧ CmdAnswered t core slot 2 ∧ { t with regs := s.regs } = s) ∧
      (fld v 126 124 = 1 → dbgAllStopped u = true → (∀ x ∈ u.groups, x.dbg.swapped = false) → slotOfDom s core u.dom = some slot →
        ∃ t w, exec (.dbgResume core slot v) s = .next t ∧ CmdAnswered t core slot 1 ∧ unitOf t u.uid = some w ∧ w.dbgSrc = 0 ∧ t.mem = s.mem ∧
          w.groups.map placesOf = u.groups.map placesOf ∧ (∀ x ∈ w.groups, x.dbg.mode = 0 ∧ ∀ h ∈ x.threads, h.joined = false ∧ h.skid = 0) ∧
          ((∀ w ∈ s.units, w.uid ≠ u.uid → w.home = u.home → w.dom = u.dom → w.dbgSrc = 0) → bitN (rdReg t (.dbgstat core slot)) 63 = false)) ∧
      (fld v 126 124 = 1 → dbgAllStopped u = true →
        (fetchAll s u.groups).2 = false ∨ (∃ x ∈ u.groups, x.dbg.mode = 1 ∧ x.dbg.swapped = true ∧ swapFree (fetchAll s u.groups).1 x = false) →
        ∃ t, exec (.dbgResume core slot v) s = .next t ∧ bitN (rdReg t (.dbgcmd core slot)) 127 = true ∧ t.units = s.units) ∧
      (∀ x, fld v 126 124 = 2 → groupOf s u.uid (fld v 75 63) = some x → dbgAllStopped u = true → fld v 123 116 ≠ 0 → x.ended = false → x.dbg.swapped = false →
        ∃ t y, exec (.dbgStep core slot v) s = .next t ∧ CmdAnswered t core slot 1 ∧ groupOf t u.uid x.gidx = some y ∧ y.dbg.mode = 3 ∧ placesOf y = placesOf x ∧
          (∀ h ∈ y.threads, h.exited = false → h.stepLeft = fld v 123 116) ∧ t.mem = s.mem) ∧
      (fld v 126 124 = 2 → (groupIn u (fld v 75 63) = none ∨ fld v 123 116 = 0 ∨ dbgAllStopped u = false) →
        ∃ t, exec (.dbgStep core slot v) s = .next t ∧ CmdAnswered t core slot 2 ∧ { t with regs := s.regs } = s) ∧
      (fld v 126 124 = 3 → u.dbgSrc ≠ 0 → ∃ t, exec (.dbgStop core slot v) s = .next t ∧ CmdAnswered t core slot 2 ∧ { t with regs := s.regs } = s) ∧
      (fld v 126 124 = 3 → u.dbgSrc = 0 → ∃ t w, exec (.dbgStop core slot v) s = .next t ∧ CmdAnswered t core slot 1 ∧ unitOf t u.uid = some w ∧ t.mem = s.mem ∧
        w.groups = u.groups.map (fun y => if y.ended || y.dbg.mode != 0 || y.stopAt.isSome || y.trap.any (fun r => r.dbg != 0) then y
          else { y with stopAt := some ((cyclesOn s core y.core (bcastDelay core y.core)).1, (cyclesOn s core y.core (bcastDelay core y.core)).2, 2) }))) ∧
    (∀ uid g u x, unitOf s uid = some u → groupOf s uid g = some x → x.dbg.mode = 3 →
      (x.trap = none → (∀ h ∈ liveThreads x, h.stepLeft = 0) ∨ standsWaiting s u x = true → ∃ t y r, exec (.dbgStepEnd uid g) s = .next t ∧ groupOf t uid g = some y ∧ y.trap = some r ∧
        r.dbg = 192 ∧ r.fatal = false ∧ r.frame = 0 ∧ r.cond.cause = 0x30 ∧ r.cond.detail = 2 ∧ placesOf y = placesOf x ∧ t.mem = s.mem) ∧
      (∀ r, x.trap = some r → r.dbg = 0 → r.fatal = false ∨ r.frame = 0 →
        ∃ t y k, exec (.dbgStepEnd uid g) s = .next t ∧ groupOf t uid g = some y ∧ y.trap = some k ∧ k.dbg = 192 ∧ k.frame = 0 ∧ k.cond = r.cond ∧
          k.fatal = r.fatal ∧ placesOf y = placesOf x ∧ t.mem = s.mem) ∧
      (x.trap = none → (∃ h ∈ liveThreads x, h.stepLeft ≠ 0) → standsWaiting s u x = false → exec (.dbgStepEnd uid g) s = .next s)) ∧
    (∀ r u x, s.reports.find? (fun q => q.id == r.id) = some r → unitOf s r.uid = some u → groupOf s r.uid r.g = some x →
      (bitN (rdReg s (.dbgctl x.core x.slot)) 63 = false →
        exec (.watchHitReport r.id) s = .next { s with reports := s.reports.filter (fun q => q.id != r.id) }) ∧
      (bitN (rdReg s (.dbgctl x.core x.slot)) 63 = true → u.chk = false → u.cancel = 0 → x.ended = false → x.dbg.mode = 0 → x.trap = none →
        ∃ t y k, exec (.watchHitReport r.id) s = .next t ∧ t.reports = s.reports.filter (fun q => q.id != r.id) ∧ groupOf t r.uid r.g = some y ∧
          y.trap = some k ∧ k.dbg = 128 + 16 * 2 + r.reg ∧ k.fatal = false ∧ k.cond.cause = 0x30 ∧ k.cond.widx = r.widx ∧ k.cond.word = r.word ∧
          k.cond.addr = r.addr ∧ y.stopAt = none ∧ placesOf y = placesOf x ∧ t.mem = s.mem)) ∧
    (∀ u x c n, s.units.findSome? (fun u => (u.groups.find? (fun x => x.core == core && x.part == fld v 123 120 && x.tslot == fld v 119 116 &&
        x.base == fld v 115 111)).map (fun x => (u, x))) = some (u, x) → (fld v 110 108, c) ∈ [(0, NClass.lane), (1, .uniform), (2, .perm), (3, .acc)] →
      n = fld v 107 97 →
      ∃ t, exec (.dbgQuery core v) s = .next t ∧ t.units = s.units ∧ t.mem = s.mem ∧ (coreOf t core).dbgqr = bindRec x c n ++
        (match nameOf x c n with
        | none => List.replicate 256 0
        | some m => match c with
          | .lane => (List.range 64).flatMap (fun k => bytesOfNat 4 (if k < x.width then ((wordsNow s u x m k)[0]?).getD 0 else 0).toNat)
          | .uniform => (List.range 64).flatMap (fun k => bytesOfNat 4 (if k < x.width then ((wordsNow s u x m 0)[0]?).getD 0 else 0).toNat)
          | .perm => bytesOfWords (wordsNow s u x m 0) ++ List.replicate 208 0
          | .acc => List.replicate 256 0))

namespace Sys2Proof

open Sys2Proof.Machine

/-- The chain of a channel has reached an entry that it may read (R233, R236): the run `r` of a group `x` of unit `u` with its outstanding operation `q`, and
the entry's 32 bytes `b`, which break no rule of R296. -/
structure Reached (s : State) (core ch : Nat) (r : ChainRun) (u : DUnit) (x : Group) (q : EqEntry) (b : List Byte) : Prop where
  run : (chanOf s core ch).run = some r
  unit : unitOf s r.req.uid = some u
  group : groupOf s r.req.uid r.req.g = some x
  entry : eqOf x (if ch = 4 then 2 else 0) r.req.eq = some q
  walks : r.ended = false ∧ r.since = none ∧ r.due ≤ clkOf s core
  bytes : (r.ent = [] ∧ inBuf u core (r.req.head + 32 * r.e) 32 = true ∧ b = homeRead s (scratchPa core (r.req.head + 32 * r.e)) 32) ∨ (r.ent ≠ [] ∧ b = r.ent)
  sound : entryCond s u x r (ch == 4) b = none

/-- The chain goes on to entry `e`, which it reads two cycles on (R236). -/
def ChainAt (s t : State) (core ch : Nat) (r : ChainRun) (e : Nat) (ended : Bool) : Prop :=
  ∃ r', (chanOf t core ch).run = some r' ∧ r'.req = r.req ∧ r'.e = e ∧ r'.ended = ended ∧ r'.since = none ∧
    (ended = false → r'.ent = [] ∧ r'.prog = 0 ∧ r'.due = clkOf s core + 2)

/-- The relation of a skip entry (R239): field 0 equal, 1 not equal, 2 below, 3 not below. -/
def SkipRel (f v w : Nat) : Prop := (f = 0 ∧ v = w) ∨ (f = 1 ∧ v ≠ w) ∨ (f = 2 ∧ v < w) ∨ (f = 3 ∧ w ≤ v)

/-- No watchpoint of any die is on (R345). -/
def NoWatch (s : State) : Prop := ∀ d n, bitN (rdReg s (.watch d n)) 127 = false

/-- An operation of a group has finished (R96). -/
def Finished (t : State) (uid g cls id : Nat) : Prop := ∃ y e, groupOf t uid g = some y ∧ eqOf y cls id = some e ∧ e.fin = true

end Sys2Proof

open Sys2Proof Sys2Proof.Machine in
/-- R96, R190, R233, R234, R239, R240, R244, R324: a chain from its start to its end: loop entries go back COUNT times, skip entries compare, wait and pass over,
signals arrive at a cell or advance the write pointer, the end entry ends the walk; a skip that waits 2 to the 24 cycles ends its chain with CHAIN 10;
the operation retires from the head of its class. -/
def Obligations.ChainEntries : Prop :=
  ∀ (s : State) (core ch : Nat),
    (∀ r, (chanOf s core ch).run = none → nextChain s core ch = some r → mayStart s r.uid r.g (if ch = 4 then 2 else 0) r.eq = true →
      ∃ t, exec (.chainStart core ch) s = .next t ∧ (chanOf t core ch).run = some ⟨r, 0, [], [], 0, [], none, clkOf s core, false⟩ ∧
        (chanOf t core ch).waiting = (chanOf s core ch).waiting.filter (fun q => !(q.eq == r.eq && q.uid == r.uid && q.g == r.g)) ∧
        (coreOf t core).cpwp = (if ch < 4 then setAt (coreOf s core).cpwp ch 0 else (coreOf s core).cpwp) ∧ t.mem = s.mem) ∧
    (∀ r u x q b, Reached s core ch r u x q b →
      (numAt b 0 1 = 2 → ∃ t, exec (.loopEntry core ch) s = .next t ∧ t.mem = s.mem ∧
        let done := ((mget r.its r.e).map (fun k => k.1)).getD 0
        if done < numAt b 4 4 then ChainAt s t core ch r (r.e - numAt b 8 2) false else ChainAt s t core ch r (r.e + 1) false) ∧
      (numAt b 0 1 = 3 → core < 224 → r.req.slot < 8 → ∃ t, exec (.skipEntry core ch) s = .next t ∧ t.mem = s.mem ∧
        let v := skipValue s core r b
        let f := numAt b 1 1 / 2 % 4
        (bitN (numAt b 1 1) 3 = true → SkipRel f v (numAt b 16 8) → ChainAt s t core ch r (r.e + 1) false) ∧
        (bitN (numAt b 1 1) 3 = true → ¬ SkipRel f v (numAt b 16 8) →
          ∃ r', (chanOf t core ch).run = some r' ∧ r'.e = r.e ∧ r'.since = some (clkOf s core) ∧ r'.ent = b ∧ r'.due = clkOf s core + 1) ∧
        (bitN (numAt b 1 1) 3 = false → ¬ SkipRel f v (numAt b 16 8) → ChainAt s t core ch r (r.e + 1) false) ∧
        (bitN (numAt b 1 1) 3 = false → SkipRel f v (numAt b 16 8) → skipPassesEnd s u core r (numAt b 2 2) = false →
          ChainAt s t core ch r (r.e + 1 + numAt b 2 2) false)) ∧
      (numAt b 0 1 = 4 → numAt b 1 1 = 0 → u.chk = false → ∃ t, exec (.signalArrive core ch) s = .next t ∧ t.mem = s.mem ∧ ChainAt s t core ch r (r.e + 1) false ∧
        ∀ c, cellOf u (numAt b 2 1) = some c → u.cancel = 0 → c.cnt + 1 ≠ c.tgt →
          ∃ w, unitOf t r.req.uid = some w ∧ cellOf w (numAt b 2 1) = some { c with cnt := c.cnt + 1 }) ∧
      (numAt b 0 1 = 4 → numAt b 1 1 = 1 → ∃ t, exec (.signalAdvance core ch) s = .next t ∧ t.mem = s.mem ∧ ChainAt s t core ch r (r.e + 1) false ∧
        (coreOf t core).cpwp = modAt (coreOf s core).cpwp ch (fun v => (v + numAt b 4 4) % 2 ^ 64)) ∧
      (numAt b 0 1 = 0 → ∃ t, exec (.endEntry core ch) s = .next t ∧ t.mem = s.mem ∧ ChainAt s t core ch r r.e true)) ∧
    (∀ r u, (chanOf s core ch).run = some r → r.since ≠ none → unitOf s r.req.uid = some u →
      (u.cancel ≠ 0 → ∃ t, exec (.skipWaitSatisfied core ch) s = .next t ∧ t.mem = s.mem ∧ ChainAt s t core ch r r.e true) ∧
      (u.cancel = 0 → r.due ≤ clkOf s core → r.ended = false → SkipRel (numAt r.ent 1 1 / 2 % 4) (skipValue s core r r.ent) (numAt r.ent 16 8) →
        ∃ t, exec (.skipWaitSatisfied core ch) s = .next t ∧ t.mem = s.mem ∧ ChainAt s t core ch r (r.e + 1) false) ∧
      (u.cancel = 0 → ¬ SkipRel (numAt r.ent 1 1 / 2 % 4) (skipValue s core r r.ent) (numAt r.ent 16 8) →
        ∃ t, exec (.skipWaitSatisfied core ch) s = .next t ∧ t.mem = s.mem ∧
          (chanOf t core ch).run = some (if r.due ≤ clkOf s core then { r with due := clkOf s core + 1 } else r))) ∧
    (∀ r c u x q, (chanOf s core ch).run = some r → r.since = some c → c + 2 ^ 24 ≤ clkOf s core →
      ¬ SkipRel (numAt r.ent 1 1 / 2 % 4) (skipValue s core r r.ent) (numAt r.ent 16 8) → unitOf s r.req.uid = some u → u.cancel = 0 →
      groupOf s r.req.uid r.req.g = some x → eqOf x (if ch = 4 then 2 else 0) r.req.eq = some q → x.trap = none → x.ended = false → inHandler x = false →
      ∃ t y k, exec (.skipWaitLimit core ch) s = .next t ∧ t.mem = s.mem ∧ (chanOf t core ch).run = none ∧ groupOf t r.req.uid r.req.g = some y ∧
        y.trap = some k ∧ k.cond.cause = 0x20 ∧ k.cond.detail = 10 ∧ k.cond.addr = r.req.head + 32 * r.e ∧
        Finished t r.req.uid r.req.g (if ch = 4 then 2 else 0) r.req.eq) ∧
    (∀ r x q, (chanOf s core ch).run = some r → r.ended = true → groupOf s r.req.uid r.req.g = some x →
      eqOf x (if ch = 4 then 2 else 0) r.req.eq = some q →
      ∃ t, exec (.chainFinish core ch) s = .next t ∧ t.mem = s.mem ∧ (chanOf t core ch).run = none ∧
        Finished t r.req.uid r.req.g (if ch = 4 then 2 else 0) r.req.eq) ∧
    (∀ uid g cls x e l, groupOf s uid g = some x → (x.eq[cls]?).getD [] = e :: l → e.fin = true → (∀ r ∈ s.reports, e.id = 0 ∨ r.eq ≠ e.id) →
      ∃ t, exec (.eqRetire uid g cls) s = .next t ∧ t.mem = s.mem ∧
        groupOf t uid g = some { x with oc := modAt x.oc cls (fun n => n - 1), eq := modAt x.eq cls (fun q => q.drop 1) })

namespace Sys2Proof

open Sys2Proof.Machine

/-- The exact number that a finite value stands for (R100, R107). -/
def flQ : Fl → ℚ
  | .nan => 0
  | .inf _ => 0
  | .fin b m k => (if b then -1 else 1) * (m : ℚ) * (2 : ℚ) ^ k

/-- A block quantised to lt8 (`fmt` 1) or lt4 (R115): its codes and its scale byte. -/
def Quantised (fmt : Nat) (xs : List Fl) (codes : List Nat) (scale : Nat) : Prop :=
  ((∃ x ∈ xs, x.finite = false) → scale = 255 ∧ codes = xs.map (fun _ => if fmt = 1 then 0x80 else 8)) ∧
  ((∀ x ∈ xs, x.finite = true) → ∃ E : Int, -127 ≤ E ∧ E ≤ 127 ∧ (scale : Int) = E + 127 ∧
    codes = xs.map (fun x => (if fmt = 1 then toLt8 else toLt4) 1 (shiftFl (-E) x)) ∧
    ((∀ x ∈ xs, flQ x = 0) → E = 0) ∧
    ((∃ x ∈ xs, flQ x ≠ 0) → (E < 127 → ∀ x ∈ xs, |flQ x| ≤ (if fmt = 1 then 31 / 2 else 3) * (2 : ℚ) ^ E) ∧
      (-127 < E → ∃ x ∈ xs, (if fmt = 1 then 31 / 2 else 3) * (2 : ℚ) ^ (E - 1) < |flQ x|)))

/-- Byte `q` of a block's codes: one code to a byte in lt8, two in lt4, the even one low (R109). -/
def codeByte (fmt : Nat) (codes : List Nat) (q : Nat) : Byte :=
  if fmt = 1 then BitVec.ofNat 8 ((codes[q]?).getD 0)
  else BitVec.ofNat 8 ((codes[2 * q]?).getD 0 % 16 + 16 * ((codes[2 * q + 1]?).getD 0 % 16))

/-- Byte `o` of destination row `row` of a quantising move (R238): the packed elements of the row's blocks, then their scales. -/
def QuantByte (s : State) (c : Cmd) (m : Move) (row o : Nat) (v : Byte) : Prop :=
  let fmt := m.aux % 4
  let blk := if bitN m.aux 3 then 16 else 32
  let isz := if bitN m.aux 2 then 2 else 4
  let nblk := m.rowlen / (blk * isz)
  let dsz := if fmt = 1 then blk else blk / 2
  let k := if o < nblk * dsz then o / dsz else o - nblk * dsz
  ∃ src codes scale, engRead s c ((m.src + row * m.sstr + k * (blk * isz)) % 2 ^ 64) (blk * isz) = .bytes src ∧
    Quantised fmt ((List.range blk).map (fun i => if bitN m.aux 2 then bf16.val (numAt src (2 * i) 2) else f32.val (numAt src (4 * i) 4))) codes scale ∧
    v = if o < nblk * dsz then codeByte fmt codes (o % dsz) else BitVec.ofNat 8 scale

/-- The value of row `k` and column `j` of panel `p` of a transposing move's source (R215, R237): the element times its scale. -/
def SourceValue (s : State) (c : Cmd) (m : Move) (p j k : Nat) (v : Fl) : Prop :=
  let row := m.src + (32 * p + k) * m.sstr
  ∃ e f, v = mulFl (if m.aux % 8 = 1 then lt8Val e.toNat else lt4Val (if j % 2 = 0 then e.toNat % 16 else e.toNat / 16)) (scaleVal f) ∧
    engRead s c ((if m.aux % 8 = 1 then row + j else row + j / 2) % 2 ^ 64) 1 = .bytes [e] ∧
    engRead s c ((if m.aux % 8 = 1 then row + 64 + j / 32 else row + 32 + j / (if bitN m.aux 4 then 16 else 32)) % 2 ^ 64) 1 = .bytes [f]

/-- Byte `q` of column `j` of panel `p` of a transposing move (R204, R215): the codes of its blocks along K; of 16-bit elements the element's own. -/
def PanelByte (s : State) (c : Cmd) (m : Move) (p j q : Nat) (v : Byte) : Prop :=
  let fmt := m.aux % 8
  if fmt = 1 ∨ fmt = 2 then
    let blk := if bitN m.aux 3 then 16 else 32
    let dsz := if fmt = 1 then blk else blk / 2
    ∃ vs codes scale, vs.length = blk ∧ (∀ i x, vs[i]? = some x → SourceValue s c m p j (q / dsz * blk + i) x) ∧
      Quantised fmt vs codes scale ∧ v = codeByte fmt codes (q % dsz)
  else ∃ e, engRead s c ((m.src + (32 * p + q / 2) * m.sstr + 2 * j) % 2 ^ 64) 2 = .bytes e ∧ v = (e[q % 2]?).getD 0

/-- The scale of block `h` of column `j` of panel `p` of a transposing move (R204, R215). -/
def PanelScale (s : State) (c : Cmd) (m : Move) (p j h : Nat) (v : Byte) : Prop :=
  let blk := if bitN m.aux 3 then 16 else 32
  ∃ vs codes scale, vs.length = blk ∧ (∀ i x, vs[i]? = some x → SourceValue s c m p j (h * blk + i) x) ∧
    Quantised (m.aux % 8) vs codes scale ∧ v = BitVec.ofNat 8 scale

/-- Byte `k` of the bytes that a transposing move delivers, and its place from DST (R237): the panels, then the scale area. -/
def TransposedByte (s : State) (c : Cmd) (m : Move) (k place : Nat) (v : Byte) : Prop :=
  let fmt := m.aux % 8
  let pb := if fmt = 1 then 2048 else if fmt = 2 then 1024 else 4096
  let nb := if bitN m.aux 3 then 2 else 1
  let size := m.rows / 32 * pb
  if k < size then place = k ∧ PanelByte s c m (k / pb) (k % pb / (pb / 64)) (k % (pb / 64)) v
  else place = m.dstr + (k - size) ∧ PanelScale s c m ((k - size) / (64 * nb)) ((k - size) % (64 * nb) / nb) ((k - size) % nb) v

end Sys2Proof

open Sys2Proof Sys2Proof.Machine in
/-- R83, R97, R115, R204, R215, R231, R235 to R238: a step of a move: the parts of its next 64 delivered bytes, read at HOME and made as its mode says, stand at
their destinations; the write pointer counts them; a copy channel's step takes one cycle; after the last the chain goes on to the next entry. A row's bytes of the
plain and permuting modes, the bytes that the quantising mode makes of a row, and the panels and scales of the transposing mode, byte by byte. -/
def Obligations.MoveEntries : Prop :=
  ∀ (s : State) (core ch : Nat) (r : ChainRun) (u : DUnit) (x : Group) (q : EqEntry) (b : List Byte) (mode : Nat) (i : Instr),
    Reached s core ch r u x q b →
    (mode, i) ∈ [(0, Instr.movePlain core ch), (1, .movePermute core ch), (2, .moveTransposeRequantise core ch), (3, .moveQuantise core ch)] →
    numAt b 0 1 = 1 → numAt b 1 1 = mode → NoWatch s → MemoryGood s → (mode = 1 → r.perm = [] → permFails s u x (numAt b 3 1) = none) →
    let m := moveOf { r with ent := b } b
    let c := chainCmd s x core ch r q
    let map := permMap (if r.perm.isEmpty then permNow s u x m.aux else r.perm)
    let n := Nat.min 64 (m.total - r.prog)
    (∀ z parts, readSegs s c m r.prog (segsFrom m (if mode = 1 then map else []) 64 r.prog n) = (.bytes z, parts) → runsCond s c m (joinRuns parts) = none →
      ∃ t k r', exec i s = .next t ∧ t.mem = (writeRuns s c m (joinRuns parts)).mem ∧ 1 ≤ k ∧ (ch ≠ 4 → k = 1) ∧
        (coreOf t core).cpwp = (if ch < 4 then modAt (coreOf s core).cpwp ch (fun v => (v + n) % 2 ^ 64) else (coreOf s core).cpwp) ∧
        (chanOf t core ch).run = some r' ∧ r'.req = r.req ∧ r'.ended = false ∧ r'.since = none ∧
        (r.prog + n = m.total → r'.e = r.e + 1 ∧ r'.ent = [] ∧ r'.prog = 0 ∧ r'.due = clkOf s core + k + 1) ∧
        (r.prog + n ≠ m.total → r'.e = r.e ∧ r'.prog = r.prog + n ∧ r'.due = clkOf s core + k)) ∧
    (∀ row o bs w, mode = 0 ∨ mode = 1 → m.mcast = 0 → row = r.prog / m.rowlen → o = r.prog % m.rowlen → o + n ≤ m.rowlen → 0 < n →
      engRead s c ((m.src + (if mode = 0 then row else row / map.length * map.length + (map[row % map.length]?).getD 0) * m.sstr + o) % 2 ^ 64) n = .bytes bs →
      bs.length = n → engWrite s c [((m.dst + row * m.dstr + o) % 2 ^ 64, bs)] = .ok w → ∃ t, exec i s = .next t ∧ t.mem = w.mem) ∧
    (∀ row o bs w, mode = 3 → m.mcast = 0 → row = r.prog / m.rowDst → o = r.prog % m.rowDst → o + n ≤ m.rowDst → 0 < n → bs.length = n →
      (∀ j v, bs[j]? = some v → QuantByte s c m row (o + j) v) → engWrite s c [((m.dst + row * m.dstr + o) % 2 ^ 64, bs)] = .ok w →
      ∃ t, exec i s = .next t ∧ t.mem = w.mem) ∧
    (∀ at0 bs w, mode = 2 → m.mcast = 0 → 0 < n → bs.length = n → (∀ j v, bs[j]? = some v → TransposedByte s c m (r.prog + j) (at0 + j) v) →
      engWrite s c [((m.dst + at0) % 2 ^ 64, bs)] = .ok w → ∃ t, exec i s = .next t ∧ t.mem = w.mem)

namespace Sys2Proof

open Sys2Proof.Machine

/-- A byte range of memory at HOME: HBM5 or host memory. -/
def Plain (pa : Nat) : Prop := (∃ d, plocOf pa = .hbm d) ∨ plocOf pa = .host

/-- The number of a cell's 8 bytes. -/
def cellValue (s : State) (pa : Nat) : Nat := natOfBytes ((List.range 8).map (fun i => Memory.read s.mem (pa + i)))

/-- Element `k` of 32 that stand along K from a place on (R107, R109, R204, R205). -/
def elemAt (s : State) (fmt pa k : Nat) : Fl :=
  if fmt = 1 then lt8Val (numOf s (pa + k) 1)
  else if fmt = 2 then lt4Val (if k % 2 = 0 then numOf s (pa + k / 2) 1 % 16 else numOf s (pa + k / 2) 1 / 16)
  else (if fmt = 3 then f16 else bf16).val (numOf s (pa + 2 * k) 2)

/-- The scale of element `k` of a row or column (R110, R204, R205); 1 for the 16-bit formats. -/
def scaleAt (s : State) (fmt : Nat) (b16 : Bool) (pa k : Nat) : Fl :=
  if 3 ≤ fmt then .fin false 1 0 else scaleVal (BitVec.ofNat 8 (numOf s (pa + if b16 then k / 16 else 0) 1))

/-- Element (k, j) of panel `p` of a reservation and its scale (R203, R204). -/
def panelAt (s : State) (core part : Nat) (v : Rsv) (p j k : Nat) : Fl × Fl :=
  let fmt := fld v.record.toNat 31 28
  let b16 := bitN v.record.toNat 27
  let base := obufPa core part (1024 * v.start)
  let pb := if fmt = 1 then 2048 else if fmt = 2 then 1024 else 4096
  (elemAt s fmt (base + p * pb + j * (pb / 64)) k,
    scaleAt s fmt b16 (base + 64 * fld v.record.toNat 23 12 + if b16 then 128 * p + 2 * j else 64 * p + j) k)

/-- Element (i, k) of the A operand of `mx.mma` and its scale (R205). -/
def aAt (s : State) (core fmt : Nat) (b16 : Bool) (desc : List Word) (i k : Nat) : Fl × Fl :=
  let w := fun n => ((desc[n]?).getD 0).toNat
  (elemAt s fmt (scratchPa core (fld (w 0) 21 0 + i * fld (w 1) 15 0)) k, scaleAt s fmt b16 (scratchPa core (fld (w 2) 21 0 + i * fld (w 3) 15 0)) k)

/-- Element (i, k) of the unfolded operand of `mx.mcv` and its scale (R208). -/
def unfoldedAt (s : State) (core : Nat) (h : Shape) (p i k : Nat) : Fl × Fl :=
  let g := 32 * p + k
  let c := g % h.c
  let r := g / h.c
  let y : Int := ((h.q0 + i) / h.ow * h.sy : Nat) - (h.pt : Int) + (r / h.kw * h.dy : Nat)
  let x : Int := ((h.q0 + i) % h.ow * h.sx : Nat) - (h.pl : Int) + (r % h.kw * h.dx : Nat)
  (if g ≥ h.kh * h.kw * h.c then .fin false 0 0
   else if 0 ≤ y ∧ y < h.ih ∧ 0 ≤ x ∧ x < h.iw then
     elemAt s h.xfmt (scratchPa core (h.base + ((y.toNat * h.iw + x.toNat) * h.c + c) * (if h.xfmt = 1 then 1 else 2))) 0
   else lt8Val h.pad,
   if h.xfmt = 1 then scaleVal (BitVec.ofNat 8 h.asc) else .fin false 1 0)

/-- An accumulator element after a step over some terms a, sa, b, sb (R112): NaN first, then an infinity, then the exact sum, rounded once. A sum of
exactly zero is -0 only when all are. (Of a sum that is not zero and rounds to zero the sign is its own: DESIGN CHOICE, log 109.) -/
def StepElement (acc : Word) (ts : List ((Fl × Fl) × (Fl × Fl))) (w : Word) : Prop :=
  let u := f32.val acc.toNat :: ts.map (fun t => mulFl (mulFl t.1.1 t.1.2) (mulFl t.2.1 t.2.2))
  (Fl.nan ∈ u ∨ (Fl.inf false ∈ u ∧ Fl.inf true ∈ u) → w = 0x7FC00000) ∧
  (∀ b, Fl.nan ∉ u → Fl.inf b ∈ u → Fl.inf (!b) ∉ u → w = if b then 0xFF800000 else 0x7F800000) ∧
  ((∀ v ∈ u, v.finite = true) →
    ((u.map flQ).sum = 0 → ((∀ v ∈ u, ∃ k, v = .fin true 0 k) → w = 0x80000000) ∧ ((∃ v ∈ u, ∀ k, v ≠ .fin true 0 k) → w = 0)) ∧
    ((u.map flQ).sum ≠ 0 → ∃ e, e.finite = true ∧ flQ e = (u.map flQ).sum ∧ w = BitVec.ofNat 32 (roundFl f32 1 e)))

/-- The columns of a row after a step over the K indices `ks` with the A operand `a` (R206). -/
def StepRow (s : State) (core part : Nat) (v : Rsv) (p : Nat) (old : List Word) (ks : List Nat) (a : Nat → Fl × Fl) (row : List Word) : Prop :=
  ∀ j < 64, ∃ w, row[j]? = some w ∧ StepElement ((old[j]?).getD 0) (ks.map (fun k => (a k, panelAt s core part v p j k))) w

/-- The row that an array word makes of thread `t`'s old row (R206 to R209), from memory at HOME; `map` is the map of its generator's register. -/
def RowMade (s : State) (core part : Nat) (e : MxEntry) (map : List Nat) (t : Nat) (old row : List Word) : Prop :=
  let rsv := fun (h : Word) => rsvOf (partOf (coreOf s core) part) e.uid e.g h
  match e.op with
  | .mma desc h p => ∃ v, rsv h = some v ∧
      StepRow s core part v p.toNat old (List.range 32) (aAt s core (fld v.record.toNat 31 28) (bitN v.record.toNat 27) desc t) row
  | .mmag gen h p => ∃ v, rsv h = some v ∧
      let kb := if bitN gen.toNat 7 then 32 else 0
      let ks := (List.range 32).filter (fun k => decide (fld gen.toNat 31 28 = 1 ∨ (fld gen.toNat 31 28 = 0 ∧ map[t]? = some (kb + k)) ∨
        (fld gen.toNat 31 28 = 2 ∧ t = kb + k)))
      (ks = [] → row = old) ∧ (ks ≠ [] → StepRow s core part v p.toNat old ks (fun _ => (.fin false 1 0, .fin false 1 0)) row)
  | .mcv shape h p => (shapeOf shape).ow ≠ 0 → ∃ v, rsv h = some v ∧ StepRow s core part v p.toNat old (List.range 32) (unfoldedAt s core (shapeOf shape) p.toNat t) row
  | .zero => row = List.replicate 64 0
  | .put vals cols => ∀ j < 64, row[j]? = some (if j = ((mget cols t).getD 0).toNat % 64 then (mget vals t).getD 0 else (old[j]?).getD 0)
  | .rscale exps => ∀ j < 64, row[j]? = some (BitVec.ofNat 32 (fLdexp 1 false ((old[j]?).getD 0).toNat ((mget exps t).getD 0).toInt))
  | .get _ _ => True
  | .rmax _ => True
  | .sto _ => True

/-- The largest element of a row (R106, R209). -/
def RowLargest (row : List Word) (w : Word) : Prop :=
  ((∀ v ∈ row, f32.isNan v.toNat = true) → w = 0x7FC00000) ∧
  ((∃ v ∈ row, f32.isNan v.toNat = false) → w ∈ row ∧ f32.isNan w.toNat = false ∧ ∀ v ∈ row, f32.isNan v.toNat = false → f32.key v.toNat ≤ f32.key w.toNat)

/-- A run of the array: it starts now, and its results stand 10 clocks after its occupancy (R212). -/
def RunsNow (s : State) (core : Nat) (e : MxEntry) (r : MxRun) : Prop := r.ent = e ∧ r.start = clkOf s core ∧ r.endClk = r.start + r.occ + 10

end Sys2Proof

open Sys2Proof Sys2Proof.Machine in
/-- R99, R242, R243, R327: a put's bytes at its target, then its arrived cell, then its acked cell, by which it finishes; a get's bytes at its source's LOC; an
operation that has started keeps its entry of the window table as it was; another device's put and get through a window registered here. (All bytes of a put,
and all bytes of a get, perform in one step: the model's choice, log 60; what another device accesses is an input, log 41.) -/
def Obligations.WindowOperations : Prop :=
  ∀ (s : State) (uid g : Nat),
    (∀ x e w d bs va pa a, nextWindow s uid g false = some (x, e) → windowCond s x e false = none → d = wdescOf (descBytes s x e) →
      w = windowOf s (dieOfCore x.core) d.widx → w.far s = false → engCheck s x.core x.asid x.dom true [(d.acka, 8)] = .ok a →
      engRead s (winCmd uid x e) d.loc d.len = .bytes bs → NoWatch s → MemoryGood s →
      targetCheck s w.tdie w.tasid w.tdom true (pieces (bs.length + 1) (w.base + d.toff) bs.length) = .ok [(va, pa, bs.length)] → va = w.base + d.toff → Plain pa →
      ∃ t y e', exec (.windowPut uid g) s = .next t ∧ BytesWritten s.mem t.mem pa bs ∧ groupOf t uid g = some y ∧ eqOf y 4 e.id = some e' ∧
        e'.started = true ∧ e'.stage = 1 ∧ argWindow e'.arg = w ∧ argLen e'.arg = d.len ∧ argLoc e'.arg = d.acka) ∧
    (∀ x e w pa, windowAt s uid g 1 = some (x, e) → w = argWindow e.arg → w.far s = false → (dieOf s w.tdie).safe = false →
      targetPiece s w.tdie w.tasid w.tdom true w.arrv 8 = .ok pa → Plain pa → poisoned s pa 8 = none → MemoryGood s →
      (∀ p ∈ (coreOf s x.core).pool, p.buffered = false) →
      ∃ t y e', exec (.putArrivedAdvance uid g) s = .next t ∧ BytesWritten s.mem t.mem pa (bytesOfNat 8 (cellValue s pa + argLen e.arg)) ∧
        groupOf t uid g = some y ∧ eqOf y 4 e.id = some e' ∧ e'.stage = 2) ∧
    (∀ x e pa, windowAt s uid g 2 = some (x, e) → (argWindow e.arg).far s = true ∨ (dieOf s (argWindow e.arg).tdie).safe = false → engCheck s x.core x.asid x.dom true [(argLoc e.arg, 8)] = .ok [(argLoc e.arg, pa, 8)] → Plain pa →
      poisoned s pa 8 = none → MemoryGood s → (∀ p ∈ (coreOf s x.core).pool, p.buffered = false) → (∀ r ∈ s.reports, e.id = 0 ∨ r.eq ≠ e.id) →
      ∃ t, exec (.putAckedAdvance uid g) s = .next t ∧ BytesWritten s.mem t.mem pa (bytesOfNat 8 (cellValue s pa + argLen e.arg)) ∧
        Finished t uid g 4 e.id) ∧
    (∀ x e d l, nextWindow s uid g true = some (x, e) → windowCond s x e true = none → d = wdescOf (descBytes s x e) →
      engCheck s x.core x.asid x.dom true (pieces (d.len + 1) d.loc d.len) = .ok l →
      ∃ t y e', exec (.windowGet uid g) s = .next t ∧ t.mem = s.mem ∧ groupOf t uid g = some y ∧ eqOf y 4 e.id = some e' ∧ e'.started = true ∧ e'.stage = 3 ∧
        argWindow e'.arg = windowOf s (dieOfCore x.core) d.widx ∧ argLen e'.arg = d.len ∧ argLoc e'.arg = d.loc ∧ argOff e'.arg = d.toff) ∧
    (∀ x e w va pa n u v, windowAt s uid g 3 = some (x, e) → w = argWindow e.arg → w.far s = false → (dieOf s w.tdie).safe = false → n = argLen e.arg → MemoryGood s →
      targetCheck s w.tdie w.tasid w.tdom false (pieces (n + 1) (w.base + argOff e.arg) n) = .ok [(va, pa, n)] → Plain pa → poisoned s pa n = none →
      (∀ p ∈ (coreOf s x.core).pool, p.buffered = false) → NoWatch s →
      engCheck s x.core x.asid x.dom true (pieces (n + 1) (argLoc e.arg) n) = .ok [(argLoc e.arg, v, n)] → Plain v →
      unitOf s uid = some u → u.chk = false →
      ∃ t, exec (.getBytesPerformed uid g) s = .next t ∧ Finished t uid g 4 e.id ∧
        BytesWritten s.mem t.mem v ((List.range n).map (fun i => Memory.read s.mem (pa + i)))) ∧
    (∀ acc w va pa cell, w = windowOf s acc.die acc.win → w.v = true → acc.toff + acc.len ≤ w.size → acc.len ≠ 0 → windowPlaced w = true →
      bitN (rdReg s (.therm acc.die)) 63 = false → (dieOf s acc.die).safe = false → MemoryGood s →
      targetCheck s acc.die w.tasid w.tdom acc.put (pieces (acc.len + 1) (w.base + acc.toff) acc.len) = .ok [(va, pa, acc.len)] → va = w.base + acc.toff → Plain pa →
      (acc.put = true → acc.bytes.length = acc.len → targetPiece s acc.die w.tasid w.tdom true w.arrv 8 = .ok cell → Plain cell →
        (cell + 8 ≤ pa ∨ pa + acc.len ≤ cell) → poisoned s cell 8 = none → (∀ p ∈ (coreOf s (28 * acc.die)).pool, p.buffered = false) →
        ∃ t, exec (.remWindowAccess acc) s = .next t ∧ t.units.length = s.units.length ∧
          (Memory.wf s.mem = true → BytesWritten (Memory.writeAll s.mem pa acc.bytes) t.mem cell (bytesOfNat 8 (cellValue s cell + acc.len)))) ∧
      (acc.put = false → poisoned s pa acc.len = none → ∃ t, exec (.remWindowAccess acc) s = .next t ∧ t.mem = s.mem ∧ t.units = s.units ∧
        t.hub.answers = s.hub.answers ++ [natOfBytes ((List.range acc.len).map (fun i => Memory.read s.mem (pa + i)))]))

open Sys2Proof Sys2Proof.Machine in
/-- R106, R110, R112, R202 to R212, R221 to R228: the array's oldest word starts two clocks after its issue (six for `mx.mcv`) when the array is free, with the
rows, lane values and stores of its rule, and its results are written when its time is up and its earlier writes have
come; its stored rows perform. (A word reads as it starts; what is written
under it while it reads may reach it or not: DESIGN CHOICE, log 59.) The route solver likewise: an operation starts, and its register is written when its time is up, the
generator's state of `pm.rand` with it; a saved register's 48 bytes perform in the scratchpad. (The values for mx.mcv with OW = 0 are free, log 11; the sign of a sum that is
not zero and rounds to zero is the model's choice, log 109.) -/
def Obligations.ArrayAndSolverRuns : Prop :=
  ∀ (s : State) (core part : Nat),
    (∀ (e : MxEntry) (u : DUnit) (x : Machine.Group) (q : EqEntry) (m : NameSt), mxHead s core part = some e → unitOf s e.uid = some u → groupOf s e.uid e.g = some x → eqOf x 1 e.eq = some q →
      nameOf x .acc e.tile = some m → m.spilled = false → (e.op ≠ .zero → ∀ k ∈ m.entries, k.held = true → k.inSlot = false) → x.core = core → x.part = part → NoWatch s → MemoryGood s →
      (∀ n, opPerm e = some n → permFails s u x n = none) → e.clk + (match e.op with | .mcv _ _ _ => 6 | _ => 2) ≤ clkOf s core →
      (partOf (coreOf s core) part).mxBusy ≤ clkOf s core → mayStart s e.uid e.g 1 e.eq = true → (∀ k ∈ e.tids, (oldRow s u x e.tile k).length = 64) →
      ∃ t r, exec (.mxStart core part) s = .next t ∧ (partOf (coreOf t core) part).mxq = (partOf (coreOf s core) part).mxq.filter (fun f => f != e) ∧ t.mem = s.mem ∧
        (partOf (coreOf t core) part).mxrun = (partOf (coreOf s core) part).mxrun ++ [r] ∧ RunsNow s core e r ∧
        (partOf (coreOf t core) part).mxBusy = clkOf s core + r.occ ∧
        (mxConds s u x e = [] → r.cond = none ∧ r.occ = mxOcc s x e ∧ (e.op = .zero → r.occ = (blocksOf e.tids).length) ∧
          (runRows core part r).map (fun k => k.1) = (if e.op.writesRows then e.tids else []) ∧
          (∀ k ∈ runRows core part r, RowMade s core part e r.map k.1 (oldRow s u x e.tile k.1) k.2) ∧
          (∀ n, opPerm e = some n → genMap s u x n = .ok r.map) ∧
          (∀ d cols, e.op = .get d cols → runLanes r = e.tids.map (fun k => (k, ((oldRow s u x e.tile k)[((mget cols k).getD 0).toNat % 64]?).getD 0))) ∧
          (∀ d, e.op = .rmax d → (runLanes r).map (fun k => k.1) = e.tids ∧ ∀ k ∈ runLanes r, RowLargest (oldRow s u x e.tile k.1) k.2) ∧
          (∀ desc, e.op = .sto desc → runStores r = e.tids.map (fun k => (k,
            ((((desc[1]?).getD 0).toNat * 2 ^ 32 + ((desc[0]?).getD 0).toNat + k * fld ((desc[2]?).getD 0).toNat 23 0) % 2 ^ 64),
            (oldRow s u x e.tile k).flatMap (fun w => if fld ((desc[2]?).getD 0).toNat 31 28 = 0 then bytesOfNat 4 w.toNat
              else bytesOfNat 2 (cvtFmt f32 (if fld ((desc[2]?).getD 0).toNat 31 28 = 3 then f16 else bf16) 1 false w.toNat)))))) ∧
        (mxConds s u x e ≠ [] → ∃ c, r.cond = some c ∧ (c.cause = 0x23 ∨ c.cause = 0x24) ∧ r.occ = (blocksOf e.tids).length ∧ runRows core part r = [])) ∧
    (∀ (r : MxRun) (x : Machine.Group) (q : EqEntry), doneRun s core part = some r → r.cond = none →
      groupOf s r.ent.uid r.ent.g = some x → eqOf x 1 r.ent.eq = some q → ((runRows core part r).map (fun k => k.1)).Nodup → ((runLanes r).map (fun k => k.1)).Nodup →
      (∀ k ∈ runRows core part r, Bound x .acc r.ent.tile k.1) → (∀ m, nameOf x .acc r.ent.tile = some m → m.spilled = false) →
      (∀ d, r.ent.op.lane = some d → nextWrite x .lane (r.ent.tids.map (fun k => (k, d))) r.ent.eq = true ∧ ∀ k ∈ runLanes r, Bound x .lane d k.1) →
      ∃ t y, exec (.mxDone core part) s = .next t ∧ t.mem = s.mem ∧ groupOf t r.ent.uid r.ent.g = some y ∧ placesOf y = placesOf x ∧
        (∀ k ∈ runRows core part r, Takes x y .acc r.ent.tile k.1 r.ent.eq k.2) ∧
        (∀ d, r.ent.op.lane = some d → ∀ k ∈ runLanes r, Takes x y .lane d k.1 r.ent.eq [k.2]) ∧ Finished t r.ent.uid r.ent.g 1 r.ent.eq) ∧
    (∀ (uid g : Nat) (u : DUnit) (x : Machine.Group) (q : EqEntry) (r : MxRun) (k va : Nat) (bs : List Byte) (pa : Nat), unitOf s uid = some u → groupOf s uid g = some x → u.chk = false → MemoryGood s →
      (partOf (coreOf s x.core) x.part).mxrun.find? (fun r => r.ent.uid == uid && r.ent.g == g && r.ent.op.isSto && r.cond.isNone) = some r →
      eqOf x 1 r.ent.eq = some q → r.endClk ≤ clkOf s x.core → runStores r = [(k, va, bs)] → stoPa s u x va bs.length = some pa → Plain pa →
      ∃ t, exec (.mxStoRowsPerformed uid g) s = .next t ∧ BytesWritten s.mem t.mem pa bs ∧ Finished t uid g 1 r.ent.eq) ∧
    (∀ (o : RtEntry) (u : DUnit) (x : Machine.Group) (q : EqEntry), (coreOf s core).solver = none → solverHead s core = some o → unitOf s o.uid = some u → groupOf s o.uid o.g = some x → eqOf x 3 o.eq = some q →
      o.clk + 2 ≤ clkOf s core → mayStart s o.uid o.g 3 o.eq = true →
      (∀ bs, bs = (match o.op with
          | .rest f => if f % 16 = 0 ∧ inBuf u core f 48 = true then homeRead s (scratchPa core f) 48 else []
          | _ => []) → rtCond u x bs o.op = none →
        ∃ t, exec (.solverStart core) s = .next t ∧ (coreOf t core).solver = some { o with start := clkOf s core, bytes := bs } ∧
          (coreOf t core).solverQ = (coreOf s core).solverQ.filter (fun r => !(r.eq == o.eq && r.uid == o.uid && r.g == o.g)) ∧ t.mem = s.mem)) ∧
    (∀ (o : RtEntry) (x : Machine.Group) (q : EqEntry), (coreOf s core).solver = some o → groupOf s o.uid o.g = some x → eqOf x 3 o.eq = some q → o.start + solverD x.width o.op ≤ clkOf s core →
      (o.op.writes = true → nextWrite x .perm [(0, o.dst)] o.eq = true ∧ Bound x .perm o.dst 0) →
      ∃ t y, exec (.solverDone core) s = .next t ∧ (coreOf t core).solver = none ∧ t.mem = s.mem ∧ groupOf t o.uid o.g = some y ∧ placesOf y = placesOf x ∧
        (∀ a b, o.op = .comp a b → Takes x y .perm o.dst 0 o.eq (permOf (permCode a) ((permMap b).map (fun j => ((permMap a)[j]?).getD 0)))) ∧
        (∀ f, o.op = .rest f → Takes x y .perm o.dst 0 o.eq (wordsOfBytes o.bytes)) ∧
        (∀ v f, o.op = .load v f → Takes x y .perm o.dst 0 o.eq (rtResult x.width o.bytes o.op)) ∧
        (∀ st ka n, o.op = .rand st ka n → Takes x y .perm o.dst 0 o.eq (permOf n (permRand n st).1) ∧
          (Bound x .uniform ka 0 → Takes x y .uniform ka 0 o.eq [BitVec.ofNat 32 (permRand n st).2.toNat]) ∧
          (Bound x .uniform (ka + 1) 0 → Takes x y .uniform (ka + 1) 0 o.eq [BitVec.ofNat 32 ((permRand n st).2.toNat / 2 ^ 32)])) ∧
        (∀ f a, o.op = .save f a → ∃ e, eqOf y 3 o.eq = some e ∧ e.stage = 1 ∧ e.fin = q.fin) ∧
        ((∀ f a, o.op ≠ .save f a) → Finished t o.uid o.g 3 o.eq)) ∧
    (∀ (uid g : Nat) (x : Machine.Group) (e : EqEntry), groupOf s uid g = some x → ((x.eq[3]?).getD []).find? (fun e => e.stage == 1 && !e.fin) = some e → e.arg / 2 ^ 416 < clkOf s x.core → e.arg % 2 ^ 32 + 48 ≤ 0x300000 → x.core < 224 →
      ∃ t, exec (.pmSavePerformed uid g) s = .next t ∧ Finished t uid g 3 e.id ∧
        BytesWritten s.mem t.mem (scratchPa x.core (e.arg % 2 ^ 32)) (bytesOfNat 48 (e.arg / 2 ^ 32)))

namespace Sys2Proof

open Sys2Proof.Machine

/-- A pick `c` that a partition owes is what the next step issues: the schedule names the partition, which has arbitrated this clock. -/
structure PickNext (s : State) (core part : Nat) (rest : List Choice) (c : Cand) (l : List Cand) : Prop where
  sched : s.sched = .issue core part :: rest
  there : core < 224 ∧ part < 12
  runs : (dieOf s (dieOfCore core)).safe = false
  clock : arbitrated s core part = true
  picks : (partOf (coreOf s core) part).picks = c :: l

/-- The state when a pick's issue begins: the schedule and the partition without it. -/
def pickTaken (s : State) (core part : Nat) (rest : List Choice) (l : List Cand) : State :=
  modPart { s with sched := rest } core part (fun p => { p with picks := l })

/-- An issue in progress of the word `w` of kernel offset `off`, and the rest of the machine as it was. -/
structure IssueOf (s a : State) (core part : Nat) (c : Cand) (w : Word) (sets : List (Nat × List Nat)) (rest : List Choice) (l : List Cand) : Prop where
  iss : a.iss = ⟨core, part, c.uid, c.off, noSpar, 0, w, sets, clkOf s core⟩
  sched : a.sched = rest
  picks : (partOf (coreOf a core) part).picks = l
  rest : a.mem = s.mem ∧ a.regs = s.regs ∧ a.dies = s.dies ∧ a.hub = s.hub
  units : a.units.map (fun u => { u with groups := [] }) = s.units.map (fun u => { u with groups := [] })
  groups : ∀ uid g x, groupOf s uid g = some x → ∃ y, groupOf a uid g = some y ∧
    { y with threads := x.threads, dbg := { y.dbg with skip := x.dbg.skip } } = x ∧
    y.threads.map (fun h => { h with last := none }) = x.threads.map (fun h => { h with last := none })

/-- A word's outcome, with the count of a group-set word that its group has executed (R271). -/
def counted (core part : Nat) (x : Group) (c : Cand) (o : Out) : Out := andThen o (fun t => .next (countGroupWord core part x.dom c t))

end Sys2Proof

open Sys2Proof Sys2Proof.Machine in
/-- R117, R118, R124 to R126: every well-formed word is decoded from its encoding, with all its operands; and a word that decodes is the encoding of a well-formed
instruction, so no two words stand for one. -/
def Obligations.DecodeEncodeAgree : Prop :=
  (∀ (i : Instr) (w : Nat), WellFormed i = true → encode i = some w → w < 2 ^ 32 ∧ decode w = .ok i) ∧
  (∀ (i : Instr) (w : Nat), w < 2 ^ 32 → decode w = .ok i → WellFormed i = true ∧ encode i = some w)

open Sys2Proof in
/-- R118, R124, R125: words of each family written out from the encoding tables. -/
def Obligations.PrintedWordsDecode : Prop :=
  decode 0x0021C409 = .ok (.iaSub 7 8 9) ∧ decode 0x02404103 = .ok (.icLt 1 2 3) ∧ decode 0x040C1FFF = .ok (.iai 3 3 0x7FF) ∧
  decode 0x0641021F = .ok (.ishSar 4 4 31) ∧ decode 0x0C62858C = .ok (.faFma 10 11 12) ∧ decode 0x0EE10286 = .ok (.fhBfma 4 5 6) ∧
  decode 0x11210182 = .ok (.fcF32lt8 4 3 2) ∧ decode 0x12608180 = .ok (.fxExp2 2 3) ∧ decode 0x15610180 = .ok (.xlMatch 4 3) ∧
  decode 0x160C0002 = .ok (.brz 3 2) ∧ decode 0x1A500010 = .ok (.jmpLink 20 16) ∧ decode 0x1C000A00 = .ok (.ctlJr 20) ∧
  decode 0x8EA00206 = .ok (.syncMwait 4 6)

open Sys2Proof Sys2Proof.Machine in
/-- R34, R119, R122, R126: where the bytes at a pick's program counter decode to an instruction, a step of its partition is exec of it, at the state with the issue
in progress and the pick taken; behind a spar, exec of the spar and then of the instruction. A word that does not decode, a spar that ends the kernel and a spar
behind a spar run as the illegal word. A group-set word that its group has executed is counted last (R271). A step of another agent is exec of that agent's step;
one that reaches a safe die changes nothing (R282), nor does the row of the reserved words, which run through an issue alone (R126). (Which agent moves is the schedule's, log 2.) -/
def Obligations.StepRunsTheDecodedInstruction : Prop :=
  ∀ s : State,
    (∀ core part rest c l g ts more x va w i, PickNext s core part rest c l → stillThere (pickTaken s core part rest l) c = (g, ts) :: more →
      groupOf (pickTaken s core part rest l) c.uid g = some x →
      (∀ q ∈ (g, ts) :: more, ∀ y, groupOf (pickTaken s core part rest l) c.uid q.1 = some y → dbgEnabled (pickTaken s core part rest l) y = false) →
      va = entryVa x.kernel + c.off → c.off < 4 * x.kernel.nwords → fetchWord (pickTaken s core part rest l) x.core x.asid va = .ok w →
      (isSpar w = false → decode w.toNat = .ok i →
        ∃ a, IssueOf s a core part c w ((g, ts) :: more) rest l ∧ step s = counted core part x c (exec i a)) ∧
      (∀ e, (isSpar w = false ∧ decode w.toNat = .error e) ∨ (isSpar w = true ∧ c.off + 4 = 4 * x.kernel.nwords) →
        ∃ a, IssueOf s a core part c w ((g, ts) :: more) rest l ∧ step s = counted core part x c (exec (.illegalWord w) a)) ∧
      (∀ v p, isSpar w = true → c.off + 4 < 4 * x.kernel.nwords → fetchWord (pickTaken s core part rest l) x.core x.asid (va + 4) = .ok v →
        decode w.toNat = .ok p →
        ∃ a b, IssueOf s a core part c v ((g, ts) :: more) rest l ∧ exec p a = .next b ∧ b.iss.spar = sparOfWord w.toNat ∧
          (isSpar v = false → decode v.toNat = .ok i → step s = counted core part x c (exec i b)) ∧
          (∀ e, isSpar v = true ∨ decode v.toNat = .error e → step s = counted core part x c (exec (.illegalWord v) b)))) ∧
    (∀ i rest, s.sched = .event i :: rest → WellFormed i = true → encode i = none →
      step s = if deaf { s with sched := rest } i || atIssueOnly i then .next { s with sched := rest } else exec i { s with sched := rest })

open Sys2Proof Sys2Proof.Machine in
/-- R38, R104, R144, R247, R279, R282, R288, R325, R328: the part after reset: memory in its canonical form, every slot EMPTY, no unit, the clocks and credits 0, and the
reset values of the field maps. -/
def Obligations.ResetState : Prop :=
  Sound State.reset ∧ State.reset.units = [] ∧
  (∀ c, clkOf State.reset c = 0 ∧ (∀ k, slotState State.reset c k = 0) ∧ ∀ p, (partOf (coreOf State.reset c) p).credit = List.replicate 8 0) ∧
  (∀ d, (dieOf State.reset d).safe = false ∧ fld (rdReg State.reset (.therm d)) 55 48 = 90 ∧ fld (rdReg State.reset (.therm d)) 47 40 = 100) ∧
  (∀ d cl, fld (rdReg State.reset (.dvfs d cl)) 55 52 = 8 ∧ fld (rdReg State.reset (.dvfs d cl)) 35 32 = 8) ∧
  (∀ c, fld (rdReg State.reset (.chkctl c)) 15 12 = 2 ∧ rdReg State.reset (.sampctl c) = 0) ∧
  fld (rdReg State.reset .kjover) 63 32 = 1 ∧ fld (rdReg State.reset .lrver) 23 16 = 1 ∧ rdReg State.reset .mboxdb = 0 ∧
  (∀ d n, bitN (rdReg State.reset (.asroot d n)) 63 = false) ∧ (∀ d n, bitN (rdReg State.reset (.watch d n)) 127 = false)

open Sys2Proof Sys2Proof.Machine in
/-- R70 (the canonical form is the model's, log 4): whatever a step does, memory stays in its canonical form: addresses strictly rising, no entry equal to what an
unlisted address reads as. -/
def Obligations.EveryStepKeepsSound : Prop := ∀ s t : State, Sound s → step s = .next t → Sound t

open Sys2Proof Sys2Proof.Machine in
/-- R53, R54, R85, R151: the frame of the words: a word other than `ctl.exit`, `ctr.mark` and `sys.brk` leaves memory, the firmware registers, the dies and the hub as
they were; it moves no thread of another group and, if it is lane-set, no thread of its group that is not in the issue; it changes no GRP.FMODE but
`mode.wr` its group's; and it changes no full value of a name that it does not write. `ctl.exit` in a unit that is not checked and `sys.brk` leave
memory as it was. (The destinations' values change when their results arrive.) -/
def Obligations.WordsFrame : Prop :=
  ∀ (s t : State) (i : Instr) (w : Nat), encode i = some w → exec i s = .next t →
    (i ≠ .ctlExit → (∀ a, i ≠ .ctrMark a) → (∀ b, i ≠ .sysBrk b) → t.mem = s.mem ∧ t.regs = s.regs ∧ t.dies = s.dies ∧ t.hub = s.hub) ∧
    (i = .ctlExit → (∀ u, unitOf s s.iss.uid = some u → u.chk = false) → t.mem = s.mem) ∧ (∀ b, i = .sysBrk b → t.mem = s.mem) ∧
    (i ≠ .ctlExit → ∀ uid g x, groupOf s uid g = some x → ∃ y, groupOf t uid g = some y ∧
      (uid ≠ s.iss.uid ∨ (∀ q ∈ s.iss.sets, q.1 ≠ g) → placesOf y = placesOf x ∧ y.fmode = x.fmode) ∧
      ((∀ a, i ≠ .modeWr a) → y.fmode = x.fmode) ∧
      (w < 2 ^ 31 → uid = s.iss.uid → ∀ k, (∀ q ∈ s.iss.sets, q.1 = g → k ∉ q.2) →
        (threadOf y k).map (fun h => h.off) = (threadOf x k).map (fun h => h.off)) ∧
      (∀ c n k, (c, n) ∉ outsOf s.iss.spar i → (entryOf x c n k).full = true → (entryOf y c n k).words = (entryOf x c n k).words))
end

