-- ==== Sys2Proof/Laws/Data.lean ====
section
/-! SUPPORT. Maps, lists, cores, units and groups: what an update does to a reading. -/

namespace Sys2Proof.Machine

open Sys2Proof

@[simp] theorem mget_mset_same {α : Type} (m : NMap α) (k : Nat) (v : α) : mget (mset m k v) k = some v := by
  induction m with
  | nil => simp [mset, mget]
  | cons e m ih => obtain ⟨j, w⟩ := e; simp only [mset]; repeat' split
                   all_goals simp_all [mget]
                   all_goals grind

theorem mget_mset_other {α : Type} (m : NMap α) {k j : Nat} (v : α) (h : j ≠ k) : mget (mset m k v) j = mget m j := by
  induction m with
  | nil => simp [mset, mget]; omega
  | cons e m ih => obtain ⟨i, w⟩ := e; simp only [mset]; repeat' split
                   all_goals simp_all [mget]
                   all_goals grind

theorem mget_mset {α : Type} (m : NMap α) (k j : Nat) (v : α) : mget (mset m k v) j = if j = k then some v else mget m j := by
  split
  · subst_vars; simp
  · exact mget_mset_other m v ‹_›

/-- A register reads as written; the others keep their values. -/
@[simp] theorem rdReg_wrReg_same (s : State) (r : Reg) (v : Nat) : rdReg (wrReg s r v) r = v := by simp [rdReg, wrReg]

theorem rdReg_wrReg_other (s : State) {r q : Reg} (v : Nat) (h : regKey q ≠ regKey r) : rdReg (wrReg s r v) q = rdReg s q := by
  simp [rdReg, wrReg, mget_mset_other _ _ h]

@[simp] theorem coreOf_setCore_same (s : State) (c : Nat) (x : Core) : coreOf (setCore s c x) c = x := by simp [coreOf, setCore]

theorem coreOf_setCore_other (s : State) {c d : Nat} (x : Core) (h : d ≠ c) : coreOf (setCore s c x) d = coreOf s d := by
  simp [coreOf, setCore, mget_mset_other _ _ h]

@[simp] theorem coreOf_modCore_same (s : State) (c : Nat) (f : Core → Core) : coreOf (modCore s c f) c = f (coreOf s c) := by
  simp [modCore]

theorem coreOf_modCore_other (s : State) {c d : Nat} (f : Core → Core) (h : d ≠ c) : coreOf (modCore s c f) d = coreOf s d :=
  coreOf_setCore_other s _ h

theorem coreOf_modCore (s : State) (c d : Nat) (f : Core → Core) :
    coreOf (modCore s c f) d = if d = c then f (coreOf s d) else coreOf s d := by
  split
  · subst_vars; simp
  · exact coreOf_modCore_other s f ‹_›

@[simp] theorem partOf_mset_same (x : Core) (p : Nat) (q : Part) : partOf { x with parts := mset x.parts p q } p = q := by simp [partOf]

@[simp] theorem dieOf_modDie_same (s : State) (d : Nat) (f : Die → Die) : dieOf (modDie s d f) d = f (dieOf s d) := by simp [dieOf, modDie]

theorem dieOf_modDie_other (s : State) {c d : Nat} (f : Die → Die) (h : d ≠ c) : dieOf (modDie s c f) d = dieOf s d := by
  simp [dieOf, modDie, mget_mset_other _ _ h]

theorem find?_map_keep {α : Type} (l : List α) (p : α → Bool) (f : α → α) (h : ∀ x, p (f x) = p x) :
    (l.map f).find? p = (l.find? p).map f := by
  induction l with
  | nil => rfl
  | cons x l ih => simp only [List.map_cons, List.find?_cons, h]; split <;> simp_all

/-- A unit of the state after a unit's change. -/
theorem unitOf_modUnit (s : State) (uid v : Nat) {f : DUnit → DUnit} (h : ∀ u, (f u).uid = u.uid) :
    unitOf (modUnit s uid f) v = (unitOf s v).map (fun u => if v = uid then f u else u) := by
  unfold unitOf modUnit
  rw [find?_map_keep]
  · rcases hu : s.units.find? (fun u => u.uid == v) with _ | u
    · simp [hu]
    · have hv := List.find?_some hu
      simp only [beq_iff_eq] at hv
      subst hv
      simp [hu]
  · intro u; split <;> simp_all

/-- A group of a unit after a group's change. -/
theorem groupIn_map (u : DUnit) (g h : Nat) {f : Group → Group} (hf : ∀ x, (f x).gidx = x.gidx) :
    groupIn { u with groups := u.groups.map (fun x => if x.gidx == g then f x else x) } h =
      (groupIn u h).map (fun x => if h = g then f x else x) := by
  unfold groupIn
  rw [find?_map_keep]
  · rcases hx : u.groups.find? (fun x => x.gidx == h) with _ | x
    · simp [hx]
    · have hv := List.find?_some hx
      simp only [beq_iff_eq] at hv
      subst hv
      simp [hx]
  · intro x; split <;> simp_all

/-- A group of the state after a group's change. -/
theorem groupOf_modGroup (s : State) (uid g v h : Nat) {f : Group → Group} (hf : ∀ x, (f x).gidx = x.gidx) :
    groupOf (modGroup s uid g f) v h = (groupOf s v h).map (fun x => if v = uid ∧ h = g then f x else x) := by
  unfold groupOf modGroup
  rw [unitOf_modUnit]
  · rcases unitOf s v with _ | u
    · rfl
    · by_cases hv : v = uid
      · simp only [hv, if_true, true_and, Option.map_some, Option.bind_some]
        exact groupIn_map u g h hf
      · simp [hv]
  · intro u; rfl

@[simp] theorem groupOf_modGroup_same (s : State) (uid g : Nat) {f : Group → Group} (hf : ∀ x, (f x).gidx = x.gidx) :
    groupOf (modGroup s uid g f) uid g = (groupOf s uid g).map f := by
  rw [groupOf_modGroup s uid g uid g hf]; simp

theorem groupOf_gidx {s : State} {uid g : Nat} {x : Group} (h : groupOf s uid g = some x) : x.gidx = g := by
  unfold groupOf groupIn at h
  rcases hu : unitOf s uid with _ | u
  · simp [hu] at h
  · rw [hu] at h
    have := List.find?_some h
    simpa using this

theorem unitOf_uid {s : State} {uid : Nat} {u : DUnit} (h : unitOf s uid = some u) : u.uid = uid := by
  have := List.find?_some h
  simpa using this

@[simp] theorem coreOf_modUnit (s : State) (uid : Nat) (f : DUnit → DUnit) (c : Nat) : coreOf (modUnit s uid f) c = coreOf s c := rfl
@[simp] theorem coreOf_modGroup (s : State) (uid g : Nat) (f : Group → Group) (c : Nat) : coreOf (modGroup s uid g f) c = coreOf s c := rfl
@[simp] theorem units_modCore (s : State) (c : Nat) (f : Core → Core) : (modCore s c f).units = s.units := rfl
@[simp] theorem units_modPart (s : State) (c p : Nat) (f : Part → Part) : (modPart s c p f).units = s.units := rfl
@[simp] theorem groupOf_modCore (s : State) (c : Nat) (f : Core → Core) (v g : Nat) : groupOf (modCore s c f) v g = groupOf s v g := rfl
@[simp] theorem groupOf_modPart (s : State) (c p : Nat) (f : Part → Part) (v g : Nat) : groupOf (modPart s c p f) v g = groupOf s v g := rfl
@[simp] theorem unitOf_modCore (s : State) (c : Nat) (f : Core → Core) (v : Nat) : unitOf (modCore s c f) v = unitOf s v := rfl
@[simp] theorem unitOf_modPart (s : State) (c p : Nat) (f : Part → Part) (v : Nat) : unitOf (modPart s c p f) v = unitOf s v := rfl

theorem mem_insertBy {α : Type} {key : α → Nat} {x y : α} {l : List α} : y ∈ insertBy key x l ↔ y = x ∨ y ∈ l := by
  induction l with
  | nil => simp [insertBy]
  | cons a l ih => simp only [insertBy]; split <;> simp_all <;> grind

theorem mem_sortBy {α : Type} {key : α → Nat} {y : α} {l : List α} : y ∈ sortBy key l ↔ y ∈ l := by
  have k : ∀ acc, y ∈ l.foldl (fun acc x => insertBy key x acc) acc ↔ y ∈ l ∨ y ∈ acc := by
    induction l with
    | nil => simp
    | cons a l ih => intro acc; rw [List.foldl_cons, ih, mem_insertBy]; simp; grind
  simpa [sortBy] using k []

end Sys2Proof.Machine
end

