-- ==== Sys2Proof/Laws/Frame.lean ====
section
/-! SUPPORT. The operations of the machine that leave memory, the firmware registers, the dies and the hub as they were:
one lemma `f_still` for each operation `f` (`Still z s` says that the four are those of `z`).  A proof of a word's frame
cites these and unfolds none of the operations. -/

namespace Sys2Proof.Machine
open Sys2Proof

/-- Memory, the firmware registers, the dies and the hub of the second state are the first's. -/
def Still (z s : State) : Prop := s.mem = z.mem ∧ s.regs = z.regs ∧ s.dies = z.dies ∧ s.hub = z.hub

variable {z : State}

/-- A fold whose every step leaves the four alone leaves them alone. -/
theorem foldl_still {α : Type} {f : State → α → State} (hf : ∀ s a, Still z s → Still z (f s a)) (l : List α) (s : State) (h : Still z s) :
    Still z (l.foldl f s) := by
  induction l generalizing s with
  | nil => exact h
  | cons a l ih => exact ih _ (hf _ _ h)

/-- The same of a fold that carries something beside the state. -/
theorem foldl_fst_still {α β : Type} {f : State × β → α → State × β} (hf : ∀ q a, Still z q.1 → Still z (f q a).1) (l : List α) (q : State × β)
    (h : Still z q.1) : Still z (l.foldl f q).1 := by
  induction l generalizing q with
  | nil => exact h
  | cons a l ih => exact ih _ (hf _ _ h)

/-- What `Still` says. -/
theorem of_still {s : State} (h : Still z s) : s.mem = z.mem ∧ s.regs = z.regs ∧ s.dies = z.dies ∧ s.hub = z.hub := h

/-- A state given field by field. -/
theorem still_mk {m : List Host.Cell} {b c d e f i j k l n} {a : NMap Nat} {g : NMap Die} {h : Hub} :
    Still z (State.mk m b c d a e f g h i j k l n) = (m = z.mem ∧ a = z.regs ∧ g = z.dies ∧ h = z.hub) := rfl

theorem setCore_still (s : State) (c : Nat) (x : Core) (h : Still z s) : Still z (setCore s c x) := by
  unfold setCore
  repeat' first | with_reducible assumption | with_reducible refine foldl_still (fun _ _ _ => ?_) _ _ ?_ | with_reducible refine foldl_fst_still (fun _ _ _ => ?_) _ _ ?_ | split | dsimp only | (simp only [still_mk]; refine of_still ?_)

theorem modCore_still (s : State) (c : Nat) (f : Core → Core) (h : Still z s) : Still z (modCore s c f) := by
  unfold modCore
  repeat' first | with_reducible assumption | with_reducible apply setCore_still | with_reducible refine foldl_still (fun _ _ _ => ?_) _ _ ?_ | with_reducible refine foldl_fst_still (fun _ _ _ => ?_) _ _ ?_ | split | dsimp only | (simp only [still_mk]; refine of_still ?_)

theorem modPart_still (s : State) (c : Nat) (p : Nat) (f : Part → Part) (h : Still z s) : Still z (modPart s c p f) := by
  unfold modPart
  repeat' first | with_reducible assumption | with_reducible apply modCore_still | with_reducible refine foldl_still (fun _ _ _ => ?_) _ _ ?_ | with_reducible refine foldl_fst_still (fun _ _ _ => ?_) _ _ ?_ | split | dsimp only | (simp only [still_mk]; refine of_still ?_)

theorem modUnit_still (s : State) (uid : Nat) (f : DUnit → DUnit) (h : Still z s) : Still z (modUnit s uid f) := by
  unfold modUnit
  repeat' first | with_reducible assumption | with_reducible refine foldl_still (fun _ _ _ => ?_) _ _ ?_ | with_reducible refine foldl_fst_still (fun _ _ _ => ?_) _ _ ?_ | split | dsimp only | (simp only [still_mk]; refine of_still ?_)

theorem modGroup_still (s : State) (uid : Nat) (g : Nat) (f : Group → Group) (h : Still z s) : Still z (modGroup s uid g f) := by
  unfold modGroup
  repeat' first | with_reducible assumption | with_reducible apply modUnit_still | with_reducible refine foldl_still (fun _ _ _ => ?_) _ _ ?_ | with_reducible refine foldl_fst_still (fun _ _ _ => ?_) _ _ ?_ | split | dsimp only | (simp only [still_mk]; refine of_still ?_)

theorem modGroups_still (s : State) (uid : Nat) (f : Group → Group) (h : Still z s) : Still z (modGroups s uid f) := by
  unfold modGroups
  repeat' first | with_reducible assumption | with_reducible apply modUnit_still | with_reducible refine foldl_still (fun _ _ _ => ?_) _ _ ?_ | with_reducible refine foldl_fst_still (fun _ _ _ => ?_) _ _ ?_ | split | dsimp only | (simp only [still_mk]; refine of_still ?_)

theorem countEvent_still (s : State) (core : Nat) (part : Nat) (dom : Nat) (code : Nat) (n : Nat) (h : Still z s) : Still z (countEvent s core part dom code n) := by
  unfold countEvent
  repeat' first | with_reducible assumption | with_reducible apply modPart_still | with_reducible refine foldl_still (fun _ _ _ => ?_) _ _ ?_ | with_reducible refine foldl_fst_still (fun _ _ _ => ?_) _ _ ?_ | split | dsimp only | (simp only [still_mk]; refine of_still ?_)

theorem countReq_still (s : State) (core : Nat) (t : Tagged) (n : Nat) (h : Still z s) : Still z (countReq s core t n) := by
  induction n generalizing s with
  | zero => exact h
  | succ n ih =>
    unfold countReq
    dsimp only
    split
    · exact h
    · exact ih _ (modCore_still _ _ _ h)

theorem l1Touch_still (s : State) (core : Nat) (slot : Nat) (pa : Nat) (h : Still z s) : Still z (l1Touch s core slot pa) := by
  unfold l1Touch
  repeat' first | with_reducible assumption | with_reducible apply setCore_still | with_reducible refine foldl_still (fun _ _ _ => ?_) _ _ ?_ | with_reducible refine foldl_fst_still (fun _ _ _ => ?_) _ _ ?_ | split | dsimp only | (simp only [still_mk]; refine of_still ?_)

theorem takeSlots_still (s : State) (uid : Nat) (g : Nat) (level : Nat) (n : Nat) (h : Still z s) : Still z (takeSlots s uid g level n) := by
  unfold takeSlots
  repeat' first | with_reducible assumption | with_reducible apply modUnit_still | with_reducible apply modGroup_still | with_reducible refine foldl_still (fun _ _ _ => ?_) _ _ ?_ | with_reducible refine foldl_fst_still (fun _ _ _ => ?_) _ _ ?_ | split | dsimp only | (simp only [still_mk]; refine of_still ?_)

theorem giveSlot_still (s : State) (uid : Nat) (g : Nat) (level : Nat) (c : NClass) (n : Nat) (h : Still z s) : Still z (giveSlot s uid g level c n) := by
  unfold giveSlot
  repeat' first | with_reducible assumption | with_reducible apply takeSlots_still | with_reducible apply modGroup_still | with_reducible refine foldl_still (fun _ _ _ => ?_) _ _ ?_ | with_reducible refine foldl_fst_still (fun _ _ _ => ?_) _ _ ?_ | split | dsimp only | (simp only [still_mk]; refine of_still ?_)

theorem writeOutName_still (s : State) (uid : Nat) (g : Nat) (level : Nat) (c : NClass) (n : Nat) (claim : Bool) (h : Still z s) : Still z (writeOutName s uid g level c n claim) := by
  unfold writeOutName
  repeat' first | with_reducible assumption | with_reducible apply modGroup_still | with_reducible apply giveSlot_still | with_reducible refine foldl_still (fun _ _ _ => ?_) _ _ ?_ | with_reducible refine foldl_fst_still (fun _ _ _ => ?_) _ _ ?_ | split | dsimp only | (simp only [still_mk]; refine of_still ?_)

theorem claimName_still (s : State) (uid : Nat) (g : Nat) (level : Nat) (c : NClass) (n : Nat) (claim : Bool) (h : Still z s) : Still z (claimName s uid g level c n claim) := by
  unfold claimName
  repeat' first | with_reducible assumption | with_reducible apply writeOutName_still | with_reducible apply countEvent_still | with_reducible refine foldl_still (fun _ _ _ => ?_) _ _ ?_ | with_reducible refine foldl_fst_still (fun _ _ _ => ?_) _ _ ?_ | split | dsimp only | (simp only [still_mk]; refine of_still ?_)

theorem setRes_still (s : State) (uid : Nat) (g : Nat) (level : Nat) (slot : Nat) (c : NClass) (n : Nat) (r : List Nat) (h : Still z s) : Still z (setRes s uid g level slot c n r) := by
  unfold setRes
  repeat' first | with_reducible assumption | with_reducible apply modGroup_still | with_reducible refine foldl_still (fun _ _ _ => ?_) _ _ ?_ | with_reducible refine foldl_fst_still (fun _ _ _ => ?_) _ _ ?_ | split | dsimp only | (simp only [still_mk]; refine of_still ?_)

theorem pauseGroup_still (s : State) (uid : Nat) (g : Nat) (n : Nat) (moves wants : List (NClass × Nat)) (h : Still z s) : Still z (pauseGroup s uid g n moves wants) := by
  unfold pauseGroup
  repeat' first | with_reducible assumption | with_reducible apply modGroup_still | with_reducible refine foldl_still (fun _ _ _ => ?_) _ _ ?_ | with_reducible refine foldl_fst_still (fun _ _ _ => ?_) _ _ ?_ | split | dsimp only | (simp only [still_mk]; refine of_still ?_)

theorem countNoslot_still (s : State) (core : Nat) (slot : Nat) (h : Still z s) : Still z (countNoslot s core slot) := by
  unfold countNoslot
  repeat' first | with_reducible assumption | with_reducible apply modCore_still | with_reducible refine foldl_still (fun _ _ _ => ?_) _ _ ?_ | with_reducible refine foldl_fst_still (fun _ _ _ => ?_) _ _ ?_ | split | dsimp only | (simp only [still_mk]; refine of_still ?_)

theorem markSpilled_still (s : State) (uid : Nat) (g : Nat) (level : Nat) (c : NClass) (n : Nat) (h : Still z s) : Still z (markSpilled s uid g level c n) := by
  unfold markSpilled
  repeat' first | with_reducible assumption | with_reducible apply modGroup_still | with_reducible apply giveSlot_still | with_reducible refine foldl_still (fun _ _ _ => ?_) _ _ ?_ | with_reducible refine foldl_fst_still (fun _ _ _ => ?_) _ _ ?_ | split | dsimp only | (simp only [still_mk]; refine of_still ?_)

theorem markPoison_still (s : State) (sec : Nat) (h : Still z s) : Still z (markPoison s sec) := by
  unfold markPoison
  repeat' first | with_reducible assumption | with_reducible refine foldl_still (fun _ _ _ => ?_) _ _ ?_ | with_reducible refine foldl_fst_still (fun _ _ _ => ?_) _ _ ?_ | split | dsimp only | (simp only [still_mk]; refine of_still ?_)

theorem fatalUnit_still (s : State) (uid : Nat) (g : Nat) (h : Still z s) : Still z (fatalUnit s uid g) := by
  unfold fatalUnit
  repeat' first | with_reducible assumption | with_reducible apply modUnit_still | with_reducible refine foldl_still (fun _ _ _ => ?_) _ _ ?_ | with_reducible refine foldl_fst_still (fun _ _ _ => ?_) _ _ ?_ | split | dsimp only | (simp only [still_mk]; refine of_still ?_)

theorem startTrap_still (s : State) (uid : Nat) (g : Nat) (c : Cond) (fatal : Bool) (h : Still z s) : Still z (startTrap s uid g c fatal) := by
  unfold startTrap
  repeat' first | with_reducible assumption | with_reducible apply countEvent_still | with_reducible apply modGroup_still | with_reducible apply fatalUnit_still | with_reducible refine foldl_still (fun _ _ _ => ?_) _ _ ?_ | with_reducible refine foldl_fst_still (fun _ _ _ => ?_) _ _ ?_ | split | dsimp only | (simp only [still_mk]; refine of_still ?_)

theorem setCond_still (s : State) (uid : Nat) (g : Nat) (t : Nat) (c : Cond) (h : Still z s) : Still z (setCond s uid g t c) := by
  unfold setCond
  repeat' first | with_reducible assumption | with_reducible apply modGroup_still | with_reducible refine foldl_still (fun _ _ _ => ?_) _ _ ?_ | with_reducible refine foldl_fst_still (fun _ _ _ => ?_) _ _ ?_ | split | dsimp only | (simp only [still_mk]; refine of_still ?_)

theorem raiseThread_still (s : State) (uid : Nat) (g : Nat) (t : Nat) (c : Cond) (h : Still z s) : Still z (raiseThread s uid g t c) := by
  unfold raiseThread
  repeat' first | with_reducible assumption | with_reducible apply startTrap_still | with_reducible apply setCond_still | with_reducible refine foldl_still (fun _ _ _ => ?_) _ _ ?_ | with_reducible refine foldl_fst_still (fun _ _ _ => ?_) _ _ ?_ | split | dsimp only | (simp only [still_mk]; refine of_still ?_)

theorem raiseSync_still (s : State) (uid : Nat) (g : Nat) (group : Bool) (fetch : Bool) (present : List Nat) (bad : List (Nat × Nat × Nat)) (addr : Nat → Nat × Nat → Nat) (taddr : Nat → Nat × Nat → NMap Nat) (h : Still z s) : Still z (raiseSync s uid g group fetch present bad addr taddr) := by
  unfold raiseSync
  repeat' first | with_reducible assumption | with_reducible apply raiseThread_still | with_reducible refine foldl_still (fun _ _ _ => ?_) _ _ ?_ | with_reducible refine foldl_fst_still (fun _ _ _ => ?_) _ _ ?_ | split | dsimp only | (simp only [still_mk]; refine of_still ?_)

theorem raiseAsync_still (s : State) (uid : Nat) (g : Nat) (c : Cond) (fatal : Bool) (h : Still z s) : Still z (raiseAsync s uid g c fatal) := by
  unfold raiseAsync
  repeat' first | with_reducible assumption | with_reducible apply startTrap_still | with_reducible apply modGroup_still | with_reducible refine foldl_still (fun _ _ _ => ?_) _ _ ?_ | with_reducible refine foldl_fst_still (fun _ _ _ => ?_) _ _ ?_ | split | dsimp only | (simp only [still_mk]; refine of_still ?_)

theorem writeOutFailed_still (s : State) (uid : Nat) (g : Nat) (level : Nat) (c : NClass) (n : Nat) (e : (Nat × Nat) × Nat) (h : Still z s) : Still z (writeOutFailed s uid g level c n e) := by
  unfold writeOutFailed
  repeat' first | with_reducible assumption | with_reducible apply startTrap_still | with_reducible apply modGroup_still | with_reducible refine foldl_still (fun _ _ _ => ?_) _ _ ?_ | with_reducible refine foldl_fst_still (fun _ _ _ => ?_) _ _ ?_ | split | dsimp only | (simp only [still_mk]; refine of_still ?_)

theorem queueOut_still (s : State) (core : Nat) (hs : List Holder) (h : Still z s) : Still z (queueOut s core hs) := by
  unfold queueOut
  repeat' first | with_reducible assumption | with_reducible apply modCore_still | with_reducible refine foldl_still (fun _ _ _ => ?_) _ _ ?_ | with_reducible refine foldl_fst_still (fun _ _ _ => ?_) _ _ ?_ | split | dsimp only | (simp only [still_mk]; refine of_still ?_)

theorem claimHolder_still (q : State × Bool) (k : Holder) (h : Still z q.1) : Still z (claimHolder q k).1 := by
  unfold claimHolder
  repeat' first | with_reducible assumption | with_reducible apply writeOutFailed_still | with_reducible apply claimName_still | with_reducible apply giveSlot_still | split | dsimp only

theorem claimAll_still (s : State) (x : Group) (c : NClass) (res : List Nat) (h : Still z s) : Still z (claimAll s x c res).1 :=
  foldl_fst_still (fun q k => claimHolder_still q k) _ _ (queueOut_still _ _ _ h)

theorem bindLoop_still (uid g level slot : Nat) (c : NClass) (n : Nat) (pinned : Bool) (fuel : Nat) (s : State) (h : Still z s) :
    Still z (bindLoop uid g level slot c n pinned fuel s).1 := by
  induction fuel generalizing s with
  | zero => exact h
  | succ fuel ih =>
    unfold bindLoop
    repeat' first | with_reducible assumption | with_reducible apply setRes_still | with_reducible apply claimAll_still | with_reducible apply ih | split | dsimp only

theorem countRefused_still (s : State) (uid : Nat) (g : Nat) (slot : Nat) (c : NClass) (pinned : Bool) (h : Still z s) : Still z (countRefused s uid g slot c pinned) := by
  unfold countRefused
  repeat' first | with_reducible assumption | with_reducible apply countNoslot_still | with_reducible refine foldl_still (fun _ _ _ => ?_) _ _ ?_ | with_reducible refine foldl_fst_still (fun _ _ _ => ?_) _ _ ?_ | split | dsimp only | (simp only [still_mk]; refine of_still ?_)

theorem bindName_still (s : State) (uid : Nat) (g : Nat) (level : Nat) (slot : Nat) (c : NClass) (n : Nat) (pinned : Bool) (h : Still z s) : Still z (bindName s uid g level slot c n pinned).1 := by
  unfold bindName
  repeat' first | with_reducible assumption | with_reducible apply bindLoop_still | with_reducible apply countRefused_still | with_reducible refine foldl_still (fun _ _ _ => ?_) _ _ ?_ | with_reducible refine foldl_fst_still (fun _ _ _ => ?_) _ _ ?_ | split | dsimp only | (simp only [still_mk]; refine of_still ?_)

theorem spillForWrite_still (s : State) (uid : Nat) (g : Nat) (x : Group) (m : NameSt) (c : NClass) (n : Nat) (ops : List (NClass × Nat)) (h : Still z s) : Still z (spillForWrite s uid g x m c n ops) := by
  unfold spillForWrite
  repeat' first | with_reducible assumption | with_reducible apply giveSlot_still | with_reducible apply writeOutFailed_still | with_reducible apply markSpilled_still | with_reducible apply claimName_still | with_reducible apply setRes_still | with_reducible apply pauseGroup_still | with_reducible apply countNoslot_still | with_reducible refine foldl_still (fun _ _ _ => ?_) _ _ ?_ | with_reducible refine foldl_fst_still (fun _ _ _ => ?_) _ _ ?_ | split | dsimp only | (simp only [still_mk]; refine of_still ?_)

theorem bindAtWrite_still (s : State) (uid : Nat) (g : Nat) (c : NClass) (n : Nat) (ops : List (NClass × Nat)) (h : Still z s) : Still z (bindAtWrite s uid g c n ops) := by
  unfold bindAtWrite
  repeat' first | with_reducible assumption | with_reducible apply bindName_still | with_reducible apply spillForWrite_still | with_reducible refine foldl_still (fun _ _ _ => ?_) _ _ ?_ | with_reducible refine foldl_fst_still (fun _ _ _ => ?_) _ _ ?_ | split | dsimp only | (simp only [still_mk]; refine of_still ?_)

theorem syncPerm_still (s : State) (uid : Nat) (g : Nat) (n : Nat) (h : Still z s) : Still z (syncPerm s uid g n) := by
  unfold syncPerm
  repeat' first | with_reducible assumption | with_reducible apply modPart_still | with_reducible refine foldl_still (fun _ _ _ => ?_) _ _ ?_ | with_reducible refine foldl_fst_still (fun _ _ _ => ?_) _ _ ?_ | split | dsimp only | (simp only [still_mk]; refine of_still ?_)

theorem placeFences_still (s : State) (uid : Nat) (g : Nat) (ord : Nat) (scope : Nat) (tag : Nat) (h : Still z s) : Still z (placeFences s uid g ord scope tag) := by
  unfold placeFences
  repeat' first | with_reducible assumption | with_reducible apply modGroup_still | with_reducible refine foldl_still (fun _ _ _ => ?_) _ _ ?_ | with_reducible refine foldl_fst_still (fun _ _ _ => ?_) _ _ ?_ | split | dsimp only | (simp only [still_mk]; refine of_still ?_)

theorem acquireGroup_still (s : State) (uid : Nat) (g : Nat) (h : Still z s) : Still z (acquireGroup s uid g) := by
  unfold acquireGroup
  repeat' first | with_reducible assumption | with_reducible apply modGroup_still | with_reducible refine foldl_still (fun _ _ _ => ?_) _ _ ?_ | with_reducible refine foldl_fst_still (fun _ _ _ => ?_) _ _ ?_ | split | dsimp only | (simp only [still_mk]; refine of_still ?_)

theorem giveUpLoad_still (s : State) (core : Nat) (uid : Nat) (g : Nat) (t : Nat) (set : Nat) (h : Still z s) : Still z (giveUpLoad s core uid g t set) := by
  unfold giveUpLoad
  repeat' first | with_reducible assumption | with_reducible apply modGroup_still | with_reducible apply modCore_still | with_reducible refine foldl_still (fun _ _ _ => ?_) _ _ ?_ | with_reducible refine foldl_fst_still (fun _ _ _ => ?_) _ _ ?_ | split | dsimp only | (simp only [still_mk]; refine of_still ?_)

theorem setAside_still (s : State) (uid : Nat) (g : Nat) (h : Still z s) : Still z (setAside s uid g) := by
  unfold setAside
  repeat' first | with_reducible assumption | with_reducible apply giveUpLoad_still | with_reducible apply modGroup_still | with_reducible refine foldl_still (fun _ _ _ => ?_) _ _ ?_ | with_reducible refine foldl_fst_still (fun _ _ _ => ?_) _ _ ?_ | split | dsimp only | (simp only [still_mk]; refine of_still ?_)

theorem storeFrameNames_still (s : State) (uid : Nat) (g : Nat) (va : Nat) (h : Still z s) : Still z (storeFrameNames s uid g va) := by
  unfold storeFrameNames
  repeat' first | with_reducible assumption | with_reducible apply bindAtWrite_still | with_reducible apply modGroup_still | with_reducible refine foldl_still (fun _ _ _ => ?_) _ _ ?_ | with_reducible refine foldl_fst_still (fun _ _ _ => ?_) _ _ ?_ | split | dsimp only | (simp only [still_mk]; refine of_still ?_)

theorem enterHandler_still (s : State) (uid : Nat) (g : Nat) (h : Still z s) : Still z (enterHandler s uid g) := by
  unfold enterHandler
  repeat' first | with_reducible assumption | with_reducible apply storeFrameNames_still | with_reducible apply acquireGroup_still | with_reducible apply setAside_still | with_reducible apply modGroup_still | with_reducible refine foldl_still (fun _ _ _ => ?_) _ _ ?_ | with_reducible refine foldl_fst_still (fun _ _ _ => ?_) _ _ ?_ | split | dsimp only | (simp only [still_mk]; refine of_still ?_)

theorem fatalStop_still (s : State) (uid : Nat) (g : Nat) (detail : Nat) (addr : Nat) (lmask : List Nat) (h : Still z s) : Still z (fatalStop s uid g detail addr lmask) := by
  unfold fatalStop
  repeat' first | with_reducible assumption | with_reducible apply startTrap_still | with_reducible refine foldl_still (fun _ _ _ => ?_) _ _ ?_ | with_reducible refine foldl_fst_still (fun _ _ _ => ?_) _ _ ?_ | split | dsimp only | (simp only [still_mk]; refine of_still ?_)

theorem cbufTake_still (s : State) (core : Nat) (uid : Nat) (g : Nat) (n : Nat) (h : Still z s) : Still z (cbufTake s core uid g n) := by
  unfold cbufTake
  repeat' first | with_reducible assumption | with_reducible apply fatalStop_still | with_reducible apply setCore_still | with_reducible refine foldl_still (fun _ _ _ => ?_) _ _ ?_ | with_reducible refine foldl_fst_still (fun _ _ _ => ?_) _ _ ?_ | split | dsimp only | (simp only [still_mk]; refine of_still ?_)

theorem journalTouch_still (s : State) (uid : Nat) (g : Nat) (core : Nat) (piece : Nat) (units : Nat) (h : Still z s) : Still z (journalTouch s uid g core piece units) := by
  unfold journalTouch
  repeat' first | with_reducible assumption | with_reducible apply fatalStop_still | with_reducible apply setCore_still | with_reducible refine foldl_still (fun _ _ _ => ?_) _ _ ?_ | with_reducible refine foldl_fst_still (fun _ _ _ => ?_) _ _ ?_ | split | dsimp only | (simp only [still_mk]; refine of_still ?_)

theorem journalNames_still (s : State) (uid : Nat) (g : Nat) (ts : List Nat) (dsts : List (NClass × Nat)) (h : Still z s) : Still z (journalNames s uid g ts dsts) := by
  unfold journalNames
  repeat' first | with_reducible assumption | with_reducible apply journalTouch_still | with_reducible refine foldl_still (fun _ _ _ => ?_) _ _ ?_ | with_reducible refine foldl_fst_still (fun _ _ _ => ?_) _ _ ?_ | split | dsimp only | (simp only [still_mk]; refine of_still ?_)

theorem journalScratch_still (s : State) (uid : Nat) (g : Nat) (pa : Nat) (n : Nat) (h : Still z s) : Still z (journalScratch s uid g pa n) := by
  unfold journalScratch
  repeat' first | with_reducible assumption | with_reducible apply journalTouch_still | with_reducible apply modUnit_still | with_reducible refine foldl_still (fun _ _ _ => ?_) _ _ ?_ | with_reducible refine foldl_fst_still (fun _ _ _ => ?_) _ _ ?_ | split | dsimp only | (simp only [still_mk]; refine of_still ?_)

theorem startRollback_still (s : State) (uid : Nat) (core : Nat) (ucer : Bool) (h : Still z s) : Still z (startRollback s uid core ucer) := by
  unfold startRollback
  repeat' first | with_reducible assumption | with_reducible apply modCore_still | with_reducible apply fatalStop_still | with_reducible apply modUnit_still | with_reducible refine foldl_still (fun _ _ _ => ?_) _ _ ?_ | with_reducible refine foldl_fst_still (fun _ _ _ => ?_) _ _ ?_ | split | dsimp only | (simp only [still_mk]; refine of_still ?_)

theorem consumePoison_still (s : State) (uid : Nat) (g : Nat) (sec : Nat) (lmask : List Nat) (h : Still z s) : Still z (consumePoison s uid g sec lmask) := by
  unfold consumePoison
  repeat' first | with_reducible assumption | with_reducible apply startRollback_still | with_reducible apply fatalStop_still | with_reducible refine foldl_still (fun _ _ _ => ?_) _ _ ?_ | with_reducible refine foldl_fst_still (fun _ _ _ => ?_) _ _ ?_ | split | dsimp only | (simp only [still_mk]; refine of_still ?_)

theorem advance_still (s : State) (uid : Nat) (g : Nat) (ts : List Nat) (off : Nat → Nat) (transfer : Nat → Bool) (h : Still z s) : Still z (advance s uid g ts off transfer) := by
  unfold advance
  repeat' first | with_reducible assumption | with_reducible apply modGroup_still | with_reducible refine foldl_still (fun _ _ _ => ?_) _ _ ?_ | with_reducible refine foldl_fst_still (fun _ _ _ => ?_) _ _ ?_ | split | dsimp only | (simp only [still_mk]; refine of_still ?_)

theorem advanceNext_still (s : State) (uid : Nat) (g : Nat) (ts : List Nat) (h : Still z s) : Still z (advanceNext s uid g ts) := by
  unfold advanceNext
  repeat' first | with_reducible assumption | with_reducible apply advance_still | with_reducible refine foldl_still (fun _ _ _ => ?_) _ _ ?_ | with_reducible refine foldl_fst_still (fun _ _ _ => ?_) _ _ ?_ | split | dsimp only | (simp only [still_mk]; refine of_still ?_)

theorem touchStaged_still (s : State) (uid : Nat) (g : Nat) (ops : List (NClass × Nat)) (h : Still z s) : Still z (touchStaged s uid g ops) := by
  unfold touchStaged
  repeat' first | with_reducible assumption | with_reducible apply modPart_still | with_reducible refine foldl_still (fun _ _ _ => ?_) _ _ ?_ | with_reducible refine foldl_fst_still (fun _ _ _ => ?_) _ _ ?_ | split | dsimp only | (simp only [still_mk]; refine of_still ?_)

theorem beginWord_still (s : State) (i : Instr) (uid : Nat) (g : Nat) (ts : List Nat) (groupSet : Bool) (dsts : List (NClass × Nat)) (id : Nat) (h : Still z s) : Still z (beginWord s i uid g ts groupSet dsts id) := by
  unfold beginWord
  repeat' first | with_reducible assumption | with_reducible apply modGroup_still | with_reducible apply touchStaged_still | with_reducible apply bindAtWrite_still | with_reducible apply journalNames_still | with_reducible refine foldl_still (fun _ _ _ => ?_) _ _ ?_ | with_reducible refine foldl_fst_still (fun _ _ _ => ?_) _ _ ?_ | split | dsimp only | (simp only [still_mk]; refine of_still ?_)

theorem pushPend_still (s : State) (core : Nat) (p : Pend) (h : Still z s) : Still z (pushPend s core p) := by
  unfold pushPend
  repeat' first | with_reducible assumption | with_reducible apply modCore_still | with_reducible refine foldl_still (fun _ _ _ => ?_) _ _ ?_ | with_reducible refine foldl_fst_still (fun _ _ _ => ?_) _ _ ?_ | split | dsimp only | (simp only [still_mk]; refine of_still ?_)

theorem laneGroup_still (i : Instr) (dyn : Group → Nat → List (Nat × Nat)) (addr : State → Group → Nat → Nat × Nat → Nat)
    {eff : Nat → Group → List Nat → State → State} (he : ∀ uid x ts s, Still z s → Still z (eff uid x ts s)) (s : State) (gt : Nat × List Nat) (h : Still z s) :
    Still z (laneGroup i dyn addr eff s gt) := by
  unfold laneGroup
  dsimp only
  split
  · exact h
  · repeat' first | with_reducible assumption | with_reducible refine he _ _ _ _ ?_ | with_reducible apply raiseSync_still | split

theorem laneWord_still (i : Instr) (dyn : Group → Nat → List (Nat × Nat)) (addr : State → Group → Nat → Nat × Nat → Nat)
    {eff : Nat → Group → List Nat → State → State} (he : ∀ uid x ts s, Still z s → Still z (eff uid x ts s)) (s : State) (h : Still z s) :
    Still z (laneWord i dyn addr eff s) :=
  foldl_still (fun s gt => laneGroup_still i dyn addr he s gt) _ _ h

theorem writeResult_still (i : Instr) (lat : Nat) (res : State → Group → List Nat → Nat → List Word) (uid : Nat) (x : Group) (ok : List Nat) (s : State)
    (h : Still z s) : Still z (writeResult i lat res uid x ok s) := by
  unfold writeResult
  exact advanceNext_still _ _ _ _ (pushPend_still _ _ _ (beginWord_still _ _ _ _ _ _ _ _ h))

theorem laneResult_still (i : Instr) (lat : Nat) (res : State → Group → List Nat → Nat → List Word) (s : State) (h : Still z s) : Still z (laneResult i lat res s) :=
  laneWord_still i _ _ (fun uid x ts s => writeResult_still i lat res uid x ts s) s h

theorem laneAB_still (i : Instr) (lat : Nat) (f : Word → Word → Word) (s : State) (h : Still z s) : Still z (laneAB i lat f s) := laneResult_still _ _ _ _ h

theorem laneA_still (i : Instr) (lat : Nat) (f : Word → Word) (s : State) (h : Still z s) : Still z (laneA i lat f s) := laneResult_still _ _ _ _ h

theorem laneDAB_still (i : Instr) (lat : Nat) (f : Spar → Group → Word → Word → Word → Word) (s : State) (h : Still z s) : Still z (laneDAB i lat f s) :=
  laneResult_still _ _ _ _ h

theorem groupWord_still (i : Instr) (dyn : State → Group → List (Nat × Nat)) (addr : State → Group → Nat → Nat × Nat → Nat)
    {eff : Nat → Group → List Nat → State → State} (he : ∀ uid x ts s, Still z s → Still z (eff uid x ts s)) (s : State) (h : Still z s) :
    Still z (groupWord i dyn addr eff s) := by
  unfold groupWord
  repeat' first | with_reducible assumption | with_reducible refine he _ _ _ _ ?_ | with_reducible apply raiseSync_still | split | dsimp only

theorem groupPlain_still (i : Instr) (uid : Nat) (x : Group) (ts : List Nat) (s : State) (h : Still z s) : Still z (groupPlain i uid x ts s) := by
  unfold groupPlain
  repeat' first | with_reducible assumption | with_reducible apply advanceNext_still | with_reducible apply beginWord_still | with_reducible refine foldl_still (fun _ _ _ => ?_) _ _ ?_ | with_reducible refine foldl_fst_still (fun _ _ _ => ?_) _ _ ?_ | split | dsimp only | (simp only [still_mk]; refine of_still ?_)

theorem groupResult_still (i : Instr) (lat : Nat) (v : Word) (uid : Nat) (x : Group) (ts : List Nat) (s : State) (h : Still z s) : Still z (groupResult i lat v uid x ts s) := by
  unfold groupResult
  repeat' first | with_reducible assumption | with_reducible apply beginWord_still | with_reducible apply pushPend_still | with_reducible apply advanceNext_still | with_reducible refine foldl_still (fun _ _ _ => ?_) _ _ ?_ | with_reducible refine foldl_fst_still (fun _ _ _ => ?_) _ _ ?_ | split | dsimp only | (simp only [still_mk]; refine of_still ?_)

theorem groupAB_still (i : Instr) (f : Word → Word → Word) (s : State) (h : Still z s) : Still z (groupAB i f s) :=
  groupWord_still i _ _ (fun _ _ _ _ => groupResult_still _ _ _ _ _ _ _) s h

theorem groupWait_still (i : Instr) (k : WaitKind) (uid : Nat) (x : Group) (ts : List Nat) (s : State) (h : Still z s) : Still z (groupWait i k uid x ts s) := by
  unfold groupWait
  repeat' first | with_reducible assumption | with_reducible apply beginWord_still | with_reducible apply modGroup_still | with_reducible refine foldl_still (fun _ _ _ => ?_) _ _ ?_ | with_reducible refine foldl_fst_still (fun _ _ _ => ?_) _ _ ?_ | split | dsimp only | (simp only [still_mk]; refine of_still ?_)

theorem releaseWait_still (s : State) (uid : Nat) (g : Nat) (h : Still z s) : Still z (releaseWait s uid g) := by
  unfold releaseWait
  repeat' first | with_reducible assumption | with_reducible apply modGroup_still | with_reducible refine foldl_still (fun _ _ _ => ?_) _ _ ?_ | with_reducible refine foldl_fst_still (fun _ _ _ => ?_) _ _ ?_ | split | dsimp only | (simp only [still_mk]; refine of_still ?_)

theorem pushEq_still (s : State) (uid : Nat) (g : Nat) (cls : Nat) (ts : List Nat) (id : Nat) (arg : Nat) (dep : Bool) (h : Still z s) : Still z (pushEq s uid g cls ts id arg dep) := by
  unfold pushEq
  repeat' first | with_reducible assumption | with_reducible apply modGroup_still | with_reducible refine foldl_still (fun _ _ _ => ?_) _ _ ?_ | with_reducible refine foldl_fst_still (fun _ _ _ => ?_) _ _ ?_ | split | dsimp only | (simp only [still_mk]; refine of_still ?_)

theorem addLoad_still (s : State) (core : Nat) (set : Nat) (uid : Nat) (uniform : Bool) (fn : Nat) (dsts : List Nat) (who : List (Nat × Nat)) (h : Still z s) : Still z (addLoad s core set uid uniform fn dsts who) := by
  unfold addLoad
  repeat' first | with_reducible assumption | with_reducible apply modCore_still | with_reducible refine foldl_still (fun _ _ _ => ?_) _ _ ?_ | with_reducible refine foldl_fst_still (fun _ _ _ => ?_) _ _ ?_ | split | dsimp only | (simp only [still_mk]; refine of_still ?_)

theorem addLines_still (s : State) (x : Group) (set : Nat) (store : Bool) (accs : List MemAcc) (h : Still z s) : Still z (addLines s x set store accs) := by
  unfold addLines
  repeat' first | with_reducible assumption | with_reducible apply modPart_still | with_reducible refine foldl_still (fun _ _ _ => ?_) _ _ ?_ | with_reducible refine foldl_fst_still (fun _ _ _ => ?_) _ _ ?_ | split | dsimp only | (simp only [still_mk]; refine of_still ?_)

theorem memEff_still (i : Instr) (set fn : Nat) (acc : State → Group → Nat → MemAcc) (uid : Nat) (x : Group) (ok : List Nat) (s : State) (h : Still z s) :
    Still z (memEff i set fn acc uid x ok s) := by
  unfold memEff
  dsimp only
  refine advanceNext_still _ _ _ _ (addLines_still _ _ _ _ _ (modGroup_still _ _ _ _ ?_))
  split
  · exact beginWord_still _ _ _ _ _ _ _ _ h
  · exact addLoad_still _ _ _ _ _ _ _ _ (beginWord_still _ _ _ _ _ _ _ _ h)

theorem memWord_still (i : Instr) (fn : Nat) (acc : State → Group → Nat → MemAcc) (s : State) (h : Still z s) : Still z (memWord i fn acc s) :=
  laneWord_still i _ _ (fun uid x ts s => memEff_still i _ fn acc uid x ts s) { s with seq := s.seq + 1 } h

theorem ldWord_still (i : Instr) (fn size : Nat) (off : BitVec 7) (s : State) (h : Still z s) : Still z (ldWord i fn size off s) := memWord_still _ _ _ _ h

theorem stWord_still (i : Instr) (size : Nat) (off : BitVec 7) (s : State) (h : Still z s) : Still z (stWord i size off s) := memWord_still _ _ _ _ h

theorem atWord_still (i : Instr) (fn : Nat) (s : State) (h : Still z s) : Still z (atWord i fn s) := memWord_still _ _ _ _ h

theorem groupMem_still (i : Instr) (fn : Nat) (acc : State → Group → MemAcc) (s : State) (h : Still z s) : Still z (groupMem i fn acc s) := by
  refine groupWord_still i _ _ (fun uid x ts s k => advanceNext_still _ _ _ _ (modGroup_still _ _ _ _ ?_)) s h
  split
  · exact beginWord_still _ _ _ _ _ _ _ _ k
  · exact addLoad_still _ _ _ _ _ _ _ _ (beginWord_still _ _ _ _ _ _ _ _ k)

theorem uldWord_still (i : Instr) (fn size : Nat) (off : BitVec 7) (s : State) (h : Still z s) : Still z (uldWord i fn size off s) := groupMem_still _ _ _ _ h

theorem setLoad_still (s : State) (core : Nat) (set : Nat) (uid : Nat) (g : Nat) (t : Nat) (r : Option (List Word)) (parked : Bool) (h : Still z s) : Still z (setLoad s core set uid g t r parked) := by
  unfold setLoad
  repeat' first | with_reducible assumption | with_reducible apply modCore_still | with_reducible refine foldl_still (fun _ _ _ => ?_) _ _ ?_ | with_reducible refine foldl_fst_still (fun _ _ _ => ?_) _ _ ?_ | split | dsimp only | (simp only [still_mk]; refine of_still ?_)

theorem parkEntry_still (s : State) (uid : Nat) (x : Group) (t : Nat) (e : TqEntry) (cd : Nat × Nat) (h : Still z s) : Still z (parkEntry s uid x t e cd) := by
  unfold parkEntry
  repeat' first | with_reducible assumption | with_reducible apply modGroup_still | with_reducible apply raiseThread_still | with_reducible apply setLoad_still | with_reducible refine foldl_still (fun _ _ _ => ?_) _ _ ?_ | with_reducible refine foldl_fst_still (fun _ _ _ => ?_) _ _ ?_ | split | dsimp only | (simp only [still_mk]; refine of_still ?_)

theorem wakeMwait_still (s : State) (core : Option Nat) (pa : Nat) (n : Nat) (h : Still z s) : Still z (wakeMwait s core pa n) := by
  unfold wakeMwait
  repeat' first | with_reducible assumption | with_reducible refine foldl_still (fun _ _ _ => ?_) _ _ ?_ | with_reducible refine foldl_fst_still (fun _ _ _ => ?_) _ _ ?_ | split | dsimp only | (simp only [still_mk]; refine of_still ?_)

theorem completeLoad_still (s : State) (core : Nat) (l : LoadSet) (h : Still z s) : Still z (completeLoad s core l) := by
  unfold completeLoad
  repeat' first | with_reducible assumption | with_reducible apply modGroup_still | with_reducible apply modCore_still | with_reducible refine foldl_still (fun _ _ _ => ?_) _ _ ?_ | with_reducible refine foldl_fst_still (fun _ _ _ => ?_) _ _ ?_ | split | dsimp only | (simp only [still_mk]; refine of_still ?_)

theorem mwaitLoaded_still (s : State) (uid : Nat) (g : Nat) (v : Word) (h : Still z s) : Still z (mwaitLoaded s uid g v) := by
  unfold mwaitLoaded
  repeat' first | with_reducible assumption | with_reducible apply releaseWait_still | with_reducible apply acquireGroup_still | with_reducible apply modGroup_still | with_reducible refine foldl_still (fun _ _ _ => ?_) _ _ ?_ | with_reducible refine foldl_fst_still (fun _ _ _ => ?_) _ _ ?_ | split | dsimp only | (simp only [still_mk]; refine of_still ?_)

theorem deliverLoad_still (s : State) (uid : Nat) (g : Nat) (t : Nat) (core : Nat) (e : TqEntry) (bs : List Byte) (h : Still z s) : Still z (deliverLoad s uid g t core e bs) := by
  unfold deliverLoad
  repeat' first | with_reducible assumption | with_reducible apply mwaitLoaded_still | with_reducible apply setLoad_still | with_reducible apply completeLoad_still | with_reducible refine foldl_still (fun _ _ _ => ?_) _ _ ?_ | with_reducible refine foldl_fst_still (fun _ _ _ => ?_) _ _ ?_ | split | dsimp only | (simp only [still_mk]; refine of_still ?_)

theorem raiseG_still (s : State) (core : Nat) (pa : Nat) (n : Nat) (h : Still z s) : Still z (raiseG s core pa n) := by
  unfold raiseG
  repeat' first | with_reducible assumption | with_reducible apply modCore_still | with_reducible refine foldl_still (fun _ _ _ => ?_) _ _ ?_ | with_reducible refine foldl_fst_still (fun _ _ _ => ?_) _ _ ?_ | split | dsimp only | (simp only [still_mk]; refine of_still ?_)

theorem modCell_still (s : State) (uid : Nat) (n : Nat) (f : BarCell → BarCell) (h : Still z s) : Still z (modCell s uid n f) := by
  unfold modCell
  repeat' first | with_reducible assumption | with_reducible apply modUnit_still | with_reducible refine foldl_still (fun _ _ _ => ?_) _ _ ?_ | with_reducible refine foldl_fst_still (fun _ _ _ => ?_) _ _ ?_ | split | dsimp only | (simp only [still_mk]; refine of_still ?_)

theorem completeCell_still (s : State) (uid : Nat) (n : Nat) (h : Still z s) : Still z (completeCell s uid n) := by
  unfold completeCell
  repeat' first | with_reducible assumption | with_reducible apply modCell_still | with_reducible apply modUnit_still | with_reducible refine foldl_still (fun _ _ _ => ?_) _ _ ?_ | with_reducible refine foldl_fst_still (fun _ _ _ => ?_) _ _ ?_ | split | dsimp only | (simp only [still_mk]; refine of_still ?_)

theorem discardBuffered_still (s : State) (uid : Nat) (h : Still z s) : Still z (discardBuffered s uid) := by
  unfold discardBuffered
  repeat' first | with_reducible assumption | with_reducible apply modCore_still | with_reducible refine foldl_still (fun _ _ _ => ?_) _ _ ?_ | with_reducible refine foldl_fst_still (fun _ _ _ => ?_) _ _ ?_ | split | dsimp only | (simp only [still_mk]; refine of_still ?_)

theorem clearJournal_still (s : State) (uid : Nat) (h : Still z s) : Still z (clearJournal s uid) := by
  unfold clearJournal
  repeat' first | with_reducible assumption | with_reducible refine foldl_still (fun _ _ _ => ?_) _ _ ?_ | with_reducible refine foldl_fst_still (fun _ _ _ => ?_) _ _ ?_ | split | dsimp only | (simp only [still_mk]; refine of_still ?_)

theorem newInterval_still (s : State) (uid : Nat) (h : Still z s) : Still z (newInterval s uid) := by
  unfold newInterval
  repeat' first | with_reducible assumption | with_reducible apply modUnit_still | with_reducible apply clearJournal_still | with_reducible apply journalTouch_still | with_reducible refine foldl_still (fun _ _ _ => ?_) _ _ ?_ | with_reducible refine foldl_fst_still (fun _ _ _ => ?_) _ _ ?_ | split | dsimp only | (simp only [still_mk]; refine of_still ?_)

theorem arrive_still (s : State) (uid : Nat) (g : Nat) (n : Nat) (h : Still z s) : Still z (arrive s uid g n) := by
  unfold arrive
  repeat' first | with_reducible assumption | with_reducible apply modGroup_still | with_reducible apply placeFences_still | with_reducible refine foldl_still (fun _ _ _ => ?_) _ _ ?_ | with_reducible refine foldl_fst_still (fun _ _ _ => ?_) _ _ ?_ | split | dsimp only | (simp only [still_mk]; refine of_still ?_)

theorem releaseBarriers_still (s : State) (core : Nat) (part : Nat) (h : Still z s) : Still z (releaseBarriers s core part) := by
  unfold releaseBarriers
  repeat' first | with_reducible assumption | with_reducible apply releaseWait_still | with_reducible apply acquireGroup_still | with_reducible refine foldl_still (fun _ _ _ => ?_) _ _ ?_ | with_reducible refine foldl_fst_still (fun _ _ _ => ?_) _ _ ?_ | split | dsimp only | (simp only [still_mk]; refine of_still ?_)

theorem placeMwait_still (s : State) (uid : Nat) (g : Nat) (va : Nat) (widx : Nat) (sparw : Word) (word : Word) (h : Still z s) : Still z (placeMwait s uid g va widx sparw word) := by
  unfold placeMwait
  repeat' first | with_reducible assumption | with_reducible apply modGroup_still | with_reducible refine foldl_still (fun _ _ _ => ?_) _ _ ?_ | with_reducible refine foldl_fst_still (fun _ _ _ => ?_) _ _ ?_ | split | dsimp only | (simp only [still_mk]; refine of_still ?_)

theorem releaseWhen_still (s : State) (uid : Nat) (g : Nat) (p : DUnit → Group → Bool) (h : Still z s) : Still z (releaseWhen s uid g p) := by
  unfold releaseWhen
  repeat' first | with_reducible assumption | with_reducible apply releaseWait_still | with_reducible apply acquireGroup_still | with_reducible refine foldl_still (fun _ _ _ => ?_) _ _ ?_ | with_reducible refine foldl_fst_still (fun _ _ _ => ?_) _ _ ?_ | split | dsimp only | (simp only [still_mk]; refine of_still ?_)

theorem mwaitAgain_still (s : State) (uid : Nat) (g : Nat) (p : Group → Bool) (h : Still z s) : Still z (mwaitAgain s uid g p) := by
  unfold mwaitAgain
  repeat' first | with_reducible assumption | with_reducible apply placeMwait_still | with_reducible apply modGroup_still | with_reducible refine foldl_still (fun _ _ _ => ?_) _ _ ?_ | with_reducible refine foldl_fst_still (fun _ _ _ => ?_) _ _ ?_ | split | dsimp only | (simp only [still_mk]; refine of_still ?_)

theorem dbgBroadcast_still (s : State) (u : DUnit) (core : Nat) (except : Option Nat) (src : Nat) (h : Still z s) : Still z (dbgBroadcast s u core except src) := by
  unfold dbgBroadcast
  repeat' first | with_reducible assumption | with_reducible apply modUnit_still | with_reducible refine foldl_still (fun _ _ _ => ?_) _ _ ?_ | with_reducible refine foldl_fst_still (fun _ _ _ => ?_) _ _ ?_ | split | dsimp only | (simp only [still_mk]; refine of_still ?_)

theorem branchWord_still (i : Instr) (off : BitVec 18) (taken : Word → Bool) (s : State) (h : Still z s) : Still z (branchWord i off taken s) :=
  laneWord_still i _ _ (fun _ _ _ _ k => advance_still _ _ _ _ _ _ (beginWord_still _ _ _ _ _ _ _ _ k)) s h

theorem jumpWord_still (i : Instr) (off : BitVec 18) (s : State) (h : Still z s) : Still z (jumpWord i off s) := by
  refine laneWord_still i _ _ (fun uid x ok s k => advance_still _ _ _ _ _ _ ?_) s h
  split
  · exact beginWord_still _ _ _ _ _ _ _ _ k
  · exact pushPend_still _ _ _ (beginWord_still _ _ _ _ _ _ _ _ k)

theorem xlWord_still (i : Instr) (f : Group → List Word → Nat → Word → Word) (s : State) (h : Still z s) : Still z (xlWord i f s) := laneResult_still _ _ _ _ h

theorem takeStaging_still (s : State) (core : Nat) (part : Nat) (uid : Nat) (g : Nat) (c : NClass) (n : Nat) (h : Still z s) : Still z (takeStaging s core part uid g c n) := by
  unfold takeStaging
  repeat' first | with_reducible assumption | with_reducible apply modGroup_still | with_reducible apply modPart_still | with_reducible refine foldl_still (fun _ _ _ => ?_) _ _ ?_ | with_reducible refine foldl_fst_still (fun _ _ _ => ?_) _ _ ?_ | split | dsimp only | (simp only [still_mk]; refine of_still ?_)

theorem fillName_still (s : State) (u : DUnit) (x : Group) (m : NameSt) (staged : Bool) (h : Still z s) : Still z (fillName s u x m staged) := by
  unfold fillName
  repeat' first | with_reducible assumption | with_reducible apply startTrap_still | with_reducible apply consumePoison_still | with_reducible apply modGroup_still | with_reducible apply syncPerm_still | with_reducible refine foldl_still (fun _ _ _ => ?_) _ _ ?_ | with_reducible refine foldl_fst_still (fun _ _ _ => ?_) _ _ ?_ | split | dsimp only | (simp only [still_mk]; refine of_still ?_)

theorem fillStaging_still (s : State) (u : DUnit) (x : Group) (m : NameSt) (h : Still z s) : Still z (fillStaging s u x m) := by
  unfold fillStaging
  repeat' first | with_reducible assumption | with_reducible apply fillName_still | with_reducible apply takeStaging_still | with_reducible apply countEvent_still | with_reducible refine foldl_still (fun _ _ _ => ?_) _ _ ?_ | with_reducible refine foldl_fst_still (fun _ _ _ => ?_) _ _ ?_ | split | dsimp only | (simp only [still_mk]; refine of_still ?_)

theorem serveWants_still (s : State) (uid g : Nat) (x : Group) (l : List (NClass × Nat)) (h : Still z s) : Still z (serveWants s uid g x l) := by
  induction l generalizing s with
  | nil => exact modGroup_still _ _ _ _ h
  | cons a l ih =>
    unfold serveWants
    split
    · exact ih _ h
    split
    · exact modGroup_still _ _ _ _ h
    · exact ih _ (modGroup_still _ _ _ _ (setRes_still _ _ _ _ _ _ _ _ h))

theorem modEq_still (s : State) (uid : Nat) (g : Nat) (cls : Nat) (id : Nat) (f : EqEntry → EqEntry) (h : Still z s) : Still z (modEq s uid g cls id f) := by
  unfold modEq
  repeat' first | with_reducible assumption | with_reducible apply modGroup_still | with_reducible refine foldl_still (fun _ _ _ => ?_) _ _ ?_ | with_reducible refine foldl_fst_still (fun _ _ _ => ?_) _ _ ?_ | split | dsimp only | (simp only [still_mk]; refine of_still ?_)

theorem startEq_still (s : State) (uid : Nat) (g : Nat) (cls : Nat) (id : Nat) (h : Still z s) : Still z (startEq s uid g cls id) := by
  unfold startEq
  repeat' first | with_reducible assumption | with_reducible apply modEq_still | with_reducible refine foldl_still (fun _ _ _ => ?_) _ _ ?_ | with_reducible refine foldl_fst_still (fun _ _ _ => ?_) _ _ ?_ | split | dsimp only | (simp only [still_mk]; refine of_still ?_)

theorem finEq_still (s : State) (uid : Nat) (g : Nat) (cls : Nat) (id : Nat) (h : Still z s) : Still z (finEq s uid g cls id) := by
  unfold finEq
  repeat' first | with_reducible assumption | with_reducible apply modEq_still | with_reducible refine foldl_still (fun _ _ _ => ?_) _ _ ?_ | with_reducible refine foldl_fst_still (fun _ _ _ => ?_) _ _ ?_ | split | dsimp only | (simp only [still_mk]; refine of_still ?_)

theorem failOp_still (s : State) (uid : Nat) (g : Nat) (cls : Nat) (id : Nat) (cd : Nat × Nat) (addr : Nat) (h : Still z s) : Still z (failOp s uid g cls id cd addr) := by
  unfold failOp
  repeat' first | with_reducible assumption | with_reducible apply raiseAsync_still | with_reducible apply finEq_still | with_reducible refine foldl_still (fun _ _ _ => ?_) _ _ ?_ | with_reducible refine foldl_fst_still (fun _ _ _ => ?_) _ _ ?_ | split | dsimp only | (simp only [still_mk]; refine of_still ?_)

theorem rowSees_still (s : State) (x : Group) (uid : Nat) (tile : Nat) (t : Nat) (b : Nat) (v : Byte) (h : Still z s) : Still z (rowSees s x uid tile t b v) := by
  unfold rowSees
  repeat' first | with_reducible assumption | with_reducible apply modPart_still | with_reducible refine foldl_still (fun _ _ _ => ?_) _ _ ?_ | with_reducible refine foldl_fst_still (fun _ _ _ => ?_) _ _ ?_ | split | dsimp only | (simp only [still_mk]; refine of_still ?_)

theorem chipPut_still (s : State) (uid : Nat) (g : Nat) (c : NClass) (n : Nat) (t : Nat) (b : Nat) (v : Byte) (last : Bool) (h : Still z s) : Still z (chipPut s uid g c n t b v last) := by
  unfold chipPut
  repeat' first | with_reducible assumption | with_reducible apply modGroup_still | with_reducible apply syncPerm_still | with_reducible apply rowSees_still | with_reducible refine foldl_still (fun _ _ _ => ?_) _ _ ?_ | with_reducible refine foldl_fst_still (fun _ _ _ => ?_) _ _ ?_ | split | dsimp only | (simp only [still_mk]; refine of_still ?_)

theorem engBuffer_still (base : Nat) (s : State) (c : Cmd) (va : Nat) (pa : Nat) (bs : List Byte) (h : Still z s) : Still z (engBuffer base s c va pa bs) := by
  unfold engBuffer
  repeat' first | with_reducible assumption | with_reducible apply modCore_still | with_reducible refine foldl_still (fun _ _ _ => ?_) _ _ ?_ | with_reducible refine foldl_fst_still (fun _ _ _ => ?_) _ _ ?_ | split | dsimp only | (simp only [still_mk]; refine of_still ?_)

theorem spillAll_still {s t : State} {uid g : Nat} {l : List NameRec} (e : spillAll s uid g l = some t) (h : Still z s) : Still z t := by
  induction l generalizing s with
  | nil => cases e; exact h
  | cons a l ih =>
    unfold spillAll at e
    split at e
    · cases e
    · split at e
      · cases e
      · split at e
        · exact ih e (markSpilled_still _ _ _ _ _ _ h)
        · cases e

theorem bindAll_still {s t : State} {uid g : Nat} {l : List NameRec} (e : bindAll s uid g l = some t) (h : Still z s) : Still z t := by
  induction l generalizing s with
  | nil => cases e; exact h
  | cons a l ih =>
    unfold bindAll at e
    dsimp only at e
    split at e
    · exact ih e (bindName_still _ _ _ _ _ _ _ _ h)
    · split at e
      · cases e
      · split at e
        · cases e
        · next w => exact ih e (spillAll_still w (bindName_still _ _ _ _ _ _ _ _ h))

theorem bindGroup_still {s t : State} {uid g : Nat} {k : Kernel} {avail : NClass → Nat} {early : NClass → Bool} {comm : Bool}
    (e : bindGroup s uid g k avail early comm = some t) (h : Still z s) : Still z t := by
  unfold bindGroup at e
  split at e
  · cases e
  · dsimp only at e
    split at e
    · split at e
      · cases e
      · next w =>
        split at e
        · cases e
        · next v =>
          split at e
          · cases e
            exact bindAll_still v (spillAll_still w (modGroup_still _ _ _ _ h))
          · cases e
    · cases e

theorem placeGroup_still {s t : State} {uid g core width dom : Nat} {k : Kernel} (e : placeGroup s uid g core width dom k = some t) (h : Still z s) : Still z t := by
  unfold placeGroup at e
  split at e
  · cases e
  · dsimp only at e
    obtain ⟨p, -, w⟩ := List.exists_of_findSome?_eq_some e
    split at w
    · cases w
    · exact bindGroup_still w (modUnit_still _ _ _ h)

theorem placeGroups_still {uid width dom : Nat} {k : Kernel} {fuel : Nat} {l : List Nat} {g n : Nat} {s t : State}
    (e : placeGroups uid width dom k fuel l g n s = some t) (h : Still z s) : Still z t := by
  induction fuel generalizing l g s with
  | zero => cases l <;> simp [placeGroups] at e
  | succ fuel ih =>
    cases l with
    | nil =>
      simp only [placeGroups] at e
      split at e
      · cases e; exact h
      · cases e
    | cons a l =>
      simp only [placeGroups] at e
      split at e
      · cases e; exact h
      · split at e
        · next w => exact ih e (placeGroup_still w h)
        · exact ih e h

theorem bindBuffers_still {uid core dom slot i : Nat} {l : List BufRec} {s t : State} (e : bindBuffers s uid core dom slot i l = some t) (h : Still z s) : Still z t := by
  induction l generalizing s i with
  | nil => cases e; exact h
  | cons a l ih =>
    unfold bindBuffers at e
    split at e
    · cases e
    · exact ih e (modUnit_still _ _ _ h)

theorem bindAllBuffers_still {uid dom : Nat} {k : Kernel} {l : List Nat} {s t : State} (e : bindAllBuffers uid dom k l s = some t) (h : Still z s) : Still z t := by
  induction l generalizing s with
  | nil => cases e; exact h
  | cons a l ih =>
    unfold bindAllBuffers at e
    split at e
    · cases e
    · obtain ⟨s1, w, v⟩ := Option.bind_eq_some_iff.mp e
      exact ih v (bindBuffers_still w h)

theorem bindBars_still {s t : State} {uid core dom slot n : Nat} {l : List BarRec} (e : bindBars s uid core dom slot n l = some t) (h : Still z s) : Still z t := by
  induction l generalizing s with
  | nil => cases e; exact h
  | cons a l ih =>
    unfold bindBars at e
    dsimp only at e
    split at e
    · cases e
    · split at e
      · cases e
      · exact ih e (modUnit_still _ _ _ h)

theorem placeWrite_still (s : State) (uid : Nat) (g : Nat) (c : NClass) (n : Nat) (w : Word) (h : Still z s) : Still z (placeWrite s uid g c n w) := by
  unfold placeWrite
  repeat' first | with_reducible assumption | with_reducible apply modGroup_still | with_reducible refine foldl_still (fun _ _ _ => ?_) _ _ ?_ | with_reducible refine foldl_fst_still (fun _ _ _ => ?_) _ _ ?_ | split | dsimp only | (simp only [still_mk]; refine of_still ?_)

theorem argRead_still (s : State) (u : DUnit) (x : Group) (a : ArgRec) (i : Nat) (h : Still z s) : Still z (argRead s u x a i) := by
  unfold argRead
  repeat' first | with_reducible assumption | with_reducible apply startTrap_still | with_reducible apply fatalStop_still | with_reducible apply placeWrite_still | with_reducible refine foldl_still (fun _ _ _ => ?_) _ _ ?_ | with_reducible refine foldl_fst_still (fun _ _ _ => ?_) _ _ ?_ | split | dsimp only | (simp only [still_mk]; refine of_still ?_)

theorem argWrite_still (u : DUnit) (x : Group) (s : State) (a : ArgRec) (h : Still z s) : Still z (argWrite u x s a) := by
  unfold argWrite
  repeat' first | with_reducible assumption | with_reducible apply argRead_still | with_reducible apply placeWrite_still | with_reducible refine foldl_still (fun _ _ _ => ?_) _ _ ?_ | with_reducible refine foldl_fst_still (fun _ _ _ => ?_) _ _ ?_ | split | dsimp only | (simp only [still_mk]; refine of_still ?_)

theorem placeWrites_still (uid : Nat) (s : State) (g : Nat) (h : Still z s) : Still z (placeWrites uid s g) := by
  unfold placeWrites
  repeat' first | with_reducible assumption | with_reducible apply placeWrite_still | with_reducible apply argWrite_still | with_reducible refine foldl_still (fun _ _ _ => ?_) _ _ ?_ | with_reducible refine foldl_fst_still (fun _ _ _ => ?_) _ _ ?_ | split | dsimp only | (simp only [still_mk]; refine of_still ?_)

theorem placeUnit_still {s t : State} {u : DUnit} {k : Kernel} {l : List Nat} (e : placeUnit s u k l = some t) (h : Still z s) : Still z t := by
  unfold placeUnit at e
  dsimp only at e
  split at e
  · cases e
  · next w =>
    split at e
    · cases e
    · split at e
      · cases e
      · split at e
        · next v _ =>
          exact bindBars_still e (bindAllBuffers_still v (modUnit_still _ _ _ (placeGroups_still w h)))
        · cases e

theorem unitWrites_still (s : State) (uid : Nat) (h : Still z s) : Still z (unitWrites s uid) := by
  unfold unitWrites
  repeat' first | with_reducible assumption | with_reducible apply placeWrites_still | with_reducible refine foldl_still (fun _ _ _ => ?_) _ _ ?_ | with_reducible refine foldl_fst_still (fun _ _ _ => ?_) _ _ ?_ | split | dsimp only | (simp only [still_mk]; refine of_still ?_)

theorem groupBranch_still (i : Instr) (off : BitVec 18) (taken : Word → Bool) (s : State) (h : Still z s) : Still z (groupBranch i off taken s) :=
  groupWord_still i _ _ (fun _ _ _ _ k => advance_still _ _ _ _ _ _ (beginWord_still _ _ _ _ _ _ _ _ k)) s h

theorem groupValue_still (i : Instr) (f : State → Group → Word) (s : State) (h : Still z s) : Still z (groupValue i f s) :=
  groupWord_still i _ _ (fun _ _ _ _ => groupResult_still _ _ _ _ _ _ _) s h

theorem gateTrap_still (s : State) (uid : Nat) (x : Group) (off : Nat) (cd : Nat × Nat) (addr : Nat) (h : Still z s) : Still z (gateTrap s uid x off cd addr) := by
  unfold gateTrap
  repeat' first | with_reducible assumption | with_reducible apply raiseThread_still | with_reducible apply modGroup_still | with_reducible refine foldl_still (fun _ _ _ => ?_) _ _ ?_ | with_reducible refine foldl_fst_still (fun _ _ _ => ?_) _ _ ?_ | split | dsimp only | (simp only [still_mk]; refine of_still ?_)

theorem bindShared_still (s0 : State) (uid : Nat) (g : Nat) (d : Gable) (h : Still z s0) : Still z (bindShared s0 uid g d) := by
  unfold bindShared
  repeat' first | with_reducible assumption | with_reducible apply modGroup_still | with_reducible apply bindAtWrite_still | with_reducible refine foldl_still (fun _ _ _ => ?_) _ _ ?_ | with_reducible refine foldl_fst_still (fun _ _ _ => ?_) _ _ ?_ | split | dsimp only | (simp only [still_mk]; refine of_still ?_)

theorem gableEnter_still (s : State) (uid g idx : Nat) (d : Gable) (t : Nat) (k : Kernel) (h : Still z s) : Still z (gableEnter s uid g idx d t k) := by
  unfold gableEnter
  dsimp only
  split
  · exact h
  · split
    · exact modGroup_still _ _ _ _ h
    · next e =>
      exact modGroup_still _ _ _ _ (acquireGroup_still _ _ _ (bindGroup_still e (modGroup_still _ _ _ _ (bindShared_still _ _ _ _ h))))

theorem dropStaging_still (s : State) (uid : Nat) (x : Group) (h : Still z s) : Still z (dropStaging s uid x) := by
  unfold dropStaging
  repeat' first | with_reducible assumption | with_reducible apply modPart_still | with_reducible refine foldl_still (fun _ _ _ => ?_) _ _ ?_ | with_reducible refine foldl_fst_still (fun _ _ _ => ?_) _ _ ?_ | split | dsimp only | (simp only [still_mk]; refine of_still ?_)

theorem freshRows_still (s : State) (uid : Nat) (g : Nat) (tile : Nat) (ts : List Nat) (h : Still z s) : Still z (freshRows s uid g tile ts) := by
  unfold freshRows
  repeat' first | with_reducible assumption | with_reducible apply modGroup_still | with_reducible refine foldl_still (fun _ _ _ => ?_) _ _ ?_ | with_reducible refine foldl_fst_still (fun _ _ _ => ?_) _ _ ?_ | split | dsimp only | (simp only [still_mk]; refine of_still ?_)

theorem mxEff_still (i : Instr) (tile : Nat) (dst : Bool) (op : Group → List Nat → MxOp) (uid : Nat) (x : Group) (ok : List Nat) (s : State) (h : Still z s) : Still z (mxEff i tile dst op uid x ok s) := by
  unfold mxEff
  repeat' first | with_reducible assumption | with_reducible apply beginWord_still | with_reducible apply freshRows_still | with_reducible apply pushEq_still | with_reducible apply modPart_still | with_reducible apply advanceNext_still | with_reducible refine foldl_still (fun _ _ _ => ?_) _ _ ?_ | with_reducible refine foldl_fst_still (fun _ _ _ => ?_) _ _ ?_ | split | dsimp only | (simp only [still_mk]; refine of_still ?_)

theorem mxWord_still (i : Instr) (tile : BitVec 7) (dst : Bool) (op : State → Group → List Nat → MxOp) (s : State) (h : Still z s) : Still z (mxWord i tile dst op s) :=
  laneWord_still i _ _ (fun _ _ _ _ => mxEff_still _ _ _ _ _ _ _ _) s h

theorem fillRow_still (s : State) (uid : Nat) (g : Nat) (tile : Nat) (row : Nat) (h : Still z s) : Still z (fillRow s uid g tile row) := by
  unfold fillRow
  repeat' first | with_reducible assumption | with_reducible apply startTrap_still | with_reducible apply consumePoison_still | with_reducible apply modGroup_still | with_reducible refine foldl_still (fun _ _ _ => ?_) _ _ ?_ | with_reducible refine foldl_fst_still (fun _ _ _ => ?_) _ _ ?_ | split | dsimp only | (simp only [still_mk]; refine of_still ?_)

theorem stageTile_still {s : State} {x : Group} {e : MxEntry} (h : Still z s) : Still z (stageTile s x e).1 := by
  unfold stageTile
  split
  · exact h
  · split
    · exact h
    · dsimp only
      refine foldl_still (fun s r => fillRow_still s _ _ _ r) _ _ ?_
      split
      · exact takeStaging_still _ _ _ _ _ _ _ h
      · exact modGroup_still _ _ _ _ (takeStaging_still _ _ _ _ _ _ _ h)

theorem dropRun_still (s : State) (core : Nat) (part : Nat) (e : MxEntry) (h : Still z s) : Still z (dropRun s core part e) := by
  unfold dropRun
  repeat' first | with_reducible assumption | with_reducible apply modPart_still | with_reducible refine foldl_still (fun _ _ _ => ?_) _ _ ?_ | with_reducible refine foldl_fst_still (fun _ _ _ => ?_) _ _ ?_ | split | dsimp only | (simp only [still_mk]; refine of_still ?_)

theorem gableAbort_still (s : State) (uid : Nat) (x : Group) (h : Still z s) : Still z (gableAbort s uid x) := by
  unfold gableAbort
  repeat' first | with_reducible assumption | with_reducible apply giveUpLoad_still | with_reducible apply modGroup_still | with_reducible refine foldl_still (fun _ _ _ => ?_) _ _ ?_ | with_reducible refine foldl_fst_still (fun _ _ _ => ?_) _ _ ?_ | split | dsimp only | (simp only [still_mk]; refine of_still ?_)

theorem rebindNames_still (s : State) (uid g : Nat) (slots : Nat → Bool) (h : Still z s) : Still z (rebindNames s uid g slots) := by
  unfold rebindNames
  split
  · exact h
  · refine foldl_still (fun s m k => ?_) _ _ h
    dsimp only
    split
    · exact bindName_still _ _ _ _ _ _ _ _ k
    · split
      · exact markSpilled_still _ _ _ _ _ _ (bindName_still _ _ _ _ _ _ _ _ k)
      · exact bindName_still _ _ _ _ _ _ _ _ k

theorem pmEff_still (i : Instr) (dst : Nat) (op : RtOp) (uid : Nat) (x : Group) (ts : List Nat) (s : State) (h : Still z s) : Still z (pmEff i dst op uid x ts s) := by
  unfold pmEff
  repeat' first | with_reducible assumption | with_reducible apply beginWord_still | with_reducible apply pushEq_still | with_reducible apply modCore_still | with_reducible apply advanceNext_still | with_reducible refine foldl_still (fun _ _ _ => ?_) _ _ ?_ | with_reducible refine foldl_fst_still (fun _ _ _ => ?_) _ _ ?_ | split | dsimp only | (simp only [still_mk]; refine of_still ?_)

theorem pmWord_still (i : Instr) (dst : Nat) (op : State → Group → List Nat → RtOp) (s : State) (h : Still z s) : Still z (pmWord i dst op s) :=
  groupWord_still i _ _ (fun _ _ _ _ => pmEff_still _ _ _ _ _ _ _) s h

theorem pmDirect_still (i : Instr) (dyn : State → Group → List (Nat × Nat)) (ws : State → Group → List Word) (s : State) (h : Still z s) :
    Still z (pmDirect i dyn ws s) := by
  unfold pmDirect
  refine groupWord_still _ _ _ (fun uid x ts s k => ?_) s h
  dsimp only
  with_reducible refine advanceNext_still _ _ _ _ ?_
  with_reducible refine pushPend_still _ _ _ ?_
  with_reducible refine beginWord_still _ _ _ _ _ _ _ _ ?_
  exact of_still k

theorem failRt_still (s : State) (u : DUnit) (x : Group) (o : RtEntry) (bytes : List Byte) (q : EqEntry) (c : Nat × Nat × Option (List Nat)) (h : Still z s) : Still z (failRt s u x o bytes q c) := by
  unfold failRt
  repeat' first | with_reducible assumption | with_reducible apply syncPerm_still | with_reducible apply modGroup_still | with_reducible apply raiseAsync_still | with_reducible apply finEq_still | with_reducible refine foldl_still (fun _ _ _ => ?_) _ _ ?_ | with_reducible refine foldl_fst_still (fun _ _ _ => ?_) _ _ ?_ | split | dsimp only | (simp only [still_mk]; refine of_still ?_)

theorem rtWrite_still (s : State) (x : Group) (o : RtEntry) (h : Still z s) : Still z (rtWrite s x o) := by
  unfold rtWrite
  repeat' first | with_reducible assumption | with_reducible apply syncPerm_still | with_reducible apply modGroup_still | with_reducible apply finEq_still | with_reducible apply modEq_still | with_reducible refine foldl_still (fun _ _ _ => ?_) _ _ ?_ | with_reducible refine foldl_fst_still (fun _ _ _ => ?_) _ _ ?_ | split | dsimp only | (simp only [still_mk]; refine of_still ?_)

theorem modChan_still (s : State) (core : Nat) (ch : Nat) (f : Channel → Channel) (h : Still z s) : Still z (modChan s core ch f) := by
  unfold modChan
  repeat' first | with_reducible assumption | with_reducible apply modCore_still | with_reducible refine foldl_still (fun _ _ _ => ?_) _ _ ?_ | with_reducible refine foldl_fst_still (fun _ _ _ => ?_) _ _ ?_ | split | dsimp only | (simp only [still_mk]; refine of_still ?_)

theorem chainWord_still (i : Instr) (ch : Nat) (s : State) (h : Still z s) :
    Still z (chainWord i ch s) := by
  unfold chainWord
  refine groupWord_still _ _ _ (fun uid x ts s k => ?_) s h
  dsimp only
  with_reducible refine advanceNext_still _ _ _ _ ?_
  with_reducible refine modChan_still _ _ _ _ ?_
  with_reducible refine pushEq_still _ _ _ _ _ _ _ _ ?_
  with_reducible refine beginWord_still _ _ _ _ _ _ _ _ ?_
  exact of_still k

theorem failChain_still (s : State) (core : Nat) (ch : Nat) (r : ChainRun) (cd : Nat × Nat) (addr : Nat) (h : Still z s) : Still z (failChain s core ch r cd addr) := by
  unfold failChain
  repeat' first | with_reducible assumption | with_reducible apply failOp_still | with_reducible apply modChan_still | with_reducible refine foldl_still (fun _ _ _ => ?_) _ _ ?_ | with_reducible refine foldl_fst_still (fun _ _ _ => ?_) _ _ ?_ | split | dsimp only | (simp only [still_mk]; refine of_still ?_)

theorem setRun_still (s : State) (core : Nat) (ch : Nat) (r : ChainRun) (h : Still z s) : Still z (setRun s core ch r) := by
  unfold setRun
  repeat' first | with_reducible assumption | with_reducible apply modChan_still | with_reducible refine foldl_still (fun _ _ _ => ?_) _ _ ?_ | with_reducible refine foldl_fst_still (fun _ _ _ => ?_) _ _ ?_ | split | dsimp only | (simp only [still_mk]; refine of_still ?_)

theorem floatWord_still (i : Instr) (lat : Nat) (f : Nat → Bool → Nat → Nat → Nat → Nat) (s : State) (h : Still z s) : Still z (floatWord i lat f s) := by
  unfold floatWord
  repeat' first | with_reducible assumption | with_reducible apply laneDAB_still | with_reducible refine foldl_still (fun _ _ _ => ?_) _ _ ?_ | with_reducible refine foldl_fst_still (fun _ _ _ => ?_) _ _ ?_ | split | dsimp only | (simp only [still_mk]; refine of_still ?_)

theorem packedWord_still (i : Instr) (f : Nat → Bool → Nat → Nat → Nat → Nat) (s : State) (h : Still z s) : Still z (packedWord i f s) := by
  unfold packedWord
  repeat' first | with_reducible assumption | with_reducible apply laneDAB_still | with_reducible refine foldl_still (fun _ _ _ => ?_) _ _ ?_ | with_reducible refine foldl_fst_still (fun _ _ _ => ?_) _ _ ?_ | split | dsimp only | (simp only [still_mk]; refine of_still ?_)

theorem endUnit_still (how : Nat) (s : State) (uid : Nat) (h : Still z s) : Still z (endUnit how s uid) := by
  unfold endUnit
  repeat' first | with_reducible assumption | with_reducible apply modUnit_still | with_reducible refine foldl_still (fun _ _ _ => ?_) _ _ ?_ | with_reducible refine foldl_fst_still (fun _ _ _ => ?_) _ _ ?_ | split | dsimp only | (simp only [still_mk]; refine of_still ?_)

theorem placeTwin_still {s t : State} {l : Launch} {v : DUnit} {die : Nat} {k : Kernel} (e : placeTwin s l v die k = some t) (h : Still z s) : Still z t := by
  unfold placeTwin at e
  dsimp only at e
  split at e
  · cases e
  · next w =>
    cases e
    exact newInterval_still _ _ (newInterval_still _ _ (unitWrites_still _ _ (unitWrites_still _ _ (modUnit_still _ _ _ (modUnit_still _ _ _
      (placeUnit_still w h))))))

theorem placeNext_still {s t : State} {l : Launch} {k : Kernel} {die p : Nat} (e : placeNext s l k die p = some t) (h : Still z s) : Still z t := by
  unfold placeNext at e
  dsimp only at e
  split at e
  · cases e
  · next w =>
    split at e
    · cases e; exact unitWrites_still _ _ (placeUnit_still w h)
    · split at e
      · cases e
      · exact placeTwin_still e (placeUnit_still w h)

theorem removeUnit_still (s : State) (uid : Nat) (h : Still z s) : Still z (removeUnit s uid) := by
  unfold removeUnit
  repeat' first | with_reducible assumption | with_reducible refine foldl_still (fun _ _ _ => ?_) _ _ ?_ | with_reducible refine foldl_fst_still (fun _ _ _ => ?_) _ _ ?_ | split | dsimp only | (simp only [still_mk]; refine of_still ?_)

theorem windowWord_still (i : Instr) (get : Bool) (s : State) (h : Still z s) :
    Still z (windowWord i get s) := by
  unfold windowWord
  refine groupWord_still _ _ _ (fun uid x ts s k => ?_) s h
  dsimp only
  with_reducible refine advanceNext_still _ _ _ _ ?_
  with_reducible refine pushEq_still _ _ _ _ _ _ _ _ ?_
  with_reducible refine beginWord_still _ _ _ _ _ _ _ _ ?_
  exact of_still k

theorem failWindow_still (s : State) (uid : Nat) (g : Nat) (id : Nat) (e : (Nat × Nat) × Nat) (h : Still z s) : Still z (failWindow s uid g id e) := by
  unfold failWindow
  repeat' first | with_reducible assumption | with_reducible apply failOp_still | with_reducible apply startEq_still | with_reducible refine foldl_still (fun _ _ _ => ?_) _ _ ?_ | with_reducible refine foldl_fst_still (fun _ _ _ => ?_) _ _ ?_ | split | dsimp only | (simp only [still_mk]; refine of_still ?_)

theorem spillMoved_still (s : State) (uid : Nat) (g : Nat) (x : Group) (level : Nat) (m : NameSt) (h : Still z s) : Still z (spillMoved s uid g x level m) := by
  unfold spillMoved
  repeat' first | with_reducible assumption | with_reducible apply modGroup_still | with_reducible apply giveSlot_still | with_reducible apply pauseGroup_still | with_reducible refine foldl_still (fun _ _ _ => ?_) _ _ ?_ | with_reducible refine foldl_fst_still (fun _ _ _ => ?_) _ _ ?_ | split | dsimp only | (simp only [still_mk]; refine of_still ?_)

theorem rebindGroup_still {core part slot : Nat} {c : NClass} {uid g fuel : Nat} {s : State} (h : Still z s) :
    (∀ t, rebindGroup core part slot c uid g fuel s = .ok t → Still z t) ∧ (∀ t, rebindGroup core part slot c uid g fuel s = .error t → Still z t) := by
  induction fuel generalizing s with
  | zero => exact ⟨fun t e => by cases e; exact h, fun t e => by cases e⟩
  | succ n ih =>
    unfold rebindGroup
    repeat' first | split | exact ih (spillMoved_still _ _ _ _ _ _ h) | exact ⟨fun t e => (Except.ok.inj e) ▸ h, fun t e => (by cases e)⟩ | exact ⟨fun t e => (by cases e), fun t e => (Except.error.inj e) ▸ h⟩

theorem rebindClass_still (s : State) (core part slot : Nat) (c : NClass) (h : Still z s) : Still z (rebindClass s core part slot c) := by
  have key : ∀ {α : Type} (f : Except State State → α → Except State State),
      (∀ a b, ((∀ t, a = .ok t → Still z t) ∧ ∀ t, a = .error t → Still z t) → (∀ t, f a b = .ok t → Still z t) ∧ ∀ t, f a b = .error t → Still z t) →
      ∀ (l : List α) a, ((∀ t, a = .ok t → Still z t) ∧ ∀ t, a = .error t → Still z t) →
        (∀ t, l.foldl f a = .ok t → Still z t) ∧ ∀ t, l.foldl f a = .error t → Still z t := fun f hf l => by
    induction l with
    | nil => exact fun a k => k
    | cons b l ih => exact fun a k => ih _ (hf a b k)
  unfold rebindClass
  split
  · next e => exact (key _ (fun a b k => by
      split
      · exact ⟨fun t e => (by cases e), fun t e => k.2 t e⟩
      · exact rebindGroup_still (k.1 _ rfl)) _ (.ok s) ⟨fun t e => (Except.ok.inj e) ▸ h, fun t e => (by cases e)⟩).1 _ e
  · next e => exact (key _ (fun a b k => by
      split
      · exact ⟨fun t e => (by cases e), fun t e => k.2 t e⟩
      · exact rebindGroup_still (k.1 _ rfl)) _ (.ok s) ⟨fun t e => (Except.ok.inj e) ▸ h, fun t e => (by cases e)⟩).2 _ e

theorem readmit_still (s : State) (uid : Nat) (g : Nat) (level : Nat) (m : NameSt) (h : Still z s) : Still z (readmit s uid g level m) := by
  unfold readmit
  repeat' first | with_reducible assumption | with_reducible apply modGroup_still | with_reducible apply modPart_still | with_reducible refine foldl_still (fun _ _ _ => ?_) _ _ ?_ | with_reducible refine foldl_fst_still (fun _ _ _ => ?_) _ _ ?_ | split | dsimp only | (simp only [still_mk]; refine of_still ?_)

theorem readmitClass_still (s : State) (core : Nat) (part : Nat) (slot : Nat) (c : NClass) (h : Still z s) : Still z (readmitClass s core part slot c) := by
  unfold readmitClass
  repeat' first | with_reducible assumption | with_reducible apply readmit_still | with_reducible refine foldl_still (fun _ _ _ => ?_) _ _ ?_ | with_reducible refine foldl_fst_still (fun _ _ _ => ?_) _ _ ?_ | split | dsimp only | (simp only [still_mk]; refine of_still ?_)

theorem modSlotGroups_still (s : State) (core : Nat) (slot : Nat) (f : Group → Group) (h : Still z s) : Still z (modSlotGroups s core slot f) := by
  unfold modSlotGroups
  repeat' first | with_reducible assumption | with_reducible refine foldl_still (fun _ _ _ => ?_) _ _ ?_ | with_reducible refine foldl_fst_still (fun _ _ _ => ?_) _ _ ?_ | split | dsimp only | (simp only [still_mk]; refine of_still ?_)

theorem refreshPart_still (s : State) (core : Nat) (part : Nat) (h : Still z s) : Still z (refreshPart s core part) := by
  unfold refreshPart
  repeat' first | with_reducible assumption | with_reducible refine foldl_still (fun _ _ _ => ?_) _ _ ?_ | with_reducible refine foldl_fst_still (fun _ _ _ => ?_) _ _ ?_ | split | dsimp only | (simp only [still_mk]; refine of_still ?_)

theorem markJoined_still (s : State) (core : Nat) (part : Nat) (table : List Ready) (h : Still z s) : Still z (markJoined s core part table) := by
  unfold markJoined
  repeat' first | with_reducible assumption | with_reducible refine foldl_still (fun _ _ _ => ?_) _ _ ?_ | with_reducible refine foldl_fst_still (fun _ _ _ => ?_) _ _ ?_ | split | dsimp only | (simp only [still_mk]; refine of_still ?_)

theorem raiseRendez_still (s : State) (u : DUnit) (x : Group) (off : Nat) (n : NextWord) (h : Still z s) : Still z (raiseRendez s u x off n) := by
  unfold raiseRendez
  repeat' first | with_reducible assumption | with_reducible apply raiseThread_still | with_reducible refine foldl_still (fun _ _ _ => ?_) _ _ ?_ | with_reducible refine foldl_fst_still (fun _ _ _ => ?_) _ _ ?_ | split | dsimp only | (simp only [still_mk]; refine of_still ?_)

theorem rendezPart_still (s : State) (gs : List (DUnit × Group × NMap NextWord)) (h : Still z s) : Still z (rendezPart s gs) := by
  unfold rendezPart
  repeat' first | with_reducible assumption | with_reducible apply raiseRendez_still | with_reducible refine foldl_still (fun _ _ _ => ?_) _ _ ?_ | with_reducible refine foldl_fst_still (fun _ _ _ => ?_) _ _ ?_ | split | dsimp only | (simp only [still_mk]; refine of_still ?_)

theorem clockEvents_still (s : State) (core : Nat) (part : Nat) (cands : List Cand) (wide : Option Cand) (waiting : List Ready) (h : Still z s) : Still z (clockEvents s core part cands wide waiting) := by
  unfold clockEvents
  repeat' first | with_reducible assumption | with_reducible apply countEvent_still | with_reducible refine foldl_still (fun _ _ _ => ?_) _ _ ?_ | with_reducible refine foldl_fst_still (fun _ _ _ => ?_) _ _ ?_ | split | dsimp only | (simp only [still_mk]; refine of_still ?_)

theorem arbitratePart_still (s : State) (core : Nat) (part : Nat) (h : Still z s) : Still z (arbitratePart s core part) := by
  unfold arbitratePart
  repeat' first | with_reducible assumption | with_reducible apply refreshPart_still | with_reducible apply releaseBarriers_still | with_reducible apply clockEvents_still | with_reducible apply rendezPart_still | with_reducible apply markJoined_still | with_reducible apply modPart_still | with_reducible refine foldl_still (fun _ _ _ => ?_) _ _ ?_ | with_reducible refine foldl_fst_still (fun _ _ _ => ?_) _ _ ?_ | split | dsimp only | (simp only [still_mk]; refine of_still ?_)

theorem plWord_still (i : Instr) (b : BitVec 4) (f : List Nat → List Word → Nat → Word) (s : State) (h : Still z s) : Still z (plWord i b f s) :=
  laneWord_still i _ _ (fun uid x ts s => writeResult_still i _ _ uid x ts s) s h

theorem useSkips_still (uid pc : Nat) (sets : List (Nat × List Nat)) (s : State) (h : Still z s) : Still z (useSkips uid pc sets s) := by
  unfold useSkips
  repeat' first | with_reducible assumption | with_reducible apply modGroup_still | with_reducible refine foldl_still (fun _ _ _ => ?_) _ _ ?_ | with_reducible refine foldl_fst_still (fun _ _ _ => ?_) _ _ ?_ | split | dsimp only | (simp only [still_mk]; refine of_still ?_)

theorem latch_still (core : Nat) (part : Nat) (c : Cand) (n : NextWord) (k : Kernel) (sets : List (Nat × List Nat)) (s : State) (h : Still z s) : Still z (latch core part c n k sets s) := by
  unfold latch
  repeat' first | with_reducible assumption | with_reducible refine foldl_still (fun _ _ _ => ?_) _ _ ?_ | with_reducible refine foldl_fst_still (fun _ _ _ => ?_) _ _ ?_ | split | dsimp only | (simp only [still_mk]; refine of_still ?_)

theorem countIssue_still (core : Nat) (part : Nat) (dom : Nat) (c : Cand) (n : NextWord) (sets : List (Nat × List Nat)) (s : State) (h : Still z s) : Still z (countIssue core part dom c n sets s) := by
  unfold countIssue
  repeat' first | with_reducible assumption | with_reducible apply modPart_still | with_reducible apply countEvent_still | with_reducible apply modGroup_still | with_reducible refine foldl_still (fun _ _ _ => ?_) _ _ ?_ | with_reducible refine foldl_fst_still (fun _ _ _ => ?_) _ _ ?_ | split | dsimp only | (simp only [still_mk]; refine of_still ?_)

theorem raiseFetch_still (uid : Nat) (n : NextWord) (cd : Nat × Nat) (sets : List (Nat × List Nat)) (s : State) (h : Still z s) : Still z (raiseFetch uid n cd sets s) := by
  unfold raiseFetch
  repeat' first | with_reducible assumption | with_reducible apply raiseSync_still | with_reducible refine foldl_still (fun _ _ _ => ?_) _ _ ?_ | with_reducible refine foldl_fst_still (fun _ _ _ => ?_) _ _ ?_ | split | dsimp only | (simp only [still_mk]; refine of_still ?_)

end Sys2Proof.Machine
end

