-- ==== Sys2Proof/Laws/Memory.lean ====
section
/-! SUPPORT. Memory as a canonical list of bytes: what a write does to a read, and that every memory operation keeps the
canonical form. -/

namespace Sys2Proof.Machine

open Sys2Proof

theorem Memory.read_nil (k : Nat) : Memory.read [] k = Memory.unlisted := rfl

theorem Memory.read_cons (a : Nat) (b : Byte) (m : List Host.Cell) (k : Nat) : Memory.read ((a, b) :: m) k = if a = k then b else Memory.read m k := by
  simp only [Memory.read]
  split
  · next h => rw [if_pos (Nat.eq_of_beq_eq_true h)]
  · next h => rw [if_neg (Nat.ne_of_beq_eq_false h)]

theorem Memory.wfFrom_mono {m : List Host.Cell} {lo hi : Nat} (h : lo ≤ hi) (w : Memory.wfFrom hi m = true) :
    Memory.wfFrom lo m = true := by
  cases m with
  | nil => rfl
  | cons c m =>
    obtain ⟨a, b⟩ := c
    simp only [Memory.wfFrom, Bool.and_eq_true, decide_eq_true_eq] at w ⊢
    exact ⟨⟨by omega, w.1.2⟩, w.2⟩

/-- An address below every listed one reads as the unlisted byte. -/
theorem Memory.read_below {m : List Host.Cell} {lo k : Nat} (w : Memory.wfFrom lo m = true) (h : k < lo) :
    Memory.read m k = Memory.unlisted := by
  induction m generalizing lo with
  | nil => rfl
  | cons c m ih =>
    obtain ⟨a, b⟩ := c
    simp only [Memory.wfFrom, Bool.and_eq_true, decide_eq_true_eq] at w
    simp only [Memory.read_cons]
    rw [if_neg (by omega), ih w.2 (by omega)]

theorem Memory.wfFrom_insert {m : List Host.Cell} {lo k : Nat} {b : Byte} (w : Memory.wfFrom lo m = true) (hk : lo ≤ k)
    (hb : b ≠ Memory.unlisted) : Memory.wfFrom lo (Memory.insert m k b) = true := by
  induction m generalizing lo with
  | nil => simp [Memory.insert, Memory.wfFrom, hk, hb]
  | cons c m ih =>
    obtain ⟨a, d⟩ := c
    simp only [Memory.wfFrom, Bool.and_eq_true, decide_eq_true_eq] at w
    simp only [Memory.insert]
    split
    · simp [Memory.wfFrom, hk, hb, w]; omega
    · split
      · subst_vars; simp [Memory.wfFrom, w, hb]
      · simp [Memory.wfFrom, w, ih w.2 (by omega)]

theorem Memory.wfFrom_erase {m : List Host.Cell} {lo : Nat} (k : Nat) (w : Memory.wfFrom lo m = true) :
    Memory.wfFrom lo (Memory.erase m k) = true := by
  induction m generalizing lo with
  | nil => rfl
  | cons c m ih =>
    obtain ⟨a, d⟩ := c
    simp only [Memory.wfFrom, Bool.and_eq_true, decide_eq_true_eq] at w
    simp only [Memory.erase]
    split
    · exact Memory.wfFrom_mono (by omega) w.2
    · simp [Memory.wfFrom, w, ih w.2]

/-- A write keeps the canonical form. -/
theorem Memory.wf_write {m : List Host.Cell} (k : Nat) (b : Byte) (w : Memory.wf m = true) : Memory.wf (Memory.write m k b) = true := by
  unfold Memory.write
  split
  · exact Memory.wfFrom_erase k w
  · exact Memory.wfFrom_insert w (Nat.zero_le _) ‹_›

theorem Memory.wf_writeAll {m : List Host.Cell} (k : Nat) (l : List Byte) (w : Memory.wf m = true) :
    Memory.wf (Memory.writeAll m k l) = true := by
  induction l generalizing m k with
  | nil => exact w
  | cons b l ih => exact ih _ (Memory.wf_write k b w)

theorem Memory.read_insert (m : List Host.Cell) (k : Nat) (b : Byte) (j : Nat) :
    Memory.read (Memory.insert m k b) j = if j = k then b else Memory.read m j := by
  induction m with
  | nil => simp only [Memory.insert, Memory.read_cons, Memory.read_nil, eq_comm]
  | cons c m ih =>
    obtain ⟨a, d⟩ := c
    simp only [Memory.insert]
    repeat' split
    all_goals simp_all [Memory.read_cons]
    all_goals grind

theorem Memory.read_erase {m : List Host.Cell} {lo : Nat} (w : Memory.wfFrom lo m = true) (k j : Nat) :
    Memory.read (Memory.erase m k) j = if j = k then Memory.unlisted else Memory.read m j := by
  induction m generalizing lo with
  | nil => simp [Memory.erase, Memory.read_nil]
  | cons c m ih =>
    obtain ⟨a, d⟩ := c
    simp only [Memory.wfFrom, Bool.and_eq_true, decide_eq_true_eq] at w
    simp only [Memory.erase]
    split
    · subst_vars
      split
      · subst_vars; exact Memory.read_below w.2 (by omega)
      · simp only [Memory.read_cons]; rw [if_neg (by omega)]
    · simp only [Memory.read_cons, ih w.2]
      split <;> grind

/-- A read after a write: the byte written at its address, every other byte as before. -/
theorem Memory.read_write {m : List Host.Cell} (w : Memory.wf m = true) (k : Nat) (b : Byte) (j : Nat) :
    Memory.read (Memory.write m k b) j = if j = k then b else Memory.read m j := by
  unfold Memory.write
  split
  · rw [Memory.read_erase w]; split <;> simp_all
  · exact Memory.read_insert m k b j

/-- A read after a write of bytes: those written at their addresses, every other byte as before. -/
theorem Memory.read_writeAll {m : List Host.Cell} (w : Memory.wf m = true) (k : Nat) (l : List Byte) (j : Nat) :
    Memory.read (Memory.writeAll m k l) j = if k ≤ j ∧ j < k + l.length then (l[j - k]?).getD 0 else Memory.read m j := by
  induction l generalizing m k with
  | nil => rw [if_neg (by simp only [List.length_nil]; omega)]; rfl
  | cons b l ih =>
    simp only [Memory.writeAll, ih (Memory.wf_write k b w), Memory.read_write w, List.length_cons]
    by_cases h : j = k
    · subst h
      rw [if_neg (by omega), if_pos rfl, if_pos (by omega)]
      simp
    · by_cases h2 : k + 1 ≤ j ∧ j < k + 1 + l.length
      · rw [if_pos h2, if_pos (by omega), show j - k = (j - (k + 1)) + 1 by omega, List.getElem?_cons_succ]
      · rw [if_neg h2, if_neg h, if_neg (by omega)]

end Sys2Proof.Machine
end

