-- ==== Sys2Proof/Laws/Operands.lean ====
section
/-! SUPPORT. The fields of each word (R124, R125), one equation a word, so that no proof unfolds the table. -/

namespace Sys2Proof.Machine

open Sys2Proof

@[simp] theorem wordInfo_iaAdd (sp : Spar) (d a b) : wordInfo sp (.iaAdd d a b) =
    ⟨false, some ⟨.lane, d.toNat, 1, false, true, true⟩, some ⟨.lane, a.toNat, 1, true, false, true⟩, some ⟨.lane, b.toNat, 1, true, false, true⟩, 0, 1, false⟩ := rfl
@[simp] theorem wordInfo_iaSub (sp : Spar) (d a b) : wordInfo sp (.iaSub d a b) =
    ⟨false, some ⟨.lane, d.toNat, 1, false, true, true⟩, some ⟨.lane, a.toNat, 1, true, false, true⟩, some ⟨.lane, b.toNat, 1, true, false, true⟩, 0, 1, false⟩ := rfl
@[simp] theorem wordInfo_iaMul (sp : Spar) (d a b) : wordInfo sp (.iaMul d a b) =
    ⟨false, some ⟨.lane, d.toNat, 1, false, true, true⟩, some ⟨.lane, a.toNat, 1, true, false, true⟩, some ⟨.lane, b.toNat, 1, true, false, true⟩, 0, 1, false⟩ := rfl
@[simp] theorem wordInfo_iaMulh (sp : Spar) (d a b) : wordInfo sp (.iaMulh d a b) =
    ⟨false, some ⟨.lane, d.toNat, 1, false, true, true⟩, some ⟨.lane, a.toNat, 1, true, false, true⟩, some ⟨.lane, b.toNat, 1, true, false, true⟩, 0, 1, false⟩ := rfl
@[simp] theorem wordInfo_iaMulhn (sp : Spar) (d a b) : wordInfo sp (.iaMulhn d a b) =
    ⟨false, some ⟨.lane, d.toNat, 1, false, true, true⟩, some ⟨.lane, a.toNat, 1, true, false, true⟩, some ⟨.lane, b.toNat, 1, true, false, true⟩, 0, 1, false⟩ := rfl
@[simp] theorem wordInfo_iaMin (sp : Spar) (d a b) : wordInfo sp (.iaMin d a b) =
    ⟨false, some ⟨.lane, d.toNat, 1, false, true, true⟩, some ⟨.lane, a.toNat, 1, true, false, true⟩, some ⟨.lane, b.toNat, 1, true, false, true⟩, 0, 1, false⟩ := rfl
@[simp] theorem wordInfo_iaMax (sp : Spar) (d a b) : wordInfo sp (.iaMax d a b) =
    ⟨false, some ⟨.lane, d.toNat, 1, false, true, true⟩, some ⟨.lane, a.toNat, 1, true, false, true⟩, some ⟨.lane, b.toNat, 1, true, false, true⟩, 0, 1, false⟩ := rfl
@[simp] theorem wordInfo_iaMinn (sp : Spar) (d a b) : wordInfo sp (.iaMinn d a b) =
    ⟨false, some ⟨.lane, d.toNat, 1, false, true, true⟩, some ⟨.lane, a.toNat, 1, true, false, true⟩, some ⟨.lane, b.toNat, 1, true, false, true⟩, 0, 1, false⟩ := rfl
@[simp] theorem wordInfo_iaMaxn (sp : Spar) (d a b) : wordInfo sp (.iaMaxn d a b) =
    ⟨false, some ⟨.lane, d.toNat, 1, false, true, true⟩, some ⟨.lane, a.toNat, 1, true, false, true⟩, some ⟨.lane, b.toNat, 1, true, false, true⟩, 0, 1, false⟩ := rfl
@[simp] theorem wordInfo_iaAnd (sp : Spar) (d a b) : wordInfo sp (.iaAnd d a b) =
    ⟨false, some ⟨.lane, d.toNat, 1, false, true, true⟩, some ⟨.lane, a.toNat, 1, true, false, true⟩, some ⟨.lane, b.toNat, 1, true, false, true⟩, 0, 1, false⟩ := rfl
@[simp] theorem wordInfo_iaOr (sp : Spar) (d a b) : wordInfo sp (.iaOr d a b) =
    ⟨false, some ⟨.lane, d.toNat, 1, false, true, true⟩, some ⟨.lane, a.toNat, 1, true, false, true⟩, some ⟨.lane, b.toNat, 1, true, false, true⟩, 0, 1, false⟩ := rfl
@[simp] theorem wordInfo_iaXor (sp : Spar) (d a b) : wordInfo sp (.iaXor d a b) =
    ⟨false, some ⟨.lane, d.toNat, 1, false, true, true⟩, some ⟨.lane, a.toNat, 1, true, false, true⟩, some ⟨.lane, b.toNat, 1, true, false, true⟩, 0, 1, false⟩ := rfl
@[simp] theorem wordInfo_iaShl (sp : Spar) (d a b) : wordInfo sp (.iaShl d a b) =
    ⟨false, some ⟨.lane, d.toNat, 1, false, true, true⟩, some ⟨.lane, a.toNat, 1, true, false, true⟩, some ⟨.lane, b.toNat, 1, true, false, true⟩, 0, 1, false⟩ := rfl
@[simp] theorem wordInfo_iaShr (sp : Spar) (d a b) : wordInfo sp (.iaShr d a b) =
    ⟨false, some ⟨.lane, d.toNat, 1, false, true, true⟩, some ⟨.lane, a.toNat, 1, true, false, true⟩, some ⟨.lane, b.toNat, 1, true, false, true⟩, 0, 1, false⟩ := rfl
@[simp] theorem wordInfo_iaSar (sp : Spar) (d a b) : wordInfo sp (.iaSar d a b) =
    ⟨false, some ⟨.lane, d.toNat, 1, false, true, true⟩, some ⟨.lane, a.toNat, 1, true, false, true⟩, some ⟨.lane, b.toNat, 1, true, false, true⟩, 0, 1, false⟩ := rfl
@[simp] theorem wordInfo_iaRot (sp : Spar) (d a b) : wordInfo sp (.iaRot d a b) =
    ⟨false, some ⟨.lane, d.toNat, 1, false, true, true⟩, some ⟨.lane, a.toNat, 1, true, false, true⟩, some ⟨.lane, b.toNat, 1, true, false, true⟩, 0, 1, false⟩ := rfl
@[simp] theorem wordInfo_icEq (sp : Spar) (d a b) : wordInfo sp (.icEq d a b) =
    ⟨false, some ⟨.lane, d.toNat, 1, false, true, true⟩, some ⟨.lane, a.toNat, 1, true, false, true⟩, some ⟨.lane, b.toNat, 1, true, false, true⟩, 0, 1, false⟩ := rfl
@[simp] theorem wordInfo_icNe (sp : Spar) (d a b) : wordInfo sp (.icNe d a b) =
    ⟨false, some ⟨.lane, d.toNat, 1, false, true, true⟩, some ⟨.lane, a.toNat, 1, true, false, true⟩, some ⟨.lane, b.toNat, 1, true, false, true⟩, 0, 1, false⟩ := rfl
@[simp] theorem wordInfo_icLt (sp : Spar) (d a b) : wordInfo sp (.icLt d a b) =
    ⟨false, some ⟨.lane, d.toNat, 1, false, true, true⟩, some ⟨.lane, a.toNat, 1, true, false, true⟩, some ⟨.lane, b.toNat, 1, true, false, true⟩, 0, 1, false⟩ := rfl
@[simp] theorem wordInfo_icLe (sp : Spar) (d a b) : wordInfo sp (.icLe d a b) =
    ⟨false, some ⟨.lane, d.toNat, 1, false, true, true⟩, some ⟨.lane, a.toNat, 1, true, false, true⟩, some ⟨.lane, b.toNat, 1, true, false, true⟩, 0, 1, false⟩ := rfl
@[simp] theorem wordInfo_icLtn (sp : Spar) (d a b) : wordInfo sp (.icLtn d a b) =
    ⟨false, some ⟨.lane, d.toNat, 1, false, true, true⟩, some ⟨.lane, a.toNat, 1, true, false, true⟩, some ⟨.lane, b.toNat, 1, true, false, true⟩, 0, 1, false⟩ := rfl
@[simp] theorem wordInfo_icLen (sp : Spar) (d a b) : wordInfo sp (.icLen d a b) =
    ⟨false, some ⟨.lane, d.toNat, 1, false, true, true⟩, some ⟨.lane, a.toNat, 1, true, false, true⟩, some ⟨.lane, b.toNat, 1, true, false, true⟩, 0, 1, false⟩ := rfl
@[simp] theorem wordInfo_iai (sp : Spar) (d a x2) : wordInfo sp (.iai d a x2) =
    ⟨false, some ⟨.lane, d.toNat, 1, false, true, true⟩, some ⟨.lane, a.toNat, 1, true, false, true⟩, none, 0, 1, false⟩ := rfl
@[simp] theorem wordInfo_ishShl (sp : Spar) (d a x2) : wordInfo sp (.ishShl d a x2) =
    ⟨false, some ⟨.lane, d.toNat, 1, false, true, true⟩, some ⟨.lane, a.toNat, 1, true, false, true⟩, none, 0, 1, false⟩ := rfl
@[simp] theorem wordInfo_ishShr (sp : Spar) (d a x2) : wordInfo sp (.ishShr d a x2) =
    ⟨false, some ⟨.lane, d.toNat, 1, false, true, true⟩, some ⟨.lane, a.toNat, 1, true, false, true⟩, none, 0, 1, false⟩ := rfl
@[simp] theorem wordInfo_ishSar (sp : Spar) (d a x2) : wordInfo sp (.ishSar d a x2) =
    ⟨false, some ⟨.lane, d.toNat, 1, false, true, true⟩, some ⟨.lane, a.toNat, 1, true, false, true⟩, none, 0, 1, false⟩ := rfl
@[simp] theorem wordInfo_ishRot (sp : Spar) (d a x2) : wordInfo sp (.ishRot d a x2) =
    ⟨false, some ⟨.lane, d.toNat, 1, false, true, true⟩, some ⟨.lane, a.toNat, 1, true, false, true⟩, none, 0, 1, false⟩ := rfl
@[simp] theorem wordInfo_lim (sp : Spar) (d x1) : wordInfo sp (.lim d x1) =
    ⟨false, some ⟨.lane, d.toNat, 1, false, true, true⟩, none, none, 0, 1, false⟩ := rfl
@[simp] theorem wordInfo_lih (sp : Spar) (d x1) : wordInfo sp (.lih d x1) =
    ⟨false, some ⟨.lane, d.toNat, 1, true, true, true⟩, none, none, 0, 1, false⟩ := rfl
@[simp] theorem wordInfo_faAdd (sp : Spar) (d a b) : wordInfo sp (.faAdd d a b) =
    ⟨false, some ⟨.lane, d.toNat, 1, false, true, true⟩, some ⟨.lane, a.toNat, 1, true, false, true⟩, some ⟨.lane, b.toNat, 1, true, false, true⟩, 2, 1, false⟩ := rfl
@[simp] theorem wordInfo_faSub (sp : Spar) (d a b) : wordInfo sp (.faSub d a b) =
    ⟨false, some ⟨.lane, d.toNat, 1, false, true, true⟩, some ⟨.lane, a.toNat, 1, true, false, true⟩, some ⟨.lane, b.toNat, 1, true, false, true⟩, 2, 1, false⟩ := rfl
@[simp] theorem wordInfo_faMul (sp : Spar) (d a b) : wordInfo sp (.faMul d a b) =
    ⟨false, some ⟨.lane, d.toNat, 1, false, true, true⟩, some ⟨.lane, a.toNat, 1, true, false, true⟩, some ⟨.lane, b.toNat, 1, true, false, true⟩, 2, 1, false⟩ := rfl
@[simp] theorem wordInfo_faFma (sp : Spar) (d a b) : wordInfo sp (.faFma d a b) =
    ⟨false, some ⟨.lane, d.toNat, 1, true, true, true⟩, some ⟨.lane, a.toNat, 1, true, false, true⟩, some ⟨.lane, b.toNat, 1, true, false, true⟩, 2, 1, false⟩ := rfl
@[simp] theorem wordInfo_faFms (sp : Spar) (d a b) : wordInfo sp (.faFms d a b) =
    ⟨false, some ⟨.lane, d.toNat, 1, true, true, true⟩, some ⟨.lane, a.toNat, 1, true, false, true⟩, some ⟨.lane, b.toNat, 1, true, false, true⟩, 2, 1, false⟩ := rfl
@[simp] theorem wordInfo_faMin (sp : Spar) (d a b) : wordInfo sp (.faMin d a b) =
    ⟨false, some ⟨.lane, d.toNat, 1, false, true, true⟩, some ⟨.lane, a.toNat, 1, true, false, true⟩, some ⟨.lane, b.toNat, 1, true, false, true⟩, 2, 1, false⟩ := rfl
@[simp] theorem wordInfo_faMax (sp : Spar) (d a b) : wordInfo sp (.faMax d a b) =
    ⟨false, some ⟨.lane, d.toNat, 1, false, true, true⟩, some ⟨.lane, a.toNat, 1, true, false, true⟩, some ⟨.lane, b.toNat, 1, true, false, true⟩, 2, 1, false⟩ := rfl
@[simp] theorem wordInfo_faAbs (sp : Spar) (d a) : wordInfo sp (.faAbs d a) =
    ⟨false, some ⟨.lane, d.toNat, 1, false, true, true⟩, some ⟨.lane, a.toNat, 1, true, false, true⟩, none, 2, 1, false⟩ := rfl
@[simp] theorem wordInfo_faNeg (sp : Spar) (d a) : wordInfo sp (.faNeg d a) =
    ⟨false, some ⟨.lane, d.toNat, 1, false, true, true⟩, some ⟨.lane, a.toNat, 1, true, false, true⟩, none, 2, 1, false⟩ := rfl
@[simp] theorem wordInfo_faEq (sp : Spar) (d a b) : wordInfo sp (.faEq d a b) =
    ⟨false, some ⟨.lane, d.toNat, 1, false, true, true⟩, some ⟨.lane, a.toNat, 1, true, false, true⟩, some ⟨.lane, b.toNat, 1, true, false, true⟩, 2, 1, false⟩ := rfl
@[simp] theorem wordInfo_faLt (sp : Spar) (d a b) : wordInfo sp (.faLt d a b) =
    ⟨false, some ⟨.lane, d.toNat, 1, false, true, true⟩, some ⟨.lane, a.toNat, 1, true, false, true⟩, some ⟨.lane, b.toNat, 1, true, false, true⟩, 2, 1, false⟩ := rfl
@[simp] theorem wordInfo_faLe (sp : Spar) (d a b) : wordInfo sp (.faLe d a b) =
    ⟨false, some ⟨.lane, d.toNat, 1, false, true, true⟩, some ⟨.lane, a.toNat, 1, true, false, true⟩, some ⟨.lane, b.toNat, 1, true, false, true⟩, 2, 1, false⟩ := rfl
@[simp] theorem wordInfo_fhHadd (sp : Spar) (d a b) : wordInfo sp (.fhHadd d a b) =
    ⟨false, some ⟨.lane, d.toNat, 1, false, true, true⟩, some ⟨.lane, a.toNat, 1, true, false, true⟩, some ⟨.lane, b.toNat, 1, true, false, true⟩, 2, 1, false⟩ := rfl
@[simp] theorem wordInfo_fhHmul (sp : Spar) (d a b) : wordInfo sp (.fhHmul d a b) =
    ⟨false, some ⟨.lane, d.toNat, 1, false, true, true⟩, some ⟨.lane, a.toNat, 1, true, false, true⟩, some ⟨.lane, b.toNat, 1, true, false, true⟩, 2, 1, false⟩ := rfl
@[simp] theorem wordInfo_fhHfma (sp : Spar) (d a b) : wordInfo sp (.fhHfma d a b) =
    ⟨false, some ⟨.lane, d.toNat, 1, true, true, true⟩, some ⟨.lane, a.toNat, 1, true, false, true⟩, some ⟨.lane, b.toNat, 1, true, false, true⟩, 2, 1, false⟩ := rfl
@[simp] theorem wordInfo_fhHmin (sp : Spar) (d a b) : wordInfo sp (.fhHmin d a b) =
    ⟨false, some ⟨.lane, d.toNat, 1, false, true, true⟩, some ⟨.lane, a.toNat, 1, true, false, true⟩, some ⟨.lane, b.toNat, 1, true, false, true⟩, 2, 1, false⟩ := rfl
@[simp] theorem wordInfo_fhHmax (sp : Spar) (d a b) : wordInfo sp (.fhHmax d a b) =
    ⟨false, some ⟨.lane, d.toNat, 1, false, true, true⟩, some ⟨.lane, a.toNat, 1, true, false, true⟩, some ⟨.lane, b.toNat, 1, true, false, true⟩, 2, 1, false⟩ := rfl
@[simp] theorem wordInfo_fhBadd (sp : Spar) (d a b) : wordInfo sp (.fhBadd d a b) =
    ⟨false, some ⟨.lane, d.toNat, 1, false, true, true⟩, some ⟨.lane, a.toNat, 1, true, false, true⟩, some ⟨.lane, b.toNat, 1, true, false, true⟩, 2, 1, false⟩ := rfl
@[simp] theorem wordInfo_fhBmul (sp : Spar) (d a b) : wordInfo sp (.fhBmul d a b) =
    ⟨false, some ⟨.lane, d.toNat, 1, false, true, true⟩, some ⟨.lane, a.toNat, 1, true, false, true⟩, some ⟨.lane, b.toNat, 1, true, false, true⟩, 2, 1, false⟩ := rfl
@[simp] theorem wordInfo_fhBfma (sp : Spar) (d a b) : wordInfo sp (.fhBfma d a b) =
    ⟨false, some ⟨.lane, d.toNat, 1, true, true, true⟩, some ⟨.lane, a.toNat, 1, true, false, true⟩, some ⟨.lane, b.toNat, 1, true, false, true⟩, 2, 1, false⟩ := rfl
@[simp] theorem wordInfo_fhBmin (sp : Spar) (d a b) : wordInfo sp (.fhBmin d a b) =
    ⟨false, some ⟨.lane, d.toNat, 1, false, true, true⟩, some ⟨.lane, a.toNat, 1, true, false, true⟩, some ⟨.lane, b.toNat, 1, true, false, true⟩, 2, 1, false⟩ := rfl
@[simp] theorem wordInfo_fhBmax (sp : Spar) (d a b) : wordInfo sp (.fhBmax d a b) =
    ⟨false, some ⟨.lane, d.toNat, 1, false, true, true⟩, some ⟨.lane, a.toNat, 1, true, false, true⟩, some ⟨.lane, b.toNat, 1, true, false, true⟩, 2, 1, false⟩ := rfl
@[simp] theorem wordInfo_fcF32i (sp : Spar) (d a) : wordInfo sp (.fcF32i d a) =
    ⟨false, some ⟨.lane, d.toNat, 1, false, true, true⟩, some ⟨.lane, a.toNat, 1, true, false, true⟩, none, 2, 1, false⟩ := rfl
@[simp] theorem wordInfo_fcF32n (sp : Spar) (d a) : wordInfo sp (.fcF32n d a) =
    ⟨false, some ⟨.lane, d.toNat, 1, false, true, true⟩, some ⟨.lane, a.toNat, 1, true, false, true⟩, none, 2, 1, false⟩ := rfl
@[simp] theorem wordInfo_fcIf32 (sp : Spar) (d a) : wordInfo sp (.fcIf32 d a) =
    ⟨false, some ⟨.lane, d.toNat, 1, false, true, true⟩, some ⟨.lane, a.toNat, 1, true, false, true⟩, none, 2, 1, false⟩ := rfl
@[simp] theorem wordInfo_fcNf32 (sp : Spar) (d a) : wordInfo sp (.fcNf32 d a) =
    ⟨false, some ⟨.lane, d.toNat, 1, false, true, true⟩, some ⟨.lane, a.toNat, 1, true, false, true⟩, none, 2, 1, false⟩ := rfl
@[simp] theorem wordInfo_fcH16f32 (sp : Spar) (d a x2) : wordInfo sp (.fcH16f32 d a x2) =
    ⟨false, some ⟨.lane, d.toNat, 1, false, true, true⟩, some ⟨.lane, a.toNat, 1, true, false, true⟩, none, 2, 1, false⟩ := rfl
@[simp] theorem wordInfo_fcF32h16 (sp : Spar) (d a x2) : wordInfo sp (.fcF32h16 d a x2) =
    ⟨false, some ⟨.lane, d.toNat, 1, true, true, true⟩, some ⟨.lane, a.toNat, 1, true, false, true⟩, none, 2, 1, false⟩ := rfl
@[simp] theorem wordInfo_fcBf16f32 (sp : Spar) (d a x2) : wordInfo sp (.fcBf16f32 d a x2) =
    ⟨false, some ⟨.lane, d.toNat, 1, false, true, true⟩, some ⟨.lane, a.toNat, 1, true, false, true⟩, none, 2, 1, false⟩ := rfl
@[simp] theorem wordInfo_fcF32bf16 (sp : Spar) (d a x2) : wordInfo sp (.fcF32bf16 d a x2) =
    ⟨false, some ⟨.lane, d.toNat, 1, true, true, true⟩, some ⟨.lane, a.toNat, 1, true, false, true⟩, none, 2, 1, false⟩ := rfl
@[simp] theorem wordInfo_fcLt8f32 (sp : Spar) (d a x2) : wordInfo sp (.fcLt8f32 d a x2) =
    ⟨false, some ⟨.lane, d.toNat, 1, false, true, true⟩, some ⟨.lane, a.toNat, 1, true, false, true⟩, none, 2, 1, false⟩ := rfl
@[simp] theorem wordInfo_fcF32lt8 (sp : Spar) (d a x2) : wordInfo sp (.fcF32lt8 d a x2) =
    ⟨false, some ⟨.lane, d.toNat, 1, true, true, true⟩, some ⟨.lane, a.toNat, 1, true, false, true⟩, none, 2, 1, false⟩ := rfl
@[simp] theorem wordInfo_fxRcp (sp : Spar) (d a) : wordInfo sp (.fxRcp d a) =
    ⟨false, some ⟨.lane, d.toNat, 1, false, true, true⟩, some ⟨.lane, a.toNat, 1, true, false, true⟩, none, 2, 1, false⟩ := rfl
@[simp] theorem wordInfo_fxRsqrt (sp : Spar) (d a) : wordInfo sp (.fxRsqrt d a) =
    ⟨false, some ⟨.lane, d.toNat, 1, false, true, true⟩, some ⟨.lane, a.toNat, 1, true, false, true⟩, none, 2, 1, false⟩ := rfl
@[simp] theorem wordInfo_fxSqrt (sp : Spar) (d a) : wordInfo sp (.fxSqrt d a) =
    ⟨false, some ⟨.lane, d.toNat, 1, false, true, true⟩, some ⟨.lane, a.toNat, 1, true, false, true⟩, none, 2, 1, false⟩ := rfl
@[simp] theorem wordInfo_fxExp2 (sp : Spar) (d a) : wordInfo sp (.fxExp2 d a) =
    ⟨false, some ⟨.lane, d.toNat, 1, false, true, true⟩, some ⟨.lane, a.toNat, 1, true, false, true⟩, none, 2, 1, false⟩ := rfl
@[simp] theorem wordInfo_fxLog2 (sp : Spar) (d a) : wordInfo sp (.fxLog2 d a) =
    ⟨false, some ⟨.lane, d.toNat, 1, false, true, true⟩, some ⟨.lane, a.toNat, 1, true, false, true⟩, none, 2, 1, false⟩ := rfl
@[simp] theorem wordInfo_fxSinpi (sp : Spar) (d a) : wordInfo sp (.fxSinpi d a) =
    ⟨false, some ⟨.lane, d.toNat, 1, false, true, true⟩, some ⟨.lane, a.toNat, 1, true, false, true⟩, none, 2, 1, false⟩ := rfl
@[simp] theorem wordInfo_fxCospi (sp : Spar) (d a) : wordInfo sp (.fxCospi d a) =
    ⟨false, some ⟨.lane, d.toNat, 1, false, true, true⟩, some ⟨.lane, a.toNat, 1, true, false, true⟩, none, 2, 1, false⟩ := rfl
@[simp] theorem wordInfo_fxTanh (sp : Spar) (d a) : wordInfo sp (.fxTanh d a) =
    ⟨false, some ⟨.lane, d.toNat, 1, false, true, true⟩, some ⟨.lane, a.toNat, 1, true, false, true⟩, none, 2, 1, false⟩ := rfl
@[simp] theorem wordInfo_fxCeil (sp : Spar) (d a) : wordInfo sp (.fxCeil d a) =
    ⟨false, some ⟨.lane, d.toNat, 1, false, true, true⟩, some ⟨.lane, a.toNat, 1, true, false, true⟩, none, 2, 1, false⟩ := rfl
@[simp] theorem wordInfo_fxFloor (sp : Spar) (d a) : wordInfo sp (.fxFloor d a) =
    ⟨false, some ⟨.lane, d.toNat, 1, false, true, true⟩, some ⟨.lane, a.toNat, 1, true, false, true⟩, none, 2, 1, false⟩ := rfl
@[simp] theorem wordInfo_fxXexp (sp : Spar) (d a) : wordInfo sp (.fxXexp d a) =
    ⟨false, some ⟨.lane, d.toNat, 1, false, true, true⟩, some ⟨.lane, a.toNat, 1, true, false, true⟩, none, 2, 1, false⟩ := rfl
@[simp] theorem wordInfo_fxLdexp (sp : Spar) (d a b) : wordInfo sp (.fxLdexp d a b) =
    ⟨false, some ⟨.lane, d.toNat, 1, false, true, true⟩, some ⟨.lane, a.toNat, 1, true, false, true⟩, some ⟨.lane, b.toNat, 1, true, false, true⟩, 2, 1, false⟩ := rfl
@[simp] theorem wordInfo_xlShfl (sp : Spar) (d a b) : wordInfo sp (.xlShfl d a b) =
    ⟨false, some ⟨.lane, d.toNat, 1, false, true, true⟩, some ⟨.lane, a.toNat, 1, true, false, true⟩, some ⟨.lane, b.toNat, 1, true, false, true⟩, 0, 1, false⟩ := rfl
@[simp] theorem wordInfo_xlShflx (sp : Spar) (d a b) : wordInfo sp (.xlShflx d a b) =
    ⟨false, some ⟨.lane, d.toNat, 1, false, true, true⟩, some ⟨.lane, a.toNat, 1, true, false, true⟩, some ⟨.lane, b.toNat, 1, true, false, true⟩, 0, 1, false⟩ := rfl
@[simp] theorem wordInfo_xlAny (sp : Spar) (d a) : wordInfo sp (.xlAny d a) =
    ⟨false, some ⟨.lane, d.toNat, 1, false, true, true⟩, some ⟨.lane, a.toNat, 1, true, false, true⟩, none, 0, 1, false⟩ := rfl
@[simp] theorem wordInfo_xlAll (sp : Spar) (d a) : wordInfo sp (.xlAll d a) =
    ⟨false, some ⟨.lane, d.toNat, 1, false, true, true⟩, some ⟨.lane, a.toNat, 1, true, false, true⟩, none, 0, 1, false⟩ := rfl
@[simp] theorem wordInfo_xlBallotl (sp : Spar) (d a) : wordInfo sp (.xlBallotl d a) =
    ⟨false, some ⟨.lane, d.toNat, 1, false, true, true⟩, some ⟨.lane, a.toNat, 1, true, false, true⟩, none, 0, 1, false⟩ := rfl
@[simp] theorem wordInfo_xlBallh (sp : Spar) (d a) : wordInfo sp (.xlBallh d a) =
    ⟨false, some ⟨.lane, d.toNat, 1, false, true, true⟩, some ⟨.lane, a.toNat, 1, true, false, true⟩, none, 0, 1, false⟩ := rfl
@[simp] theorem wordInfo_xlScan (sp : Spar) (d a) : wordInfo sp (.xlScan d a) =
    ⟨false, some ⟨.lane, d.toNat, 1, false, true, true⟩, some ⟨.lane, a.toNat, 1, true, false, true⟩, none, 0, 1, false⟩ := rfl
@[simp] theorem wordInfo_xlRed (sp : Spar) (d a) : wordInfo sp (.xlRed d a) =
    ⟨false, some ⟨.lane, d.toNat, 1, false, true, true⟩, some ⟨.lane, a.toNat, 1, true, false, true⟩, none, 0, 1, false⟩ := rfl
@[simp] theorem wordInfo_xlRedmax (sp : Spar) (d a) : wordInfo sp (.xlRedmax d a) =
    ⟨false, some ⟨.lane, d.toNat, 1, false, true, true⟩, some ⟨.lane, a.toNat, 1, true, false, true⟩, none, 0, 1, false⟩ := rfl
@[simp] theorem wordInfo_xlFred (sp : Spar) (d a) : wordInfo sp (.xlFred d a) =
    ⟨false, some ⟨.lane, d.toNat, 1, false, true, true⟩, some ⟨.lane, a.toNat, 1, true, false, true⟩, none, 2, 1, false⟩ := rfl
@[simp] theorem wordInfo_xlFredmax (sp : Spar) (d a) : wordInfo sp (.xlFredmax d a) =
    ⟨false, some ⟨.lane, d.toNat, 1, false, true, true⟩, some ⟨.lane, a.toNat, 1, true, false, true⟩, none, 0, 1, false⟩ := rfl
@[simp] theorem wordInfo_xlMatch (sp : Spar) (d a) : wordInfo sp (.xlMatch d a) =
    ⟨false, some ⟨.lane, d.toNat, 1, false, true, true⟩, some ⟨.lane, a.toNat, 1, true, false, true⟩, none, 0, 1, false⟩ := rfl
@[simp] theorem wordInfo_xlPopc (sp : Spar) (d a) : wordInfo sp (.xlPopc d a) =
    ⟨false, some ⟨.lane, d.toNat, 1, false, true, true⟩, some ⟨.lane, a.toNat, 1, true, false, true⟩, none, 0, 1, false⟩ := rfl
@[simp] theorem wordInfo_brz (sp : Spar) (a x1) : wordInfo sp (.brz a x1) =
    ⟨false, none, some ⟨.lane, a.toNat, 1, true, false, true⟩, none, 0, 1, false⟩ := rfl
@[simp] theorem wordInfo_brnz (sp : Spar) (a x1) : wordInfo sp (.brnz a x1) =
    ⟨false, none, some ⟨.lane, a.toNat, 1, true, false, true⟩, none, 0, 1, false⟩ := rfl
@[simp] theorem wordInfo_jmp (sp : Spar) (x0) : wordInfo sp (.jmp x0) =
    ⟨false, none, if sp.ax = 0 then none else some ⟨.lane, 0, 1, false, true, true⟩, none, 0, 1, false⟩ := rfl
@[simp] theorem wordInfo_jmpLink (sp : Spar) (a x1) : wordInfo sp (.jmpLink a x1) =
    ⟨false, none, some ⟨.lane, a.toNat, 1, false, true, true⟩, none, 0, 1, false⟩ := rfl
@[simp] theorem wordInfo_ctlJr (sp : Spar) (a) : wordInfo sp (.ctlJr a) =
    ⟨false, none, some ⟨.lane, a.toNat, 1, true, false, true⟩, none, 0, 1, false⟩ := rfl
@[simp] theorem wordInfo_ctlExit (sp : Spar) : wordInfo sp (.ctlExit) =
    ⟨false, none, none, none, 0, 1, false⟩ := rfl
@[simp] theorem wordInfo_ldN8 (sp : Spar) (d a x2) : wordInfo sp (.ldN8 d a x2) =
    ⟨false, some ⟨.lane, d.toNat, 1, false, true, true⟩, some ⟨.lane, a.toNat, 2, true, false, true⟩, none, 1, 3, false⟩ := rfl
@[simp] theorem wordInfo_ldI8 (sp : Spar) (d a x2) : wordInfo sp (.ldI8 d a x2) =
    ⟨false, some ⟨.lane, d.toNat, 1, false, true, true⟩, some ⟨.lane, a.toNat, 2, true, false, true⟩, none, 1, 3, false⟩ := rfl
@[simp] theorem wordInfo_ldN16 (sp : Spar) (d a x2) : wordInfo sp (.ldN16 d a x2) =
    ⟨false, some ⟨.lane, d.toNat, 1, false, true, true⟩, some ⟨.lane, a.toNat, 2, true, false, true⟩, none, 1, 3, false⟩ := rfl
@[simp] theorem wordInfo_ldI16 (sp : Spar) (d a x2) : wordInfo sp (.ldI16 d a x2) =
    ⟨false, some ⟨.lane, d.toNat, 1, false, true, true⟩, some ⟨.lane, a.toNat, 2, true, false, true⟩, none, 1, 3, false⟩ := rfl
@[simp] theorem wordInfo_ldB32 (sp : Spar) (d a x2) : wordInfo sp (.ldB32 d a x2) =
    ⟨false, some ⟨.lane, d.toNat, 1, false, true, true⟩, some ⟨.lane, a.toNat, 2, true, false, true⟩, none, 1, 3, false⟩ := rfl
@[simp] theorem wordInfo_ldB64 (sp : Spar) (d a x2) : wordInfo sp (.ldB64 d a x2) =
    ⟨false, some ⟨.lane, d.toNat, 2, false, true, true⟩, some ⟨.lane, a.toNat, 2, true, false, true⟩, none, 1, 3, false⟩ := rfl
@[simp] theorem wordInfo_ldB128 (sp : Spar) (d a x2) : wordInfo sp (.ldB128 d a x2) =
    ⟨false, some ⟨.lane, d.toNat, 4, false, true, true⟩, some ⟨.lane, a.toNat, 2, true, false, true⟩, none, 1, 3, false⟩ := rfl
@[simp] theorem wordInfo_stB8 (sp : Spar) (d a x2) : wordInfo sp (.stB8 d a x2) =
    ⟨false, some ⟨.lane, d.toNat, 1, true, false, true⟩, some ⟨.lane, a.toNat, 2, true, false, true⟩, none, 1, 5, false⟩ := rfl
@[simp] theorem wordInfo_stB16 (sp : Spar) (d a x2) : wordInfo sp (.stB16 d a x2) =
    ⟨false, some ⟨.lane, d.toNat, 1, true, false, true⟩, some ⟨.lane, a.toNat, 2, true, false, true⟩, none, 1, 5, false⟩ := rfl
@[simp] theorem wordInfo_stB32 (sp : Spar) (d a x2) : wordInfo sp (.stB32 d a x2) =
    ⟨false, some ⟨.lane, d.toNat, 1, true, false, true⟩, some ⟨.lane, a.toNat, 2, true, false, true⟩, none, 1, 5, false⟩ := rfl
@[simp] theorem wordInfo_stB64 (sp : Spar) (d a x2) : wordInfo sp (.stB64 d a x2) =
    ⟨false, some ⟨.lane, d.toNat, 2, true, false, true⟩, some ⟨.lane, a.toNat, 2, true, false, true⟩, none, 1, 5, false⟩ := rfl
@[simp] theorem wordInfo_stB128 (sp : Spar) (d a x2) : wordInfo sp (.stB128 d a x2) =
    ⟨false, some ⟨.lane, d.toNat, 4, true, false, true⟩, some ⟨.lane, a.toNat, 2, true, false, true⟩, none, 1, 5, false⟩ := rfl
@[simp] theorem wordInfo_atAdd (sp : Spar) (d a b) : wordInfo sp (.atAdd d a b) =
    ⟨false, some ⟨.lane, d.toNat, 1, false, true, true⟩, some ⟨.lane, a.toNat, 2, true, false, true⟩, some ⟨.lane, b.toNat, 1, true, false, true⟩, 1, 15, false⟩ := rfl
@[simp] theorem wordInfo_atMin (sp : Spar) (d a b) : wordInfo sp (.atMin d a b) =
    ⟨false, some ⟨.lane, d.toNat, 1, false, true, true⟩, some ⟨.lane, a.toNat, 2, true, false, true⟩, some ⟨.lane, b.toNat, 1, true, false, true⟩, 1, 15, false⟩ := rfl
@[simp] theorem wordInfo_atMax (sp : Spar) (d a b) : wordInfo sp (.atMax d a b) =
    ⟨false, some ⟨.lane, d.toNat, 1, false, true, true⟩, some ⟨.lane, a.toNat, 2, true, false, true⟩, some ⟨.lane, b.toNat, 1, true, false, true⟩, 1, 15, false⟩ := rfl
@[simp] theorem wordInfo_atMinn (sp : Spar) (d a b) : wordInfo sp (.atMinn d a b) =
    ⟨false, some ⟨.lane, d.toNat, 1, false, true, true⟩, some ⟨.lane, a.toNat, 2, true, false, true⟩, some ⟨.lane, b.toNat, 1, true, false, true⟩, 1, 15, false⟩ := rfl
@[simp] theorem wordInfo_atMaxn (sp : Spar) (d a b) : wordInfo sp (.atMaxn d a b) =
    ⟨false, some ⟨.lane, d.toNat, 1, false, true, true⟩, some ⟨.lane, a.toNat, 2, true, false, true⟩, some ⟨.lane, b.toNat, 1, true, false, true⟩, 1, 15, false⟩ := rfl
@[simp] theorem wordInfo_atAnd (sp : Spar) (d a b) : wordInfo sp (.atAnd d a b) =
    ⟨false, some ⟨.lane, d.toNat, 1, false, true, true⟩, some ⟨.lane, a.toNat, 2, true, false, true⟩, some ⟨.lane, b.toNat, 1, true, false, true⟩, 1, 15, false⟩ := rfl
@[simp] theorem wordInfo_atOr (sp : Spar) (d a b) : wordInfo sp (.atOr d a b) =
    ⟨false, some ⟨.lane, d.toNat, 1, false, true, true⟩, some ⟨.lane, a.toNat, 2, true, false, true⟩, some ⟨.lane, b.toNat, 1, true, false, true⟩, 1, 15, false⟩ := rfl
@[simp] theorem wordInfo_atXor (sp : Spar) (d a b) : wordInfo sp (.atXor d a b) =
    ⟨false, some ⟨.lane, d.toNat, 1, false, true, true⟩, some ⟨.lane, a.toNat, 2, true, false, true⟩, some ⟨.lane, b.toNat, 1, true, false, true⟩, 1, 15, false⟩ := rfl
@[simp] theorem wordInfo_atXchg (sp : Spar) (d a b) : wordInfo sp (.atXchg d a b) =
    ⟨false, some ⟨.lane, d.toNat, 1, false, true, true⟩, some ⟨.lane, a.toNat, 2, true, false, true⟩, some ⟨.lane, b.toNat, 1, true, false, true⟩, 1, 15, false⟩ := rfl
@[simp] theorem wordInfo_atCas (sp : Spar) (d a b) : wordInfo sp (.atCas d a b) =
    ⟨false, some ⟨.lane, d.toNat, 1, true, true, true⟩, some ⟨.lane, a.toNat, 2, true, false, true⟩, some ⟨.lane, b.toNat, 1, true, false, true⟩, 1, 15, false⟩ := rfl
@[simp] theorem wordInfo_atFadd (sp : Spar) (d a b) : wordInfo sp (.atFadd d a b) =
    ⟨false, some ⟨.lane, d.toNat, 1, false, true, true⟩, some ⟨.lane, a.toNat, 2, true, false, true⟩, some ⟨.lane, b.toNat, 1, true, false, true⟩, 1, 15, false⟩ := rfl
@[simp] theorem wordInfo_sel (sp : Spar) (d a b) : wordInfo sp (.sel d a b) =
    ⟨false, some ⟨.lane, d.toNat, 1, true, true, true⟩, some ⟨.lane, a.toNat, 1, true, false, true⟩, some ⟨.lane, b.toNat, 1, true, false, true⟩, 0, 1, false⟩ := rfl
@[simp] theorem wordInfo_sr (sp : Spar) (d x1) : wordInfo sp (.sr d x1) =
    ⟨false, some ⟨.lane, d.toNat, 1, false, true, true⟩, none, none, 0, 1, false⟩ := rfl
@[simp] theorem wordInfo_ixRd (sp : Spar) (d a b) : wordInfo sp (.ixRd d a b) =
    ⟨false, some ⟨.lane, d.toNat, 1, false, true, true⟩, some ⟨.lane, a.toNat, 1, true, false, true⟩, some ⟨.lane, b.toNat, 1, false, false, true⟩, 0, 1, true⟩ := rfl
@[simp] theorem wordInfo_ixWr (sp : Spar) (d a b) : wordInfo sp (.ixWr d a b) =
    ⟨false, some ⟨.lane, d.toNat, 1, true, false, true⟩, some ⟨.lane, a.toNat, 1, true, false, true⟩, some ⟨.lane, b.toNat, 1, false, false, true⟩, 0, 1, false⟩ := rfl
@[simp] theorem wordInfo_plApply (sp : Spar) (d a b) : wordInfo sp (.plApply d a b) =
    ⟨false, some ⟨.lane, d.toNat, 1, false, true, true⟩, some ⟨.lane, a.toNat, 1, true, false, true⟩, some ⟨.perm, b.toNat, 1, true, false, false⟩, 0, 1, false⟩ := rfl
@[simp] theorem wordInfo_plApplyi (sp : Spar) (d a b) : wordInfo sp (.plApplyi d a b) =
    ⟨false, some ⟨.lane, d.toNat, 1, false, true, true⟩, some ⟨.lane, a.toNat, 1, true, false, true⟩, some ⟨.perm, b.toNat, 1, true, false, false⟩, 0, 1, false⟩ := rfl
@[simp] theorem wordInfo_plIdx (sp : Spar) (d b) : wordInfo sp (.plIdx d b) =
    ⟨false, some ⟨.lane, d.toNat, 1, false, true, true⟩, none, some ⟨.perm, b.toNat, 1, true, false, false⟩, 0, 1, false⟩ := rfl
@[simp] theorem wordInfo_plPos (sp : Spar) (d b) : wordInfo sp (.plPos d b) =
    ⟨false, some ⟨.lane, d.toNat, 1, false, true, true⟩, none, some ⟨.perm, b.toNat, 1, true, false, false⟩, 0, 1, false⟩ := rfl
@[simp] theorem wordInfo_plCyclen (sp : Spar) (d b) : wordInfo sp (.plCyclen d b) =
    ⟨false, some ⟨.lane, d.toNat, 1, false, true, true⟩, none, some ⟨.perm, b.toNat, 1, true, false, false⟩, 0, 1, false⟩ := rfl
@[simp] theorem wordInfo_plCycmin (sp : Spar) (d b) : wordInfo sp (.plCycmin d b) =
    ⟨false, some ⟨.lane, d.toNat, 1, false, true, true⟩, none, some ⟨.perm, b.toNat, 1, true, false, false⟩, 0, 1, false⟩ := rfl
@[simp] theorem wordInfo_mxMma (sp : Spar) (d a b) : wordInfo sp (.mxMma d a b) =
    ⟨false, some ⟨.acc, d.toNat, 1, true, true, false⟩, some ⟨.uniform, a.toNat, 4, true, false, true⟩, some ⟨.uniform, b.toNat, 2, true, false, true⟩, 0, 1, false⟩ := rfl
@[simp] theorem wordInfo_mxMmag (sp : Spar) (d a b) : wordInfo sp (.mxMmag d a b) =
    ⟨false, some ⟨.acc, d.toNat, 1, true, true, false⟩, some ⟨.uniform, a.toNat, 1, true, false, true⟩, some ⟨.uniform, b.toNat, 2, true, false, true⟩, 0, 1, false⟩ := rfl
@[simp] theorem wordInfo_mxMcv (sp : Spar) (d a b) : wordInfo sp (.mxMcv d a b) =
    ⟨false, some ⟨.acc, d.toNat, 1, true, true, false⟩, some ⟨.uniform, a.toNat, 6, true, false, true⟩, some ⟨.uniform, b.toNat, 2, true, false, true⟩, 0, 1, false⟩ := rfl
@[simp] theorem wordInfo_mxZero (sp : Spar) (d) : wordInfo sp (.mxZero d) =
    ⟨false, some ⟨.acc, d.toNat, 1, false, true, false⟩, none, none, 0, 1, false⟩ := rfl
@[simp] theorem wordInfo_mxGet (sp : Spar) (d a b) : wordInfo sp (.mxGet d a b) =
    ⟨false, some ⟨.lane, d.toNat, 1, false, true, true⟩, some ⟨.acc, a.toNat, 1, true, false, false⟩, some ⟨.lane, b.toNat, 1, true, false, true⟩, 0, 1, false⟩ := rfl
@[simp] theorem wordInfo_mxPut (sp : Spar) (d a b) : wordInfo sp (.mxPut d a b) =
    ⟨false, some ⟨.acc, d.toNat, 1, true, true, false⟩, some ⟨.lane, a.toNat, 1, true, false, true⟩, some ⟨.lane, b.toNat, 1, true, false, true⟩, 0, 1, false⟩ := rfl
@[simp] theorem wordInfo_mxSto (sp : Spar) (d a) : wordInfo sp (.mxSto d a) =
    ⟨false, some ⟨.acc, d.toNat, 1, true, false, false⟩, some ⟨.uniform, a.toNat, 3, true, false, true⟩, none, 0, 1, false⟩ := rfl
@[simp] theorem wordInfo_mxRmax (sp : Spar) (d a) : wordInfo sp (.mxRmax d a) =
    ⟨false, some ⟨.lane, d.toNat, 1, false, true, true⟩, some ⟨.acc, a.toNat, 1, true, false, false⟩, none, 0, 1, false⟩ := rfl
@[simp] theorem wordInfo_mxRscale (sp : Spar) (d a) : wordInfo sp (.mxRscale d a) =
    ⟨false, some ⟨.acc, d.toNat, 1, true, true, false⟩, some ⟨.lane, a.toNat, 1, true, false, true⟩, none, 0, 1, false⟩ := rfl
@[simp] theorem wordInfo_sysNop (sp : Spar) : wordInfo sp (.sysNop) =
    ⟨false, none, none, none, 0, 1, false⟩ := rfl
@[simp] theorem wordInfo_sysBrk (sp : Spar) (x0) : wordInfo sp (.sysBrk x0) =
    ⟨false, none, none, none, 0, 1, false⟩ := rfl
@[simp] theorem wordInfo_sysTrap (sp : Spar) (x0) : wordInfo sp (.sysTrap x0) =
    ⟨false, none, none, none, 0, 1, false⟩ := rfl
@[simp] theorem wordInfo_uaAdd (sp : Spar) (d a b) : wordInfo sp (.uaAdd d a b) =
    ⟨true, some ⟨.uniform, d.toNat, 1, false, true, true⟩, some ⟨.uniform, a.toNat, 1, true, false, true⟩, some ⟨.uniform, b.toNat, 1, true, false, true⟩, 0, 1, false⟩ := rfl
@[simp] theorem wordInfo_uaSub (sp : Spar) (d a b) : wordInfo sp (.uaSub d a b) =
    ⟨true, some ⟨.uniform, d.toNat, 1, false, true, true⟩, some ⟨.uniform, a.toNat, 1, true, false, true⟩, some ⟨.uniform, b.toNat, 1, true, false, true⟩, 0, 1, false⟩ := rfl
@[simp] theorem wordInfo_uaMul (sp : Spar) (d a b) : wordInfo sp (.uaMul d a b) =
    ⟨true, some ⟨.uniform, d.toNat, 1, false, true, true⟩, some ⟨.uniform, a.toNat, 1, true, false, true⟩, some ⟨.uniform, b.toNat, 1, true, false, true⟩, 0, 1, false⟩ := rfl
@[simp] theorem wordInfo_uaAnd (sp : Spar) (d a b) : wordInfo sp (.uaAnd d a b) =
    ⟨true, some ⟨.uniform, d.toNat, 1, false, true, true⟩, some ⟨.uniform, a.toNat, 1, true, false, true⟩, some ⟨.uniform, b.toNat, 1, true, false, true⟩, 0, 1, false⟩ := rfl
@[simp] theorem wordInfo_uaOr (sp : Spar) (d a b) : wordInfo sp (.uaOr d a b) =
    ⟨true, some ⟨.uniform, d.toNat, 1, false, true, true⟩, some ⟨.uniform, a.toNat, 1, true, false, true⟩, some ⟨.uniform, b.toNat, 1, true, false, true⟩, 0, 1, false⟩ := rfl
@[simp] theorem wordInfo_uaXor (sp : Spar) (d a b) : wordInfo sp (.uaXor d a b) =
    ⟨true, some ⟨.uniform, d.toNat, 1, false, true, true⟩, some ⟨.uniform, a.toNat, 1, true, false, true⟩, some ⟨.uniform, b.toNat, 1, true, false, true⟩, 0, 1, false⟩ := rfl
@[simp] theorem wordInfo_uaShl (sp : Spar) (d a b) : wordInfo sp (.uaShl d a b) =
    ⟨true, some ⟨.uniform, d.toNat, 1, false, true, true⟩, some ⟨.uniform, a.toNat, 1, true, false, true⟩, some ⟨.uniform, b.toNat, 1, true, false, true⟩, 0, 1, false⟩ := rfl
@[simp] theorem wordInfo_uaShr (sp : Spar) (d a b) : wordInfo sp (.uaShr d a b) =
    ⟨true, some ⟨.uniform, d.toNat, 1, false, true, true⟩, some ⟨.uniform, a.toNat, 1, true, false, true⟩, some ⟨.uniform, b.toNat, 1, true, false, true⟩, 0, 1, false⟩ := rfl
@[simp] theorem wordInfo_uaMin (sp : Spar) (d a b) : wordInfo sp (.uaMin d a b) =
    ⟨true, some ⟨.uniform, d.toNat, 1, false, true, true⟩, some ⟨.uniform, a.toNat, 1, true, false, true⟩, some ⟨.uniform, b.toNat, 1, true, false, true⟩, 0, 1, false⟩ := rfl
@[simp] theorem wordInfo_uaMax (sp : Spar) (d a b) : wordInfo sp (.uaMax d a b) =
    ⟨true, some ⟨.uniform, d.toNat, 1, false, true, true⟩, some ⟨.uniform, a.toNat, 1, true, false, true⟩, some ⟨.uniform, b.toNat, 1, true, false, true⟩, 0, 1, false⟩ := rfl
@[simp] theorem wordInfo_uaMinn (sp : Spar) (d a b) : wordInfo sp (.uaMinn d a b) =
    ⟨true, some ⟨.uniform, d.toNat, 1, false, true, true⟩, some ⟨.uniform, a.toNat, 1, true, false, true⟩, some ⟨.uniform, b.toNat, 1, true, false, true⟩, 0, 1, false⟩ := rfl
@[simp] theorem wordInfo_uaMaxn (sp : Spar) (d a b) : wordInfo sp (.uaMaxn d a b) =
    ⟨true, some ⟨.uniform, d.toNat, 1, false, true, true⟩, some ⟨.uniform, a.toNat, 1, true, false, true⟩, some ⟨.uniform, b.toNat, 1, true, false, true⟩, 0, 1, false⟩ := rfl
@[simp] theorem wordInfo_ucEq (sp : Spar) (d a b) : wordInfo sp (.ucEq d a b) =
    ⟨true, some ⟨.uniform, d.toNat, 1, false, true, true⟩, some ⟨.uniform, a.toNat, 1, true, false, true⟩, some ⟨.uniform, b.toNat, 1, true, false, true⟩, 0, 1, false⟩ := rfl
@[simp] theorem wordInfo_ucNe (sp : Spar) (d a b) : wordInfo sp (.ucNe d a b) =
    ⟨true, some ⟨.uniform, d.toNat, 1, false, true, true⟩, some ⟨.uniform, a.toNat, 1, true, false, true⟩, some ⟨.uniform, b.toNat, 1, true, false, true⟩, 0, 1, false⟩ := rfl
@[simp] theorem wordInfo_ucLt (sp : Spar) (d a b) : wordInfo sp (.ucLt d a b) =
    ⟨true, some ⟨.uniform, d.toNat, 1, false, true, true⟩, some ⟨.uniform, a.toNat, 1, true, false, true⟩, some ⟨.uniform, b.toNat, 1, true, false, true⟩, 0, 1, false⟩ := rfl
@[simp] theorem wordInfo_ucLtn (sp : Spar) (d a b) : wordInfo sp (.ucLtn d a b) =
    ⟨true, some ⟨.uniform, d.toNat, 1, false, true, true⟩, some ⟨.uniform, a.toNat, 1, true, false, true⟩, some ⟨.uniform, b.toNat, 1, true, false, true⟩, 0, 1, false⟩ := rfl
@[simp] theorem wordInfo_uai (sp : Spar) (d a x2) : wordInfo sp (.uai d a x2) =
    ⟨true, some ⟨.uniform, d.toNat, 1, false, true, true⟩, some ⟨.uniform, a.toNat, 1, true, false, true⟩, none, 0, 1, false⟩ := rfl
@[simp] theorem wordInfo_ulim (sp : Spar) (d x1) : wordInfo sp (.ulim d x1) =
    ⟨true, some ⟨.uniform, d.toNat, 1, false, true, true⟩, none, none, 0, 1, false⟩ := rfl
@[simp] theorem wordInfo_ulih (sp : Spar) (d x1) : wordInfo sp (.ulih d x1) =
    ⟨true, some ⟨.uniform, d.toNat, 1, true, true, true⟩, none, none, 0, 1, false⟩ := rfl
@[simp] theorem wordInfo_ubrz (sp : Spar) (a x1) : wordInfo sp (.ubrz a x1) =
    ⟨true, none, some ⟨.uniform, a.toNat, 1, true, false, true⟩, none, 0, 1, false⟩ := rfl
@[simp] theorem wordInfo_ubrnz (sp : Spar) (a x1) : wordInfo sp (.ubrnz a x1) =
    ⟨true, none, some ⟨.uniform, a.toNat, 1, true, false, true⟩, none, 0, 1, false⟩ := rfl
@[simp] theorem wordInfo_syncBar (sp : Spar) (x0) : wordInfo sp (.syncBar x0) =
    ⟨true, none, none, none, 0, 1, false⟩ := rfl
@[simp] theorem wordInfo_syncArr (sp : Spar) (x0) : wordInfo sp (.syncArr x0) =
    ⟨true, none, none, none, 0, 1, false⟩ := rfl
@[simp] theorem wordInfo_syncWt (sp : Spar) (x0) : wordInfo sp (.syncWt x0) =
    ⟨true, none, none, none, 0, 1, false⟩ := rfl
@[simp] theorem wordInfo_syncOc (sp : Spar) (x0 x1) : wordInfo sp (.syncOc x0 x1) =
    ⟨true, none, none, none, 0, 1, false⟩ := rfl
@[simp] theorem wordInfo_syncFence (sp : Spar) (x0 x1) : wordInfo sp (.syncFence x0 x1) =
    ⟨true, none, none, none, 0, 1, false⟩ := rfl
@[simp] theorem wordInfo_syncMwait (sp : Spar) (a b) : wordInfo sp (.syncMwait a b) =
    ⟨true, none, some ⟨.uniform, a.toNat, 2, true, false, true⟩, some ⟨.uniform, b.toNat, 1, true, false, true⟩, 0, 1, false⟩ := rfl
@[simp] theorem wordInfo_syncTrig (sp : Spar) : wordInfo sp (.syncTrig) =
    ⟨true, none, none, none, 0, 1, false⟩ := rfl
@[simp] theorem wordInfo_syncDwait (sp : Spar) : wordInfo sp (.syncDwait) =
    ⟨true, none, none, none, 0, 1, false⟩ := rfl
@[simp] theorem wordInfo_engCopy (sp : Spar) (x0 a) : wordInfo sp (.engCopy x0 a) =
    ⟨true, none, some ⟨.uniform, a.toNat, 1, true, false, true⟩, none, 0, 1, false⟩ := rfl
@[simp] theorem wordInfo_engQuant (sp : Spar) (a) : wordInfo sp (.engQuant a) =
    ⟨true, none, some ⟨.uniform, a.toNat, 1, true, false, true⟩, none, 0, 1, false⟩ := rfl
@[simp] theorem wordInfo_engPut (sp : Spar) (a) : wordInfo sp (.engPut a) =
    ⟨true, none, some ⟨.uniform, a.toNat, 1, true, false, true⟩, none, 0, 1, false⟩ := rfl
@[simp] theorem wordInfo_engGet (sp : Spar) (a) : wordInfo sp (.engGet a) =
    ⟨true, none, some ⟨.uniform, a.toNat, 1, true, false, true⟩, none, 0, 1, false⟩ := rfl
@[simp] theorem wordInfo_pmLoad (sp : Spar) (d a) : wordInfo sp (.pmLoad d a) =
    ⟨true, some ⟨.perm, d.toNat, 1, false, true, false⟩, some ⟨.lane, a.toNat, 1, true, false, true⟩, none, 0, 1, false⟩ := rfl
@[simp] theorem wordInfo_pmIdent (sp : Spar) (d x1) : wordInfo sp (.pmIdent d x1) =
    ⟨true, some ⟨.perm, d.toNat, 1, false, true, false⟩, none, none, 0, 1, false⟩ := rfl
@[simp] theorem wordInfo_pmComp (sp : Spar) (d a b) : wordInfo sp (.pmComp d a b) =
    ⟨true, some ⟨.perm, d.toNat, 1, false, true, false⟩, some ⟨.perm, a.toNat, 1, true, false, false⟩, some ⟨.perm, b.toNat, 1, true, false, false⟩, 0, 1, false⟩ := rfl
@[simp] theorem wordInfo_pmInv (sp : Spar) (d a) : wordInfo sp (.pmInv d a) =
    ⟨true, some ⟨.perm, d.toNat, 1, false, true, false⟩, some ⟨.perm, a.toNat, 1, true, false, false⟩, none, 0, 1, false⟩ := rfl
@[simp] theorem wordInfo_pmRand (sp : Spar) (d a x2) : wordInfo sp (.pmRand d a x2) =
    ⟨true, some ⟨.perm, d.toNat, 1, false, true, false⟩, some ⟨.uniform, a.toNat, 2, true, true, true⟩, none, 0, 1, false⟩ := rfl
@[simp] theorem wordInfo_pmCyc (sp : Spar) (d a) : wordInfo sp (.pmCyc d a) =
    ⟨true, some ⟨.uniform, d.toNat, 1, false, true, true⟩, some ⟨.perm, a.toNat, 1, true, false, false⟩, none, 0, 1, false⟩ := rfl
@[simp] theorem wordInfo_pmSave (sp : Spar) (d a) : wordInfo sp (.pmSave d a) =
    ⟨true, some ⟨.uniform, d.toNat, 1, true, false, true⟩, some ⟨.perm, a.toNat, 1, true, false, false⟩, none, 0, 1, false⟩ := rfl
@[simp] theorem wordInfo_pmRest (sp : Spar) (d a) : wordInfo sp (.pmRest d a) =
    ⟨true, some ⟨.perm, d.toNat, 1, false, true, false⟩, some ⟨.uniform, a.toNat, 1, true, false, true⟩, none, 0, 1, false⟩ := rfl
@[simp] theorem wordInfo_obRsv (sp : Spar) (d a) : wordInfo sp (.obRsv d a) =
    ⟨true, some ⟨.uniform, d.toNat, 1, false, true, true⟩, some ⟨.uniform, a.toNat, 2, true, false, true⟩, none, 0, 1, false⟩ := rfl
@[simp] theorem wordInfo_obRel (sp : Spar) (a) : wordInfo sp (.obRel a) =
    ⟨true, none, some ⟨.uniform, a.toNat, 1, true, false, true⟩, none, 0, 1, false⟩ := rfl
@[simp] theorem wordInfo_obRec (sp : Spar) (a) : wordInfo sp (.obRec a) =
    ⟨true, none, some ⟨.uniform, a.toNat, 2, true, false, true⟩, none, 0, 1, false⟩ := rfl
@[simp] theorem wordInfo_modeRd (sp : Spar) (d) : wordInfo sp (.modeRd d) =
    ⟨true, some ⟨.uniform, d.toNat, 1, false, true, true⟩, none, none, 0, 1, false⟩ := rfl
@[simp] theorem wordInfo_modeWr (sp : Spar) (a) : wordInfo sp (.modeWr a) =
    ⟨true, none, some ⟨.uniform, a.toNat, 1, true, false, true⟩, none, 0, 1, false⟩ := rfl
@[simp] theorem wordInfo_gateCall (sp : Spar) (a) : wordInfo sp (.gateCall a) =
    ⟨true, none, some ⟨.uniform, a.toNat, 1, true, false, true⟩, none, 0, 1, false⟩ := rfl
@[simp] theorem wordInfo_gateRet (sp : Spar) : wordInfo sp (.gateRet) =
    ⟨true, none, none, none, 0, 1, false⟩ := rfl
@[simp] theorem wordInfo_ctrRd (sp : Spar) (d x1) : wordInfo sp (.ctrRd d x1) =
    ⟨true, some ⟨.uniform, d.toNat, 1, false, true, true⟩, none, none, 0, 1, false⟩ := rfl
@[simp] theorem wordInfo_ctrMark (sp : Spar) (a) : wordInfo sp (.ctrMark a) =
    ⟨true, none, some ⟨.uniform, a.toNat, 1, true, false, true⟩, none, 0, 1, false⟩ := rfl
@[simp] theorem wordInfo_uldB32 (sp : Spar) (d a x2) : wordInfo sp (.uldB32 d a x2) =
    ⟨true, some ⟨.uniform, d.toNat, 1, false, true, true⟩, some ⟨.uniform, a.toNat, 2, true, false, true⟩, none, 1, 3, false⟩ := rfl
@[simp] theorem wordInfo_uldB64 (sp : Spar) (d a x2) : wordInfo sp (.uldB64 d a x2) =
    ⟨true, some ⟨.uniform, d.toNat, 2, false, true, true⟩, some ⟨.uniform, a.toNat, 2, true, false, true⟩, none, 1, 3, false⟩ := rfl
@[simp] theorem wordInfo_ustB32 (sp : Spar) (d a x2) : wordInfo sp (.ustB32 d a x2) =
    ⟨true, some ⟨.uniform, d.toNat, 1, true, false, true⟩, some ⟨.uniform, a.toNat, 2, true, false, true⟩, none, 1, 5, false⟩ := rfl

/-- The names written by a word whose field d alone is written, and is one name. -/
theorem outsOf_dst {sp : Spar} {i : Instr} {w : WordInfo} {c : NClass} {n : Nat} {rd ext : Bool} (h : wordInfo sp i = w)
    (hd : w.d = some ⟨c, n, 1, rd, true, ext⟩) (ha : w.a.all (fun f => !f.wr) = true) (hb : w.b.all (fun f => !f.wr) = true) :
    outsOf sp i = [(c, if ext then 128 * sp.dx + n else n)] := by
  subst h
  have fh : ∀ (f : Option Fld) (x k : Nat), f.all (fun f => !f.wr) = true → (fldHead f x k).filter (·.wr) = [] := by
    intro f x k h
    rcases f with _ | f
    · rfl
    · simp_all [fldHead, Fld.head]
  have fm : ∀ (f : Option Fld) (x k : Nat), f.all (fun f => !f.wr) = true → ∀ o ∈ fldMore f x k, o.wr = false := by
    intro f x k h o ho
    rcases f with _ | f
    · simp [fldMore] at ho
    · simp only [fldMore, Fld.more, List.mem_map] at ho
      obtain ⟨_, -, rfl⟩ := ho
      simpa using h
  have rest : (sortBy (·.num) (fldMore (wordInfo sp i).d sp.dx 1 ++ fldMore (wordInfo sp i).a sp.ax 2 ++ fldMore (wordInfo sp i).b sp.bx 3)).filter
      (·.wr) = [] := by
    rw [List.filter_eq_nil_iff]
    intro o ho
    rw [mem_sortBy] at ho
    simp only [List.mem_append] at ho
    rcases ho with (ho | ho) | ho
    · simp [hd, fldMore, Fld.more] at ho
    · simp [fm _ _ _ ha o ho]
    · simp [fm _ _ _ hb o ho]
  simp only [outsOf, opnds, List.filter_append, rest, fh _ _ _ ha, fh _ _ _ hb]
  rw [hd]
  rfl

/-- The name written by a word whose field d alone is written, with its extension (R121). -/
theorem outsOf_dst_ext {sp : Spar} {i : Instr} {c : NClass} {n : Nat} {rd : Bool}
    (hd : (wordInfo sp i).d = some ⟨c, n, 1, rd, true, true⟩) (ha : (wordInfo sp i).a.all (fun f => !f.wr) = true)
    (hb : (wordInfo sp i).b.all (fun f => !f.wr) = true) : outsOf sp i = [(c, 128 * sp.dx + n)] := by
  rw [outsOf_dst rfl hd ha hb]; rfl

end Sys2Proof.Machine
end

