-- ==== Sys2Proof/Laws/PerInstr.lean ====
section
/-! SUPPORT. A statement about every instruction as syntax (R117: a word is 32 bits), with one lemma for each constructor. -/

namespace Sys2Proof.Laws

open Sys2Proof

/-- A word of Formats R and M fits 32 bits when its fields are within their widths. -/
theorem encR_lt {s op fn d a b : Nat} (hs : s < 2) (ho : op < 64) (hf : fn < 16) (hd : d < 128) (ha : a < 128) (hb : b < 128) :
    encR s op fn d a b < 2 ^ 32 := by unfold encR; omega

/-- A word of Format I fits 32 bits. -/
theorem encI_lt {s op d a imm : Nat} (hs : s < 2) (ho : op < 64) (hd : d < 128) (ha : a < 128) (hi : imm < 2 ^ 11) :
    encI s op d a imm < 2 ^ 32 := by unfold encI; omega

/-- A word of Formats L and J fits 32 bits. -/
theorem encL_lt {s op d imm : Nat} (hs : s < 2) (ho : op < 64) (hd : d < 128) (hi : imm < 2 ^ 18) :
    encL s op d imm < 2 ^ 32 := by unfold encL; omega

/-- A spar fits 32 bits. -/
theorem encSpar_lt {cc dx ax bx ta tb q o : Nat} (h1 : cc < 16) (h2 : dx < 16) (h3 : ax < 16) (h4 : bx < 16) (h5 : ta < 2) (h6 : tb < 2)
    (h7 : q < 8) (h8 : o < 4) : encSpar cc dx ax bx ta tb q o < 2 ^ 32 := by unfold encSpar; omega

/-- The word of an instruction, where it has one, is a word of 32 bits. -/
def Fits.Statement (i : Instr) : Prop := ∀ w, encode i = some w → w < 2 ^ 32

/-- An instruction with a word that fits. -/
theorem fits_word {i : Instr} {v : Nat} (e : encode i = some v) (h : v < 2 ^ 32) : Fits.Statement i :=
  fun _ k => Option.some.inj (e.symm.trans k) ▸ h

/-- An instruction without a word. -/
theorem fits_event {i : Instr} (e : encode i = none) : Fits.Statement i := fun _ k => nomatch e.symm.trans k

theorem Fits.iaAdd (d : BitVec 7) (a : BitVec 7) (b : BitVec 7) : Fits.Statement (.iaAdd d a b) := fits_word rfl (encR_lt (by decide) (by decide) (by decide) (by omega) (by omega) (by omega))
theorem Fits.iaSub (d : BitVec 7) (a : BitVec 7) (b : BitVec 7) : Fits.Statement (.iaSub d a b) := fits_word rfl (encR_lt (by decide) (by decide) (by decide) (by omega) (by omega) (by omega))
theorem Fits.iaMul (d : BitVec 7) (a : BitVec 7) (b : BitVec 7) : Fits.Statement (.iaMul d a b) := fits_word rfl (encR_lt (by decide) (by decide) (by decide) (by omega) (by omega) (by omega))
theorem Fits.iaMulh (d : BitVec 7) (a : BitVec 7) (b : BitVec 7) : Fits.Statement (.iaMulh d a b) := fits_word rfl (encR_lt (by decide) (by decide) (by decide) (by omega) (by omega) (by omega))
theorem Fits.iaMulhn (d : BitVec 7) (a : BitVec 7) (b : BitVec 7) : Fits.Statement (.iaMulhn d a b) := fits_word rfl (encR_lt (by decide) (by decide) (by decide) (by omega) (by omega) (by omega))
theorem Fits.iaMin (d : BitVec 7) (a : BitVec 7) (b : BitVec 7) : Fits.Statement (.iaMin d a b) := fits_word rfl (encR_lt (by decide) (by decide) (by decide) (by omega) (by omega) (by omega))
theorem Fits.iaMax (d : BitVec 7) (a : BitVec 7) (b : BitVec 7) : Fits.Statement (.iaMax d a b) := fits_word rfl (encR_lt (by decide) (by decide) (by decide) (by omega) (by omega) (by omega))
theorem Fits.iaMinn (d : BitVec 7) (a : BitVec 7) (b : BitVec 7) : Fits.Statement (.iaMinn d a b) := fits_word rfl (encR_lt (by decide) (by decide) (by decide) (by omega) (by omega) (by omega))
theorem Fits.iaMaxn (d : BitVec 7) (a : BitVec 7) (b : BitVec 7) : Fits.Statement (.iaMaxn d a b) := fits_word rfl (encR_lt (by decide) (by decide) (by decide) (by omega) (by omega) (by omega))
theorem Fits.iaAnd (d : BitVec 7) (a : BitVec 7) (b : BitVec 7) : Fits.Statement (.iaAnd d a b) := fits_word rfl (encR_lt (by decide) (by decide) (by decide) (by omega) (by omega) (by omega))
theorem Fits.iaOr (d : BitVec 7) (a : BitVec 7) (b : BitVec 7) : Fits.Statement (.iaOr d a b) := fits_word rfl (encR_lt (by decide) (by decide) (by decide) (by omega) (by omega) (by omega))
theorem Fits.iaXor (d : BitVec 7) (a : BitVec 7) (b : BitVec 7) : Fits.Statement (.iaXor d a b) := fits_word rfl (encR_lt (by decide) (by decide) (by decide) (by omega) (by omega) (by omega))
theorem Fits.iaShl (d : BitVec 7) (a : BitVec 7) (b : BitVec 7) : Fits.Statement (.iaShl d a b) := fits_word rfl (encR_lt (by decide) (by decide) (by decide) (by omega) (by omega) (by omega))
theorem Fits.iaShr (d : BitVec 7) (a : BitVec 7) (b : BitVec 7) : Fits.Statement (.iaShr d a b) := fits_word rfl (encR_lt (by decide) (by decide) (by decide) (by omega) (by omega) (by omega))
theorem Fits.iaSar (d : BitVec 7) (a : BitVec 7) (b : BitVec 7) : Fits.Statement (.iaSar d a b) := fits_word rfl (encR_lt (by decide) (by decide) (by decide) (by omega) (by omega) (by omega))
theorem Fits.iaRot (d : BitVec 7) (a : BitVec 7) (b : BitVec 7) : Fits.Statement (.iaRot d a b) := fits_word rfl (encR_lt (by decide) (by decide) (by decide) (by omega) (by omega) (by omega))
theorem Fits.icEq (d : BitVec 7) (a : BitVec 7) (b : BitVec 7) : Fits.Statement (.icEq d a b) := fits_word rfl (encR_lt (by decide) (by decide) (by decide) (by omega) (by omega) (by omega))
theorem Fits.icNe (d : BitVec 7) (a : BitVec 7) (b : BitVec 7) : Fits.Statement (.icNe d a b) := fits_word rfl (encR_lt (by decide) (by decide) (by decide) (by omega) (by omega) (by omega))
theorem Fits.icLt (d : BitVec 7) (a : BitVec 7) (b : BitVec 7) : Fits.Statement (.icLt d a b) := fits_word rfl (encR_lt (by decide) (by decide) (by decide) (by omega) (by omega) (by omega))
theorem Fits.icLe (d : BitVec 7) (a : BitVec 7) (b : BitVec 7) : Fits.Statement (.icLe d a b) := fits_word rfl (encR_lt (by decide) (by decide) (by decide) (by omega) (by omega) (by omega))
theorem Fits.icLtn (d : BitVec 7) (a : BitVec 7) (b : BitVec 7) : Fits.Statement (.icLtn d a b) := fits_word rfl (encR_lt (by decide) (by decide) (by decide) (by omega) (by omega) (by omega))
theorem Fits.icLen (d : BitVec 7) (a : BitVec 7) (b : BitVec 7) : Fits.Statement (.icLen d a b) := fits_word rfl (encR_lt (by decide) (by decide) (by decide) (by omega) (by omega) (by omega))
theorem Fits.iai (d : BitVec 7) (a : BitVec 7) (imm : BitVec 11) : Fits.Statement (.iai d a imm) := fits_word rfl (encI_lt (by decide) (by decide) (by omega) (by omega) (by omega))
theorem Fits.ishShl (d : BitVec 7) (a : BitVec 7) (b : BitVec 7) : Fits.Statement (.ishShl d a b) := fits_word rfl (encR_lt (by decide) (by decide) (by decide) (by omega) (by omega) (by omega))
theorem Fits.ishShr (d : BitVec 7) (a : BitVec 7) (b : BitVec 7) : Fits.Statement (.ishShr d a b) := fits_word rfl (encR_lt (by decide) (by decide) (by decide) (by omega) (by omega) (by omega))
theorem Fits.ishSar (d : BitVec 7) (a : BitVec 7) (b : BitVec 7) : Fits.Statement (.ishSar d a b) := fits_word rfl (encR_lt (by decide) (by decide) (by decide) (by omega) (by omega) (by omega))
theorem Fits.ishRot (d : BitVec 7) (a : BitVec 7) (b : BitVec 7) : Fits.Statement (.ishRot d a b) := fits_word rfl (encR_lt (by decide) (by decide) (by decide) (by omega) (by omega) (by omega))
theorem Fits.lim (d : BitVec 7) (imm : BitVec 18) : Fits.Statement (.lim d imm) := fits_word rfl (encL_lt (by decide) (by decide) (by omega) (by omega))
theorem Fits.lih (d : BitVec 7) (imm : BitVec 18) : Fits.Statement (.lih d imm) := fits_word rfl (encL_lt (by decide) (by decide) (by omega) (by omega))
theorem Fits.faAdd (d : BitVec 7) (a : BitVec 7) (b : BitVec 7) : Fits.Statement (.faAdd d a b) := fits_word rfl (encR_lt (by decide) (by decide) (by decide) (by omega) (by omega) (by omega))
theorem Fits.faSub (d : BitVec 7) (a : BitVec 7) (b : BitVec 7) : Fits.Statement (.faSub d a b) := fits_word rfl (encR_lt (by decide) (by decide) (by decide) (by omega) (by omega) (by omega))
theorem Fits.faMul (d : BitVec 7) (a : BitVec 7) (b : BitVec 7) : Fits.Statement (.faMul d a b) := fits_word rfl (encR_lt (by decide) (by decide) (by decide) (by omega) (by omega) (by omega))
theorem Fits.faFma (d : BitVec 7) (a : BitVec 7) (b : BitVec 7) : Fits.Statement (.faFma d a b) := fits_word rfl (encR_lt (by decide) (by decide) (by decide) (by omega) (by omega) (by omega))
theorem Fits.faFms (d : BitVec 7) (a : BitVec 7) (b : BitVec 7) : Fits.Statement (.faFms d a b) := fits_word rfl (encR_lt (by decide) (by decide) (by decide) (by omega) (by omega) (by omega))
theorem Fits.faMin (d : BitVec 7) (a : BitVec 7) (b : BitVec 7) : Fits.Statement (.faMin d a b) := fits_word rfl (encR_lt (by decide) (by decide) (by decide) (by omega) (by omega) (by omega))
theorem Fits.faMax (d : BitVec 7) (a : BitVec 7) (b : BitVec 7) : Fits.Statement (.faMax d a b) := fits_word rfl (encR_lt (by decide) (by decide) (by decide) (by omega) (by omega) (by omega))
theorem Fits.faAbs (d : BitVec 7) (a : BitVec 7) : Fits.Statement (.faAbs d a) := fits_word rfl (encR_lt (by decide) (by decide) (by decide) (by omega) (by omega) (by decide))
theorem Fits.faNeg (d : BitVec 7) (a : BitVec 7) : Fits.Statement (.faNeg d a) := fits_word rfl (encR_lt (by decide) (by decide) (by decide) (by omega) (by omega) (by decide))
theorem Fits.faEq (d : BitVec 7) (a : BitVec 7) (b : BitVec 7) : Fits.Statement (.faEq d a b) := fits_word rfl (encR_lt (by decide) (by decide) (by decide) (by omega) (by omega) (by omega))
theorem Fits.faLt (d : BitVec 7) (a : BitVec 7) (b : BitVec 7) : Fits.Statement (.faLt d a b) := fits_word rfl (encR_lt (by decide) (by decide) (by decide) (by omega) (by omega) (by omega))
theorem Fits.faLe (d : BitVec 7) (a : BitVec 7) (b : BitVec 7) : Fits.Statement (.faLe d a b) := fits_word rfl (encR_lt (by decide) (by decide) (by decide) (by omega) (by omega) (by omega))
theorem Fits.fhHadd (d : BitVec 7) (a : BitVec 7) (b : BitVec 7) : Fits.Statement (.fhHadd d a b) := fits_word rfl (encR_lt (by decide) (by decide) (by decide) (by omega) (by omega) (by omega))
theorem Fits.fhHmul (d : BitVec 7) (a : BitVec 7) (b : BitVec 7) : Fits.Statement (.fhHmul d a b) := fits_word rfl (encR_lt (by decide) (by decide) (by decide) (by omega) (by omega) (by omega))
theorem Fits.fhHfma (d : BitVec 7) (a : BitVec 7) (b : BitVec 7) : Fits.Statement (.fhHfma d a b) := fits_word rfl (encR_lt (by decide) (by decide) (by decide) (by omega) (by omega) (by omega))
theorem Fits.fhHmin (d : BitVec 7) (a : BitVec 7) (b : BitVec 7) : Fits.Statement (.fhHmin d a b) := fits_word rfl (encR_lt (by decide) (by decide) (by decide) (by omega) (by omega) (by omega))
theorem Fits.fhHmax (d : BitVec 7) (a : BitVec 7) (b : BitVec 7) : Fits.Statement (.fhHmax d a b) := fits_word rfl (encR_lt (by decide) (by decide) (by decide) (by omega) (by omega) (by omega))
theorem Fits.fhBadd (d : BitVec 7) (a : BitVec 7) (b : BitVec 7) : Fits.Statement (.fhBadd d a b) := fits_word rfl (encR_lt (by decide) (by decide) (by decide) (by omega) (by omega) (by omega))
theorem Fits.fhBmul (d : BitVec 7) (a : BitVec 7) (b : BitVec 7) : Fits.Statement (.fhBmul d a b) := fits_word rfl (encR_lt (by decide) (by decide) (by decide) (by omega) (by omega) (by omega))
theorem Fits.fhBfma (d : BitVec 7) (a : BitVec 7) (b : BitVec 7) : Fits.Statement (.fhBfma d a b) := fits_word rfl (encR_lt (by decide) (by decide) (by decide) (by omega) (by omega) (by omega))
theorem Fits.fhBmin (d : BitVec 7) (a : BitVec 7) (b : BitVec 7) : Fits.Statement (.fhBmin d a b) := fits_word rfl (encR_lt (by decide) (by decide) (by decide) (by omega) (by omega) (by omega))
theorem Fits.fhBmax (d : BitVec 7) (a : BitVec 7) (b : BitVec 7) : Fits.Statement (.fhBmax d a b) := fits_word rfl (encR_lt (by decide) (by decide) (by decide) (by omega) (by omega) (by omega))
theorem Fits.fcF32i (d : BitVec 7) (a : BitVec 7) : Fits.Statement (.fcF32i d a) := fits_word rfl (encR_lt (by decide) (by decide) (by decide) (by omega) (by omega) (by decide))
theorem Fits.fcF32n (d : BitVec 7) (a : BitVec 7) : Fits.Statement (.fcF32n d a) := fits_word rfl (encR_lt (by decide) (by decide) (by decide) (by omega) (by omega) (by decide))
theorem Fits.fcIf32 (d : BitVec 7) (a : BitVec 7) : Fits.Statement (.fcIf32 d a) := fits_word rfl (encR_lt (by decide) (by decide) (by decide) (by omega) (by omega) (by decide))
theorem Fits.fcNf32 (d : BitVec 7) (a : BitVec 7) : Fits.Statement (.fcNf32 d a) := fits_word rfl (encR_lt (by decide) (by decide) (by decide) (by omega) (by omega) (by decide))
theorem Fits.fcH16f32 (d : BitVec 7) (a : BitVec 7) (b : BitVec 7) : Fits.Statement (.fcH16f32 d a b) := fits_word rfl (encR_lt (by decide) (by decide) (by decide) (by omega) (by omega) (by omega))
theorem Fits.fcF32h16 (d : BitVec 7) (a : BitVec 7) (b : BitVec 7) : Fits.Statement (.fcF32h16 d a b) := fits_word rfl (encR_lt (by decide) (by decide) (by decide) (by omega) (by omega) (by omega))
theorem Fits.fcBf16f32 (d : BitVec 7) (a : BitVec 7) (b : BitVec 7) : Fits.Statement (.fcBf16f32 d a b) := fits_word rfl (encR_lt (by decide) (by decide) (by decide) (by omega) (by omega) (by omega))
theorem Fits.fcF32bf16 (d : BitVec 7) (a : BitVec 7) (b : BitVec 7) : Fits.Statement (.fcF32bf16 d a b) := fits_word rfl (encR_lt (by decide) (by decide) (by decide) (by omega) (by omega) (by omega))
theorem Fits.fcLt8f32 (d : BitVec 7) (a : BitVec 7) (b : BitVec 7) : Fits.Statement (.fcLt8f32 d a b) := fits_word rfl (encR_lt (by decide) (by decide) (by decide) (by omega) (by omega) (by omega))
theorem Fits.fcF32lt8 (d : BitVec 7) (a : BitVec 7) (b : BitVec 7) : Fits.Statement (.fcF32lt8 d a b) := fits_word rfl (encR_lt (by decide) (by decide) (by decide) (by omega) (by omega) (by omega))
theorem Fits.fxRcp (d : BitVec 7) (a : BitVec 7) : Fits.Statement (.fxRcp d a) := fits_word rfl (encR_lt (by decide) (by decide) (by decide) (by omega) (by omega) (by decide))
theorem Fits.fxRsqrt (d : BitVec 7) (a : BitVec 7) : Fits.Statement (.fxRsqrt d a) := fits_word rfl (encR_lt (by decide) (by decide) (by decide) (by omega) (by omega) (by decide))
theorem Fits.fxSqrt (d : BitVec 7) (a : BitVec 7) : Fits.Statement (.fxSqrt d a) := fits_word rfl (encR_lt (by decide) (by decide) (by decide) (by omega) (by omega) (by decide))
theorem Fits.fxExp2 (d : BitVec 7) (a : BitVec 7) : Fits.Statement (.fxExp2 d a) := fits_word rfl (encR_lt (by decide) (by decide) (by decide) (by omega) (by omega) (by decide))
theorem Fits.fxLog2 (d : BitVec 7) (a : BitVec 7) : Fits.Statement (.fxLog2 d a) := fits_word rfl (encR_lt (by decide) (by decide) (by decide) (by omega) (by omega) (by decide))
theorem Fits.fxSinpi (d : BitVec 7) (a : BitVec 7) : Fits.Statement (.fxSinpi d a) := fits_word rfl (encR_lt (by decide) (by decide) (by decide) (by omega) (by omega) (by decide))
theorem Fits.fxCospi (d : BitVec 7) (a : BitVec 7) : Fits.Statement (.fxCospi d a) := fits_word rfl (encR_lt (by decide) (by decide) (by decide) (by omega) (by omega) (by decide))
theorem Fits.fxTanh (d : BitVec 7) (a : BitVec 7) : Fits.Statement (.fxTanh d a) := fits_word rfl (encR_lt (by decide) (by decide) (by decide) (by omega) (by omega) (by decide))
theorem Fits.fxCeil (d : BitVec 7) (a : BitVec 7) : Fits.Statement (.fxCeil d a) := fits_word rfl (encR_lt (by decide) (by decide) (by decide) (by omega) (by omega) (by decide))
theorem Fits.fxFloor (d : BitVec 7) (a : BitVec 7) : Fits.Statement (.fxFloor d a) := fits_word rfl (encR_lt (by decide) (by decide) (by decide) (by omega) (by omega) (by decide))
theorem Fits.fxXexp (d : BitVec 7) (a : BitVec 7) : Fits.Statement (.fxXexp d a) := fits_word rfl (encR_lt (by decide) (by decide) (by decide) (by omega) (by omega) (by decide))
theorem Fits.fxLdexp (d : BitVec 7) (a : BitVec 7) (b : BitVec 7) : Fits.Statement (.fxLdexp d a b) := fits_word rfl (encR_lt (by decide) (by decide) (by decide) (by omega) (by omega) (by omega))
theorem Fits.xlShfl (d : BitVec 7) (a : BitVec 7) (b : BitVec 7) : Fits.Statement (.xlShfl d a b) := fits_word rfl (encR_lt (by decide) (by decide) (by decide) (by omega) (by omega) (by omega))
theorem Fits.xlShflx (d : BitVec 7) (a : BitVec 7) (b : BitVec 7) : Fits.Statement (.xlShflx d a b) := fits_word rfl (encR_lt (by decide) (by decide) (by decide) (by omega) (by omega) (by omega))
theorem Fits.xlAny (d : BitVec 7) (a : BitVec 7) : Fits.Statement (.xlAny d a) := fits_word rfl (encR_lt (by decide) (by decide) (by decide) (by omega) (by omega) (by decide))
theorem Fits.xlAll (d : BitVec 7) (a : BitVec 7) : Fits.Statement (.xlAll d a) := fits_word rfl (encR_lt (by decide) (by decide) (by decide) (by omega) (by omega) (by decide))
theorem Fits.xlBallotl (d : BitVec 7) (a : BitVec 7) : Fits.Statement (.xlBallotl d a) := fits_word rfl (encR_lt (by decide) (by decide) (by decide) (by omega) (by omega) (by decide))
theorem Fits.xlBallh (d : BitVec 7) (a : BitVec 7) : Fits.Statement (.xlBallh d a) := fits_word rfl (encR_lt (by decide) (by decide) (by decide) (by omega) (by omega) (by decide))
theorem Fits.xlScan (d : BitVec 7) (a : BitVec 7) : Fits.Statement (.xlScan d a) := fits_word rfl (encR_lt (by decide) (by decide) (by decide) (by omega) (by omega) (by decide))
theorem Fits.xlRed (d : BitVec 7) (a : BitVec 7) : Fits.Statement (.xlRed d a) := fits_word rfl (encR_lt (by decide) (by decide) (by decide) (by omega) (by omega) (by decide))
theorem Fits.xlRedmax (d : BitVec 7) (a : BitVec 7) : Fits.Statement (.xlRedmax d a) := fits_word rfl (encR_lt (by decide) (by decide) (by decide) (by omega) (by omega) (by decide))
theorem Fits.xlFred (d : BitVec 7) (a : BitVec 7) : Fits.Statement (.xlFred d a) := fits_word rfl (encR_lt (by decide) (by decide) (by decide) (by omega) (by omega) (by decide))
theorem Fits.xlFredmax (d : BitVec 7) (a : BitVec 7) : Fits.Statement (.xlFredmax d a) := fits_word rfl (encR_lt (by decide) (by decide) (by decide) (by omega) (by omega) (by decide))
theorem Fits.xlMatch (d : BitVec 7) (a : BitVec 7) : Fits.Statement (.xlMatch d a) := fits_word rfl (encR_lt (by decide) (by decide) (by decide) (by omega) (by omega) (by decide))
theorem Fits.xlPopc (d : BitVec 7) (a : BitVec 7) : Fits.Statement (.xlPopc d a) := fits_word rfl (encR_lt (by decide) (by decide) (by decide) (by omega) (by omega) (by decide))
theorem Fits.brz (a : BitVec 7) (off : BitVec 18) : Fits.Statement (.brz a off) := fits_word rfl (encL_lt (by decide) (by decide) (by omega) (by omega))
theorem Fits.brnz (a : BitVec 7) (off : BitVec 18) : Fits.Statement (.brnz a off) := fits_word rfl (encL_lt (by decide) (by decide) (by omega) (by omega))
theorem Fits.jmp (off : BitVec 18) : Fits.Statement (.jmp off) := fits_word rfl (encL_lt (by decide) (by decide) (by decide) (by omega))
theorem Fits.jmpLink (a : BitVec 7) (off : BitVec 18) : Fits.Statement (.jmpLink a off) := fits_word rfl (encL_lt (by decide) (by decide) (by omega) (by omega))
theorem Fits.ctlJr (a : BitVec 7) : Fits.Statement (.ctlJr a) := fits_word rfl (encR_lt (by decide) (by decide) (by decide) (by decide) (by omega) (by decide))
theorem Fits.ctlExit : Fits.Statement .ctlExit := fits_word rfl (encR_lt (by decide) (by decide) (by decide) (by decide) (by decide) (by decide))
theorem Fits.ldN8 (d : BitVec 7) (a : BitVec 7) (off : BitVec 7) : Fits.Statement (.ldN8 d a off) := fits_word rfl (encR_lt (by decide) (by decide) (by decide) (by omega) (by omega) (by omega))
theorem Fits.ldI8 (d : BitVec 7) (a : BitVec 7) (off : BitVec 7) : Fits.Statement (.ldI8 d a off) := fits_word rfl (encR_lt (by decide) (by decide) (by decide) (by omega) (by omega) (by omega))
theorem Fits.ldN16 (d : BitVec 7) (a : BitVec 7) (off : BitVec 7) : Fits.Statement (.ldN16 d a off) := fits_word rfl (encR_lt (by decide) (by decide) (by decide) (by omega) (by omega) (by omega))
theorem Fits.ldI16 (d : BitVec 7) (a : BitVec 7) (off : BitVec 7) : Fits.Statement (.ldI16 d a off) := fits_word rfl (encR_lt (by decide) (by decide) (by decide) (by omega) (by omega) (by omega))
theorem Fits.ldB32 (d : BitVec 7) (a : BitVec 7) (off : BitVec 7) : Fits.Statement (.ldB32 d a off) := fits_word rfl (encR_lt (by decide) (by decide) (by decide) (by omega) (by omega) (by omega))
theorem Fits.ldB64 (d : BitVec 7) (a : BitVec 7) (off : BitVec 7) : Fits.Statement (.ldB64 d a off) := fits_word rfl (encR_lt (by decide) (by decide) (by decide) (by omega) (by omega) (by omega))
theorem Fits.ldB128 (d : BitVec 7) (a : BitVec 7) (off : BitVec 7) : Fits.Statement (.ldB128 d a off) := fits_word rfl (encR_lt (by decide) (by decide) (by decide) (by omega) (by omega) (by omega))
theorem Fits.stB8 (d : BitVec 7) (a : BitVec 7) (off : BitVec 7) : Fits.Statement (.stB8 d a off) := fits_word rfl (encR_lt (by decide) (by decide) (by decide) (by omega) (by omega) (by omega))
theorem Fits.stB16 (d : BitVec 7) (a : BitVec 7) (off : BitVec 7) : Fits.Statement (.stB16 d a off) := fits_word rfl (encR_lt (by decide) (by decide) (by decide) (by omega) (by omega) (by omega))
theorem Fits.stB32 (d : BitVec 7) (a : BitVec 7) (off : BitVec 7) : Fits.Statement (.stB32 d a off) := fits_word rfl (encR_lt (by decide) (by decide) (by decide) (by omega) (by omega) (by omega))
theorem Fits.stB64 (d : BitVec 7) (a : BitVec 7) (off : BitVec 7) : Fits.Statement (.stB64 d a off) := fits_word rfl (encR_lt (by decide) (by decide) (by decide) (by omega) (by omega) (by omega))
theorem Fits.stB128 (d : BitVec 7) (a : BitVec 7) (off : BitVec 7) : Fits.Statement (.stB128 d a off) := fits_word rfl (encR_lt (by decide) (by decide) (by decide) (by omega) (by omega) (by omega))
theorem Fits.atAdd (d : BitVec 7) (a : BitVec 7) (b : BitVec 7) : Fits.Statement (.atAdd d a b) := fits_word rfl (encR_lt (by decide) (by decide) (by decide) (by omega) (by omega) (by omega))
theorem Fits.atMin (d : BitVec 7) (a : BitVec 7) (b : BitVec 7) : Fits.Statement (.atMin d a b) := fits_word rfl (encR_lt (by decide) (by decide) (by decide) (by omega) (by omega) (by omega))
theorem Fits.atMax (d : BitVec 7) (a : BitVec 7) (b : BitVec 7) : Fits.Statement (.atMax d a b) := fits_word rfl (encR_lt (by decide) (by decide) (by decide) (by omega) (by omega) (by omega))
theorem Fits.atMinn (d : BitVec 7) (a : BitVec 7) (b : BitVec 7) : Fits.Statement (.atMinn d a b) := fits_word rfl (encR_lt (by decide) (by decide) (by decide) (by omega) (by omega) (by omega))
theorem Fits.atMaxn (d : BitVec 7) (a : BitVec 7) (b : BitVec 7) : Fits.Statement (.atMaxn d a b) := fits_word rfl (encR_lt (by decide) (by decide) (by decide) (by omega) (by omega) (by omega))
theorem Fits.atAnd (d : BitVec 7) (a : BitVec 7) (b : BitVec 7) : Fits.Statement (.atAnd d a b) := fits_word rfl (encR_lt (by decide) (by decide) (by decide) (by omega) (by omega) (by omega))
theorem Fits.atOr (d : BitVec 7) (a : BitVec 7) (b : BitVec 7) : Fits.Statement (.atOr d a b) := fits_word rfl (encR_lt (by decide) (by decide) (by decide) (by omega) (by omega) (by omega))
theorem Fits.atXor (d : BitVec 7) (a : BitVec 7) (b : BitVec 7) : Fits.Statement (.atXor d a b) := fits_word rfl (encR_lt (by decide) (by decide) (by decide) (by omega) (by omega) (by omega))
theorem Fits.atXchg (d : BitVec 7) (a : BitVec 7) (b : BitVec 7) : Fits.Statement (.atXchg d a b) := fits_word rfl (encR_lt (by decide) (by decide) (by decide) (by omega) (by omega) (by omega))
theorem Fits.atCas (d : BitVec 7) (a : BitVec 7) (b : BitVec 7) : Fits.Statement (.atCas d a b) := fits_word rfl (encR_lt (by decide) (by decide) (by decide) (by omega) (by omega) (by omega))
theorem Fits.atFadd (d : BitVec 7) (a : BitVec 7) (b : BitVec 7) : Fits.Statement (.atFadd d a b) := fits_word rfl (encR_lt (by decide) (by decide) (by decide) (by omega) (by omega) (by omega))
theorem Fits.sel (d : BitVec 7) (a : BitVec 7) (b : BitVec 7) : Fits.Statement (.sel d a b) := fits_word rfl (encR_lt (by decide) (by decide) (by decide) (by omega) (by omega) (by omega))
theorem Fits.sr (d : BitVec 7) (b : BitVec 7) : Fits.Statement (.sr d b) := fits_word rfl (encR_lt (by decide) (by decide) (by decide) (by omega) (by decide) (by omega))
theorem Fits.ixRd (d : BitVec 7) (a : BitVec 7) (b : BitVec 7) : Fits.Statement (.ixRd d a b) := fits_word rfl (encR_lt (by decide) (by decide) (by decide) (by omega) (by omega) (by omega))
theorem Fits.ixWr (d : BitVec 7) (a : BitVec 7) (b : BitVec 7) : Fits.Statement (.ixWr d a b) := fits_word rfl (encR_lt (by decide) (by decide) (by decide) (by omega) (by omega) (by omega))
theorem Fits.plApply (d : BitVec 7) (a : BitVec 7) (b : BitVec 4) : Fits.Statement (.plApply d a b) := fits_word rfl (encR_lt (by decide) (by decide) (by decide) (by omega) (by omega) (by omega))
theorem Fits.plApplyi (d : BitVec 7) (a : BitVec 7) (b : BitVec 4) : Fits.Statement (.plApplyi d a b) := fits_word rfl (encR_lt (by decide) (by decide) (by decide) (by omega) (by omega) (by omega))
theorem Fits.plIdx (d : BitVec 7) (b : BitVec 4) : Fits.Statement (.plIdx d b) := fits_word rfl (encR_lt (by decide) (by decide) (by decide) (by omega) (by decide) (by omega))
theorem Fits.plPos (d : BitVec 7) (b : BitVec 4) : Fits.Statement (.plPos d b) := fits_word rfl (encR_lt (by decide) (by decide) (by decide) (by omega) (by decide) (by omega))
theorem Fits.plCyclen (d : BitVec 7) (b : BitVec 4) : Fits.Statement (.plCyclen d b) := fits_word rfl (encR_lt (by decide) (by decide) (by decide) (by omega) (by decide) (by omega))
theorem Fits.plCycmin (d : BitVec 7) (b : BitVec 4) : Fits.Statement (.plCycmin d b) := fits_word rfl (encR_lt (by decide) (by decide) (by decide) (by omega) (by decide) (by omega))
theorem Fits.mxMma (d : BitVec 7) (a : BitVec 7) (b : BitVec 7) : Fits.Statement (.mxMma d a b) := fits_word rfl (encR_lt (by decide) (by decide) (by decide) (by omega) (by omega) (by omega))
theorem Fits.mxMmag (d : BitVec 7) (a : BitVec 7) (b : BitVec 7) : Fits.Statement (.mxMmag d a b) := fits_word rfl (encR_lt (by decide) (by decide) (by decide) (by omega) (by omega) (by omega))
theorem Fits.mxMcv (d : BitVec 7) (a : BitVec 7) (b : BitVec 7) : Fits.Statement (.mxMcv d a b) := fits_word rfl (encR_lt (by decide) (by decide) (by decide) (by omega) (by omega) (by omega))
theorem Fits.mxZero (d : BitVec 7) : Fits.Statement (.mxZero d) := fits_word rfl (encR_lt (by decide) (by decide) (by decide) (by omega) (by decide) (by decide))
theorem Fits.mxGet (d : BitVec 7) (a : BitVec 7) (b : BitVec 7) : Fits.Statement (.mxGet d a b) := fits_word rfl (encR_lt (by decide) (by decide) (by decide) (by omega) (by omega) (by omega))
theorem Fits.mxPut (d : BitVec 7) (a : BitVec 7) (b : BitVec 7) : Fits.Statement (.mxPut d a b) := fits_word rfl (encR_lt (by decide) (by decide) (by decide) (by omega) (by omega) (by omega))
theorem Fits.mxSto (d : BitVec 7) (a : BitVec 7) : Fits.Statement (.mxSto d a) := fits_word rfl (encR_lt (by decide) (by decide) (by decide) (by omega) (by omega) (by decide))
theorem Fits.mxRmax (d : BitVec 7) (a : BitVec 7) : Fits.Statement (.mxRmax d a) := fits_word rfl (encR_lt (by decide) (by decide) (by decide) (by omega) (by omega) (by decide))
theorem Fits.mxRscale (d : BitVec 7) (a : BitVec 7) : Fits.Statement (.mxRscale d a) := fits_word rfl (encR_lt (by decide) (by decide) (by decide) (by omega) (by omega) (by decide))
theorem Fits.sysNop : Fits.Statement .sysNop := fits_word rfl (encR_lt (by decide) (by decide) (by decide) (by decide) (by decide) (by decide))
theorem Fits.sysBrk (b : BitVec 7) : Fits.Statement (.sysBrk b) := fits_word rfl (encR_lt (by decide) (by decide) (by decide) (by decide) (by decide) (by omega))
theorem Fits.sysTrap (b : BitVec 7) : Fits.Statement (.sysTrap b) := fits_word rfl (encR_lt (by decide) (by decide) (by decide) (by decide) (by decide) (by omega))
theorem Fits.spar (cc : BitVec 4) (dx : BitVec 4) (ax : BitVec 4) (bx : BitVec 4) (ta : BitVec 1) (tb : BitVec 1) (q : BitVec 3) (o : BitVec 2) : Fits.Statement (.spar cc dx ax bx ta tb q o) := fits_word rfl (encSpar_lt (by omega) (by omega) (by omega) (by omega) (by omega) (by omega) (by omega) (by omega))
theorem Fits.uaAdd (d : BitVec 7) (a : BitVec 7) (b : BitVec 7) : Fits.Statement (.uaAdd d a b) := fits_word rfl (encR_lt (by decide) (by decide) (by decide) (by omega) (by omega) (by omega))
theorem Fits.uaSub (d : BitVec 7) (a : BitVec 7) (b : BitVec 7) : Fits.Statement (.uaSub d a b) := fits_word rfl (encR_lt (by decide) (by decide) (by decide) (by omega) (by omega) (by omega))
theorem Fits.uaMul (d : BitVec 7) (a : BitVec 7) (b : BitVec 7) : Fits.Statement (.uaMul d a b) := fits_word rfl (encR_lt (by decide) (by decide) (by decide) (by omega) (by omega) (by omega))
theorem Fits.uaAnd (d : BitVec 7) (a : BitVec 7) (b : BitVec 7) : Fits.Statement (.uaAnd d a b) := fits_word rfl (encR_lt (by decide) (by decide) (by decide) (by omega) (by omega) (by omega))
theorem Fits.uaOr (d : BitVec 7) (a : BitVec 7) (b : BitVec 7) : Fits.Statement (.uaOr d a b) := fits_word rfl (encR_lt (by decide) (by decide) (by decide) (by omega) (by omega) (by omega))
theorem Fits.uaXor (d : BitVec 7) (a : BitVec 7) (b : BitVec 7) : Fits.Statement (.uaXor d a b) := fits_word rfl (encR_lt (by decide) (by decide) (by decide) (by omega) (by omega) (by omega))
theorem Fits.uaShl (d : BitVec 7) (a : BitVec 7) (b : BitVec 7) : Fits.Statement (.uaShl d a b) := fits_word rfl (encR_lt (by decide) (by decide) (by decide) (by omega) (by omega) (by omega))
theorem Fits.uaShr (d : BitVec 7) (a : BitVec 7) (b : BitVec 7) : Fits.Statement (.uaShr d a b) := fits_word rfl (encR_lt (by decide) (by decide) (by decide) (by omega) (by omega) (by omega))
theorem Fits.uaMin (d : BitVec 7) (a : BitVec 7) (b : BitVec 7) : Fits.Statement (.uaMin d a b) := fits_word rfl (encR_lt (by decide) (by decide) (by decide) (by omega) (by omega) (by omega))
theorem Fits.uaMax (d : BitVec 7) (a : BitVec 7) (b : BitVec 7) : Fits.Statement (.uaMax d a b) := fits_word rfl (encR_lt (by decide) (by decide) (by decide) (by omega) (by omega) (by omega))
theorem Fits.uaMinn (d : BitVec 7) (a : BitVec 7) (b : BitVec 7) : Fits.Statement (.uaMinn d a b) := fits_word rfl (encR_lt (by decide) (by decide) (by decide) (by omega) (by omega) (by omega))
theorem Fits.uaMaxn (d : BitVec 7) (a : BitVec 7) (b : BitVec 7) : Fits.Statement (.uaMaxn d a b) := fits_word rfl (encR_lt (by decide) (by decide) (by decide) (by omega) (by omega) (by omega))
theorem Fits.ucEq (d : BitVec 7) (a : BitVec 7) (b : BitVec 7) : Fits.Statement (.ucEq d a b) := fits_word rfl (encR_lt (by decide) (by decide) (by decide) (by omega) (by omega) (by omega))
theorem Fits.ucNe (d : BitVec 7) (a : BitVec 7) (b : BitVec 7) : Fits.Statement (.ucNe d a b) := fits_word rfl (encR_lt (by decide) (by decide) (by decide) (by omega) (by omega) (by omega))
theorem Fits.ucLt (d : BitVec 7) (a : BitVec 7) (b : BitVec 7) : Fits.Statement (.ucLt d a b) := fits_word rfl (encR_lt (by decide) (by decide) (by decide) (by omega) (by omega) (by omega))
theorem Fits.ucLtn (d : BitVec 7) (a : BitVec 7) (b : BitVec 7) : Fits.Statement (.ucLtn d a b) := fits_word rfl (encR_lt (by decide) (by decide) (by decide) (by omega) (by omega) (by omega))
theorem Fits.uai (d : BitVec 7) (a : BitVec 7) (imm : BitVec 11) : Fits.Statement (.uai d a imm) := fits_word rfl (encI_lt (by decide) (by decide) (by omega) (by omega) (by omega))
theorem Fits.ulim (d : BitVec 7) (imm : BitVec 18) : Fits.Statement (.ulim d imm) := fits_word rfl (encL_lt (by decide) (by decide) (by omega) (by omega))
theorem Fits.ulih (d : BitVec 7) (imm : BitVec 18) : Fits.Statement (.ulih d imm) := fits_word rfl (encL_lt (by decide) (by decide) (by omega) (by omega))
theorem Fits.ubrz (a : BitVec 7) (off : BitVec 18) : Fits.Statement (.ubrz a off) := fits_word rfl (encL_lt (by decide) (by decide) (by omega) (by omega))
theorem Fits.ubrnz (a : BitVec 7) (off : BitVec 18) : Fits.Statement (.ubrnz a off) := fits_word rfl (encL_lt (by decide) (by decide) (by omega) (by omega))
theorem Fits.syncBar (d : BitVec 7) : Fits.Statement (.syncBar d) := fits_word rfl (encR_lt (by decide) (by decide) (by decide) (by omega) (by decide) (by decide))
theorem Fits.syncArr (d : BitVec 7) : Fits.Statement (.syncArr d) := fits_word rfl (encR_lt (by decide) (by decide) (by decide) (by omega) (by decide) (by decide))
theorem Fits.syncWt (d : BitVec 7) : Fits.Statement (.syncWt d) := fits_word rfl (encR_lt (by decide) (by decide) (by decide) (by omega) (by decide) (by decide))
theorem Fits.syncOc (d : BitVec 7) (a : BitVec 7) : Fits.Statement (.syncOc d a) := fits_word rfl (encR_lt (by decide) (by decide) (by decide) (by omega) (by omega) (by decide))
theorem Fits.syncFence (d : BitVec 7) (a : BitVec 7) : Fits.Statement (.syncFence d a) := fits_word rfl (encR_lt (by decide) (by decide) (by decide) (by omega) (by omega) (by decide))
theorem Fits.syncMwait (a : BitVec 7) (b : BitVec 7) : Fits.Statement (.syncMwait a b) := fits_word rfl (encR_lt (by decide) (by decide) (by decide) (by decide) (by omega) (by omega))
theorem Fits.syncTrig : Fits.Statement .syncTrig := fits_word rfl (encR_lt (by decide) (by decide) (by decide) (by decide) (by decide) (by decide))
theorem Fits.syncDwait : Fits.Statement .syncDwait := fits_word rfl (encR_lt (by decide) (by decide) (by decide) (by decide) (by decide) (by decide))
theorem Fits.engCopy (d : BitVec 7) (a : BitVec 7) : Fits.Statement (.engCopy d a) := fits_word rfl (encR_lt (by decide) (by decide) (by decide) (by omega) (by omega) (by decide))
theorem Fits.engQuant (a : BitVec 7) : Fits.Statement (.engQuant a) := fits_word rfl (encR_lt (by decide) (by decide) (by decide) (by decide) (by omega) (by decide))
theorem Fits.engPut (a : BitVec 7) : Fits.Statement (.engPut a) := fits_word rfl (encR_lt (by decide) (by decide) (by decide) (by decide) (by omega) (by decide))
theorem Fits.engGet (a : BitVec 7) : Fits.Statement (.engGet a) := fits_word rfl (encR_lt (by decide) (by decide) (by decide) (by decide) (by omega) (by decide))
theorem Fits.pmLoad (d : BitVec 7) (a : BitVec 7) : Fits.Statement (.pmLoad d a) := fits_word rfl (encR_lt (by decide) (by decide) (by decide) (by omega) (by omega) (by decide))
theorem Fits.pmIdent (d : BitVec 7) (a : BitVec 7) : Fits.Statement (.pmIdent d a) := fits_word rfl (encR_lt (by decide) (by decide) (by decide) (by omega) (by omega) (by decide))
theorem Fits.pmComp (d : BitVec 7) (a : BitVec 7) (b : BitVec 7) : Fits.Statement (.pmComp d a b) := fits_word rfl (encR_lt (by decide) (by decide) (by decide) (by omega) (by omega) (by omega))
theorem Fits.pmInv (d : BitVec 7) (a : BitVec 7) : Fits.Statement (.pmInv d a) := fits_word rfl (encR_lt (by decide) (by decide) (by decide) (by omega) (by omega) (by decide))
theorem Fits.pmRand (d : BitVec 7) (a : BitVec 7) (b : BitVec 7) : Fits.Statement (.pmRand d a b) := fits_word rfl (encR_lt (by decide) (by decide) (by decide) (by omega) (by omega) (by omega))
theorem Fits.pmCyc (d : BitVec 7) (a : BitVec 7) : Fits.Statement (.pmCyc d a) := fits_word rfl (encR_lt (by decide) (by decide) (by decide) (by omega) (by omega) (by decide))
theorem Fits.pmSave (d : BitVec 7) (a : BitVec 7) : Fits.Statement (.pmSave d a) := fits_word rfl (encR_lt (by decide) (by decide) (by decide) (by omega) (by omega) (by decide))
theorem Fits.pmRest (d : BitVec 7) (a : BitVec 7) : Fits.Statement (.pmRest d a) := fits_word rfl (encR_lt (by decide) (by decide) (by decide) (by omega) (by omega) (by decide))
theorem Fits.obRsv (d : BitVec 7) (a : BitVec 7) : Fits.Statement (.obRsv d a) := fits_word rfl (encR_lt (by decide) (by decide) (by decide) (by omega) (by omega) (by decide))
theorem Fits.obRel (a : BitVec 7) : Fits.Statement (.obRel a) := fits_word rfl (encR_lt (by decide) (by decide) (by decide) (by decide) (by omega) (by decide))
theorem Fits.obRec (a : BitVec 7) : Fits.Statement (.obRec a) := fits_word rfl (encR_lt (by decide) (by decide) (by decide) (by decide) (by omega) (by decide))
theorem Fits.modeRd (d : BitVec 7) : Fits.Statement (.modeRd d) := fits_word rfl (encR_lt (by decide) (by decide) (by decide) (by omega) (by decide) (by decide))
theorem Fits.modeWr (a : BitVec 7) : Fits.Statement (.modeWr a) := fits_word rfl (encR_lt (by decide) (by decide) (by decide) (by decide) (by omega) (by decide))
theorem Fits.gateCall (a : BitVec 7) : Fits.Statement (.gateCall a) := fits_word rfl (encR_lt (by decide) (by decide) (by decide) (by decide) (by omega) (by decide))
theorem Fits.gateRet : Fits.Statement .gateRet := fits_word rfl (encR_lt (by decide) (by decide) (by decide) (by decide) (by decide) (by decide))
theorem Fits.ctrRd (d : BitVec 7) (a : BitVec 7) : Fits.Statement (.ctrRd d a) := fits_word rfl (encR_lt (by decide) (by decide) (by decide) (by omega) (by omega) (by decide))
theorem Fits.ctrMark (a : BitVec 7) : Fits.Statement (.ctrMark a) := fits_word rfl (encR_lt (by decide) (by decide) (by decide) (by decide) (by omega) (by decide))
theorem Fits.uldB32 (d : BitVec 7) (a : BitVec 7) (off : BitVec 7) : Fits.Statement (.uldB32 d a off) := fits_word rfl (encR_lt (by decide) (by decide) (by decide) (by omega) (by omega) (by omega))
theorem Fits.uldB64 (d : BitVec 7) (a : BitVec 7) (off : BitVec 7) : Fits.Statement (.uldB64 d a off) := fits_word rfl (encR_lt (by decide) (by decide) (by decide) (by omega) (by omega) (by omega))
theorem Fits.ustB32 (d : BitVec 7) (a : BitVec 7) (off : BitVec 7) : Fits.Statement (.ustB32 d a off) := fits_word rfl (encR_lt (by decide) (by decide) (by decide) (by omega) (by omega) (by omega))
theorem Fits.illegalWord (w : Word) : Fits.Statement (.illegalWord w) := fits_event rfl
theorem Fits.qportSubmit (pasid offset : Nat) (bytes : List Byte) : Fits.Statement (.qportSubmit pasid offset bytes) := fits_event rfl
theorem Fits.qportUnsupportedDmwr (pasid : Option Nat) (offset size : Nat) : Fits.Statement (.qportUnsupportedDmwr pasid offset size) := fits_event rfl
theorem Fits.qportMemoryWrite (pasid : Option Nat) : Fits.Statement (.qportMemoryWrite pasid) := fits_event rfl
theorem Fits.qportMemoryRead (pasid : Option Nat) : Fits.Statement (.qportMemoryRead pasid) := fits_event rfl
theorem Fits.processLaunch : Fits.Statement .processLaunch := fits_event rfl
theorem Fits.processGraphNode : Fits.Statement .processGraphNode := fits_event rfl
theorem Fits.processPhaseStep : Fits.Statement .processPhaseStep := fits_event rfl
theorem Fits.controlClose : Fits.Statement .controlClose := fits_event rfl
theorem Fits.controlCancel : Fits.Statement .controlCancel := fits_event rfl
theorem Fits.dispatchTurn : Fits.Statement .dispatchTurn := fits_event rfl
theorem Fits.unitComplete (uid : Nat) : Fits.Statement (.unitComplete uid) := fits_event rfl
theorem Fits.launchTriggered (dom lid : Nat) : Fits.Statement (.launchTriggered dom lid) := fits_event rfl
theorem Fits.mboxVersion : Fits.Statement .mboxVersion := fits_event rfl
theorem Fits.mboxAttestation (busy : Bool) : Fits.Statement (.mboxAttestation busy) := fits_event rfl
theorem Fits.attestationReportWritten : Fits.Statement .attestationReportWritten := fits_event rfl
theorem Fits.mboxDebugAccess (allowed : Bool) : Fits.Statement (.mboxDebugAccess allowed) := fits_event rfl
theorem Fits.mboxRejectLog : Fits.Statement .mboxRejectLog := fits_event rfl
theorem Fits.mboxUnknownType : Fits.Statement .mboxUnknownType := fits_event rfl
theorem Fits.powerOn (img : BootImage) (codes : List Nat) : Fits.Statement (.powerOn img codes) := fits_event rfl
theorem Fits.packageReset (img : BootImage) (codes : List Nat) : Fits.Statement (.packageReset img codes) := fits_event rfl
theorem Fits.sidebandStatus (die : Nat) : Fits.Statement (.sidebandStatus die) := fits_event rfl
theorem Fits.domtabRun (core slot v : Nat) : Fits.Statement (.domtabRun core slot v) := fits_event rfl
theorem Fits.domtabHalt (core slot : Nat) : Fits.Statement (.domtabHalt core slot) := fits_event rfl
theorem Fits.haltComplete (core slot : Nat) : Fits.Statement (.haltComplete core slot) := fits_event rfl
theorem Fits.domtabResume (core slot : Nat) : Fits.Statement (.domtabResume core slot) := fits_event rfl
theorem Fits.domtabEmpty (core slot : Nat) : Fits.Statement (.domtabEmpty core slot) := fits_event rfl
theorem Fits.dpartWrite (core slot v : Nat) : Fits.Statement (.dpartWrite core slot v) := fits_event rfl
theorem Fits.rebindWriteOut (uid g : Nat) : Fits.Statement (.rebindWriteOut uid g) := fits_event rfl
theorem Fits.rebindPauseEnd (uid g : Nat) : Fits.Statement (.rebindPauseEnd uid g) := fits_event rfl
theorem Fits.tlbInvalidate (die v : Nat) : Fits.Statement (.tlbInvalidate die v) := fits_event rfl
theorem Fits.tlbInvalidateDone (die : Nat) : Fits.Statement (.tlbInvalidateDone die) := fits_event rfl
theorem Fits.flashWrite (link v : Nat) : Fits.Statement (.flashWrite link v) := fits_event rfl
theorem Fits.linkDrained (link : Nat) : Fits.Statement (.linkDrained link) := fits_event rfl
theorem Fits.dvfsRequest (die cl v : Nat) : Fits.Statement (.dvfsRequest die cl v) := fits_event rfl
theorem Fits.dvfsDone (die cl : Nat) : Fits.Statement (.dvfsDone die cl) := fits_event rfl
theorem Fits.sringWrite (core slot v : Nat) : Fits.Statement (.sringWrite core slot v) := fits_event rfl
theorem Fits.sampctlWrite (core v : Nat) : Fits.Statement (.sampctlWrite core v) := fits_event rfl
theorem Fits.ctrselWrite (core part n v : Nat) : Fits.Statement (.ctrselWrite core part n v) := fits_event rfl
theorem Fits.thermWrite (die v : Nat) : Fits.Statement (.thermWrite die v) := fits_event rfl
theorem Fits.watchWrite (die n v : Nat) : Fits.Statement (.watchWrite die n v) := fits_event rfl
theorem Fits.dbgResume (core slot v : Nat) : Fits.Statement (.dbgResume core slot v) := fits_event rfl
theorem Fits.dbgStep (core slot v : Nat) : Fits.Statement (.dbgStep core slot v) := fits_event rfl
theorem Fits.dbgStop (core slot v : Nat) : Fits.Statement (.dbgStop core slot v) := fits_event rfl
theorem Fits.dbgStepEnd (uid g : Nat) : Fits.Statement (.dbgStepEnd uid g) := fits_event rfl
theorem Fits.dbgQuery (core v : Nat) : Fits.Statement (.dbgQuery core v) := fits_event rfl
theorem Fits.hbmlogWrite (die v : Nat) : Fits.Statement (.hbmlogWrite die v) := fits_event rfl
theorem Fits.lswapWrite (die ch v : Nat) : Fits.Statement (.lswapWrite die ch v) := fits_event rfl
theorem Fits.injseedWrite (die v : Nat) : Fits.Statement (.injseedWrite die v) := fits_event rfl
theorem Fits.injctlWrite (die v : Nat) : Fits.Statement (.injctlWrite die v) := fits_event rfl
theorem Fits.bindstatRead (core slot : Nat) : Fits.Statement (.bindstatRead core slot) := fits_event rfl
theorem Fits.registerWrite (r : Reg) (v : Nat) : Fits.Statement (.registerWrite r v) := fits_event rfl
theorem Fits.pcSample (core part : Nat) : Fits.Statement (.pcSample core part) := fits_event rfl
theorem Fits.ringWrAdvance (core slot : Nat) : Fits.Statement (.ringWrAdvance core slot) := fits_event rfl
theorem Fits.memoryRequestSample (core : Nat) (req : SampleReq) : Fits.Statement (.memoryRequestSample core req) := fits_event rfl
theorem Fits.thermalSample (die : Nat) (junction hbmTemps : List Nat) : Fits.Statement (.thermalSample die junction hbmTemps) := fits_event rfl
theorem Fits.thermalHold (die cl : Nat) : Fits.Statement (.thermalHold die cl) := fits_event rfl
theorem Fits.thermalHoldRelease (die cl : Nat) : Fits.Statement (.thermalHoldRelease die cl) := fits_event rfl
theorem Fits.orderedTrip (die : Nat) : Fits.Statement (.orderedTrip die) := fits_event rfl
theorem Fits.storeToPool (uid g t id : Nat) : Fits.Statement (.storeToPool uid g t id) := fits_event rfl
theorem Fits.loadSatisfy (uid g t id : Nat) (choices : List Nat) : Fits.Statement (.loadSatisfy uid g t id choices) := fits_event rfl
theorem Fits.poolToPath (core id : Nat) : Fits.Statement (.poolToPath core id) := fits_event rfl
theorem Fits.performAtHome (core id : Nat) : Fits.Statement (.performAtHome core id) := fits_event rfl
theorem Fits.fenceRemove (uid g t id : Nat) : Fits.Statement (.fenceRemove uid g t id) := fits_event rfl
theorem Fits.lineRequest (core part : Nat) : Fits.Statement (.lineRequest core part) := fits_event rfl
theorem Fits.translationWalk (core asid va : Nat) : Fits.Statement (.translationWalk core asid va) := fits_event rfl
theorem Fits.loadComplete (core set : Nat) : Fits.Statement (.loadComplete core set) := fits_event rfl
theorem Fits.resultWrite (core id : Nat) : Fits.Statement (.resultWrite core id) := fits_event rfl
theorem Fits.watchHitReport (id : Nat) : Fits.Statement (.watchHitReport id) := fits_event rfl
theorem Fits.barrierArrival (uid g bar : Nat) : Fits.Statement (.barrierArrival uid g bar) := fits_event rfl
theorem Fits.groupTriggered (uid g : Nat) : Fits.Statement (.groupTriggered uid g) := fits_event rfl
theorem Fits.dwaitRelease (uid g : Nat) : Fits.Statement (.dwaitRelease uid g) := fits_event rfl
theorem Fits.mwaitWake (uid g : Nat) : Fits.Statement (.mwaitWake uid g) := fits_event rfl
theorem Fits.mwaitTimeout (uid g : Nat) : Fits.Statement (.mwaitTimeout uid g) := fits_event rfl
theorem Fits.ocWaitRelease (uid g : Nat) : Fits.Statement (.ocWaitRelease uid g) := fits_event rfl
theorem Fits.obReleaseFree (uid g : Nat) : Fits.Statement (.obReleaseFree uid g) := fits_event rfl
theorem Fits.obRecordReplace (uid g : Nat) : Fits.Statement (.obRecordReplace uid g) := fits_event rfl
theorem Fits.gateCallEntry (uid g : Nat) : Fits.Statement (.gateCallEntry uid g) := fits_event rfl
theorem Fits.gateReturn (uid g : Nat) : Fits.Statement (.gateReturn uid g) := fits_event rfl
theorem Fits.chainStart (core ch : Nat) : Fits.Statement (.chainStart core ch) := fits_event rfl
theorem Fits.movePlain (core ch : Nat) : Fits.Statement (.movePlain core ch) := fits_event rfl
theorem Fits.movePermute (core ch : Nat) : Fits.Statement (.movePermute core ch) := fits_event rfl
theorem Fits.moveTransposeRequantise (core ch : Nat) : Fits.Statement (.moveTransposeRequantise core ch) := fits_event rfl
theorem Fits.moveQuantise (core ch : Nat) : Fits.Statement (.moveQuantise core ch) := fits_event rfl
theorem Fits.loopEntry (core ch : Nat) : Fits.Statement (.loopEntry core ch) := fits_event rfl
theorem Fits.skipEntry (core ch : Nat) : Fits.Statement (.skipEntry core ch) := fits_event rfl
theorem Fits.skipWaitSatisfied (core ch : Nat) : Fits.Statement (.skipWaitSatisfied core ch) := fits_event rfl
theorem Fits.skipWaitLimit (core ch : Nat) : Fits.Statement (.skipWaitLimit core ch) := fits_event rfl
theorem Fits.signalArrive (core ch : Nat) : Fits.Statement (.signalArrive core ch) := fits_event rfl
theorem Fits.signalAdvance (core ch : Nat) : Fits.Statement (.signalAdvance core ch) := fits_event rfl
theorem Fits.endEntry (core ch : Nat) : Fits.Statement (.endEntry core ch) := fits_event rfl
theorem Fits.chainFinish (core ch : Nat) : Fits.Statement (.chainFinish core ch) := fits_event rfl
theorem Fits.eqRetire (uid g cls : Nat) : Fits.Statement (.eqRetire uid g cls) := fits_event rfl
theorem Fits.windowPut (uid g : Nat) : Fits.Statement (.windowPut uid g) := fits_event rfl
theorem Fits.putArrivedAdvance (uid g : Nat) : Fits.Statement (.putArrivedAdvance uid g) := fits_event rfl
theorem Fits.putAckedAdvance (uid g : Nat) : Fits.Statement (.putAckedAdvance uid g) := fits_event rfl
theorem Fits.windowGet (uid g : Nat) : Fits.Statement (.windowGet uid g) := fits_event rfl
theorem Fits.mxStart (core part : Nat) : Fits.Statement (.mxStart core part) := fits_event rfl
theorem Fits.mxDone (core part : Nat) : Fits.Statement (.mxDone core part) := fits_event rfl
theorem Fits.solverStart (core : Nat) : Fits.Statement (.solverStart core) := fits_event rfl
theorem Fits.solverDone (core : Nat) : Fits.Statement (.solverDone core) := fits_event rfl
theorem Fits.pmSavePerformed (uid g : Nat) : Fits.Statement (.pmSavePerformed uid g) := fits_event rfl
theorem Fits.spillFill (uid g : Nat) (cls : NClass) (num : Nat) : Fits.Statement (.spillFill uid g cls num) := fits_event rfl
theorem Fits.spillWriteThrough (uid g : Nat) (cls : NClass) (num : Nat) : Fits.Statement (.spillWriteThrough uid g cls num) := fits_event rfl
theorem Fits.trapFrameWrite (uid g : Nat) : Fits.Statement (.trapFrameWrite uid g) := fits_event rfl
theorem Fits.handlerEntry (uid g : Nat) : Fits.Statement (.handlerEntry uid g) := fits_event rfl
theorem Fits.heldTrapTaken (uid g : Nat) : Fits.Statement (.heldTrapTaken uid g) := fits_event rfl
theorem Fits.stopBroadcastArrival (uid g : Nat) : Fits.Statement (.stopBroadcastArrival uid g) := fits_event rfl
theorem Fits.fatalUnitEnd (uid : Nat) : Fits.Statement (.fatalUnitEnd uid) := fits_event rfl
theorem Fits.finalCommit (uid : Nat) : Fits.Statement (.finalCommit uid) := fits_event rfl
theorem Fits.rollbackReplay (uid : Nat) : Fits.Statement (.rollbackReplay uid) := fits_event rfl
theorem Fits.rollbackResume (uid : Nat) : Fits.Statement (.rollbackResume uid) := fits_event rfl
theorem Fits.hbmTransfer (die sector : Nat) (write : Bool) : Fits.Statement (.hbmTransfer die sector write) := fits_event rfl
theorem Fits.parityRetry (die ch : Nat) : Fits.Statement (.parityRetry die ch) := fits_event rfl
theorem Fits.laneSwapDone (die ch : Nat) : Fits.Statement (.laneSwapDone die ch) := fits_event rfl
theorem Fits.mxStoRowsPerformed (uid g : Nat) : Fits.Statement (.mxStoRowsPerformed uid g) := fits_event rfl
theorem Fits.getBytesPerformed (uid g : Nat) : Fits.Statement (.getBytesPerformed uid g) := fits_event rfl
theorem Fits.remWindowAccess (acc : RemAccess) : Fits.Statement (.remWindowAccess acc) := fits_event rfl

end Sys2Proof.Laws
end

