-- ==== Sys2Proof/Laws/Quiet.lean ====
section
/-! SUPPORT. What the binder and the raising of traps can do (`Quiet`): they touch names, traps and their counters, and
leave memory, registers, dies, the hub, the threads' places, results in flight and every queue alone. One lemma for each
operation; a word's effect is read off its last writes. -/

namespace Sys2Proof.Machine

open Sys2Proof

/-- A thread without the condition it met. -/
def Thread.calm (h : Thread) : Thread := { h with cond := none, condAt := 0 }

/-- A gable frame without its names. -/
def GableFrame.calm (f : GableFrame) : GableFrame := { f with names := [], nslot := 0 }

/-- A group without what the binder and traps write. -/
def Group.calm (x : Group) : Group :=
  { x with names := [], gstack := x.gstack.map GableFrame.calm, trap := none, heldConds := [], pause := none, nslot := 0,
           stopAt := none, threads := x.threads.map Thread.calm }

/-- A unit without what the binder and traps write. -/
def DUnit.calm (u : DUnit) : DUnit := { u with groups := u.groups.map Group.calm, nslot := 0, fatalClk := none }

/-- A core without what the binder and traps write. -/
def Core.calm (c : Core) : Core := { c with parts := [], noslot := [], journal := [], outQ := [] }

/-- A partition without its counters and staging places. -/
def Part.calm (p : Part) : Part := { p with counting := [], staging := [] }

/-- A state without its units and cores. -/
def State.rest (s : State) : State := { s with units := [], cores := [] }

/-- The second state differs from the first in what the binder and traps write, at most. -/
structure Quiet (s t : State) : Prop where
  rest : t.rest = s.rest
  units : t.units.map DUnit.calm = s.units.map DUnit.calm
  core : ∀ c, (coreOf t c).calm = (coreOf s c).calm
  part : ∀ c p, (partOf (coreOf t c) p).calm = (partOf (coreOf s c) p).calm

theorem Quiet.refl (s : State) : Quiet s s := ⟨rfl, rfl, fun _ => rfl, fun _ _ => rfl⟩

theorem Quiet.trans {s t u : State} (h : Quiet s t) (k : Quiet t u) : Quiet s u :=
  ⟨k.rest.trans h.rest, k.units.trans h.units, fun c => (k.core c).trans (h.core c), fun c p => (k.part c p).trans (h.part c p)⟩

theorem Quiet.foldl {α : Type} {f : State → α → State} (hf : ∀ s a, Quiet s (f s a)) (l : List α) (s : State) : Quiet s (l.foldl f s) := by
  induction l generalizing s with
  | nil => exact Quiet.refl s
  | cons a l ih => exact (hf s a).trans (ih _)

theorem Quiet.foldl_fst {α β : Type} {f : State × β → α → State × β} (hf : ∀ q a, Quiet q.1 (f q a).1) (l : List α) (q : State × β) :
    Quiet q.1 (l.foldl f q).1 := by
  induction l generalizing q with
  | nil => exact Quiet.refl q.1
  | cons a l ih => exact (hf q a).trans (ih _)

theorem Quiet.modUnit (s : State) (uid : Nat) {f : DUnit → DUnit} (hf : ∀ u, (f u).calm = u.calm) : Quiet s (modUnit s uid f) := by
  refine ⟨rfl, ?_, fun _ => rfl, fun _ _ => rfl⟩
  simp only [Machine.modUnit, List.map_map]
  refine List.map_congr_left fun u _ => ?_
  simp only [Function.comp]
  split
  · exact hf u
  · rfl

theorem Quiet.modGroup (s : State) (uid g : Nat) {f : Group → Group} (hf : ∀ x, (f x).calm = x.calm) : Quiet s (modGroup s uid g f) := by
  refine Quiet.modUnit s uid fun u => ?_
  have : (u.groups.map (fun x => if x.gidx == g then f x else x)).map Group.calm = u.groups.map Group.calm := by
    rw [List.map_map]
    refine List.map_congr_left fun x _ => ?_
    simp only [Function.comp]
    split
    · exact hf x
    · rfl
  simp only [DUnit.calm, this]

theorem Quiet.modCore (s : State) (c : Nat) {f : Core → Core} (hf : ∀ x, (f x).calm = x.calm ∧ (f x).parts = x.parts) : Quiet s (modCore s c f) := by
  refine ⟨rfl, rfl, fun d => ?_, fun d p => ?_⟩ <;> rw [coreOf_modCore] <;> split
  · exact (hf _).1
  · rfl
  · simp only [partOf, (hf _).2]
  · rfl

theorem Quiet.modPart (s : State) (c p : Nat) {f : Part → Part} (hf : ∀ x, (f x).calm = x.calm) : Quiet s (modPart s c p f) := by
  refine ⟨rfl, rfl, fun d => ?_, fun d q => ?_⟩ <;> unfold Machine.modPart <;> rw [coreOf_modCore] <;> split
  · rfl
  · rfl
  · simp only [partOf, mget_mset]
    by_cases h : q = p
    · simp only [h, if_true, Option.getD_some]; exact hf _
    · simp only [if_neg h]
  · rfl

/-- A group after a quiet change: all but what the binder and traps write is as before. -/
theorem Quiet.group {s t : State} (h : Quiet s t) {uid g : Nat} {x : Group} (hx : groupOf s uid g = some x) :
    ∃ y, groupOf t uid g = some y ∧ y.calm = x.calm := by
  have hu : (unitOf t uid).map DUnit.calm = (unitOf s uid).map DUnit.calm := by
    have key : ∀ l : List DUnit, (l.find? (fun u => u.uid == uid)).map DUnit.calm = (l.map DUnit.calm).find? (fun u => u.uid == uid) := by
      intro l
      induction l with
      | nil => rfl
      | cons u l ih => simp only [List.map_cons, List.find?_cons]; rw [show u.calm.uid = u.uid from rfl]; split <;> simp_all
    unfold unitOf
    rw [key, key, h.units]
  have hg : ∀ u : DUnit, (groupIn u g).map Group.calm = (u.calm.groups.find? (fun y => y.gidx == g)) := by
    intro u
    unfold groupIn DUnit.calm
    generalize u.groups = l
    induction l with
    | nil => rfl
    | cons y l ih => simp only [List.map_cons, List.find?_cons]; rw [show y.calm.gidx = y.gidx from rfl]; split <;> simp_all
  unfold groupOf at hx ⊢
  rcases hs : unitOf s uid with _ | u
  · simp [hs] at hx
  · rw [hs] at hx hu
    rcases ht : unitOf t uid with _ | v
    · simp [ht] at hu
    · rw [ht] at hu
      simp only [Option.map_some, Option.some.injEq] at hu
      simp only [Option.bind_some] at hx ⊢
      have h1 := hg u
      have h2 := hg v
      rw [hu, ← h1, hx] at h2
      rcases hv : groupIn v g with _ | y
      · simp [hv] at h2
      · rw [hv] at h2
        exact ⟨y, rfl, by simpa using h2⟩

theorem Quiet.mem {s t : State} (h : Quiet s t) : t.mem = s.mem := by
  have k := congrArg State.mem h.rest
  exact k
theorem Quiet.regs {s t : State} (h : Quiet s t) : t.regs = s.regs := by
  have k := congrArg State.regs h.rest
  exact k
theorem Quiet.seq {s t : State} (h : Quiet s t) : t.seq = s.seq := by
  have k := congrArg State.seq h.rest
  exact k
theorem Quiet.iss {s t : State} (h : Quiet s t) : t.iss = s.iss := by
  have k := congrArg State.iss h.rest
  exact k
theorem Quiet.pend {s t : State} (h : Quiet s t) (c : Nat) : (coreOf t c).pend = (coreOf s c).pend := by
  have k := congrArg Core.pend (h.core c)
  exact k
theorem Quiet.clk {s t : State} (h : Quiet s t) (c : Nat) : (coreOf t c).clk = (coreOf s c).clk := by
  have k := congrArg Core.clk (h.core c)
  exact k

/-! Updates of groups that are quiet. -/

theorem Group.calm_names (x : Group) (ns : List NameSt) : ({ x with names := ns } : Group).calm = x.calm := rfl
theorem calm_modName (x : Group) (c : NClass) (n : Nat) (f : NameSt → NameSt) : (modName x c n f).calm = x.calm := rfl

theorem calm_modAt (l : List GableFrame) (n : Nat) {f : GableFrame → GableFrame} (hf : ∀ x, (f x).calm = x.calm) :
    (modAt l n f).map GableFrame.calm = l.map GableFrame.calm := by
  induction l generalizing n with
  | nil => rfl
  | cons a l ih => cases n <;> simp [modAt, hf, ih]

theorem calm_modLevelName (x : Group) (level : Nat) (c : NClass) (n : Nat) (f : NameSt → NameSt) :
    (modLevelName x level c n f).calm = x.calm := by
  unfold modLevelName
  split
  · rfl
  · simp only [Group.calm]
    congr 1
    exact calm_modAt _ _ fun _ => rfl

theorem calm_modThread (x : Group) (t : Nat) {f : Thread → Thread} (hf : ∀ h, (f h).calm = h.calm) : (modThread x t f).calm = x.calm := by
  simp only [modThread, Group.calm, List.map_map]
  congr 1
  refine List.map_congr_left fun h _ => ?_
  simp only [Function.comp]
  split
  · exact hf h
  · rfl

theorem calm_dropAt (x : Group) (w : Nat) (ts : List Nat) (b : Bool) : (dropAt x w ts b).calm = x.calm := rfl
theorem calm_readName (x : Group) (c : NClass) (n : Nat) (ts : List Nat) : (readName x c n ts).calm = x.calm := rfl
theorem calm_beginWrite (x : Group) (c : NClass) (n cc id : Nat) (ts : List Nat) : (beginWrite x c n cc id ts).calm = x.calm := rfl
theorem calm_onEntry (x : Group) (c : NClass) (n t : Nat) (f : NameSt → Entry → Entry) : (onEntry x c n t f).calm = x.calm := rfl

theorem calm_foldl {α : Type} {f : Group → α → Group} (hf : ∀ x a, (f x a).calm = x.calm) (l : List α) (x : Group) :
    (l.foldl f x).calm = x.calm := by
  induction l generalizing x with
  | nil => rfl
  | cons a l ih => rw [List.foldl_cons, ih, hf]

/-! The operations. -/

theorem countEvent_quiet (s : State) (core part dom code n : Nat) : Quiet s (countEvent s core part dom code n) := by
  unfold countEvent
  split
  · exact Quiet.refl s
  · exact Quiet.modPart s core part fun _ => rfl

theorem takeSlots_quiet (s : State) (uid g level n : Nat) : Quiet s (takeSlots s uid g level n) := by
  unfold takeSlots
  split
  · exact Quiet.refl s
  · split
    · exact Quiet.modUnit _ _ fun _ => rfl
    · split
      · exact Quiet.modGroup _ _ _ fun _ => rfl
      · refine Quiet.modGroup _ _ _ fun y => ?_
        simp only [Group.calm]
        congr 1
        exact calm_modAt _ _ fun _ => rfl

theorem giveSlot_quiet (s : State) (uid g level : Nat) (c : NClass) (n : Nat) : Quiet s (giveSlot s uid g level c n) := by
  unfold giveSlot
  split
  · split
    · exact Quiet.refl s
    · split
      · exact Quiet.refl s
      · exact (Quiet.modGroup _ _ _ fun y => calm_modLevelName y level c n _).trans (takeSlots_quiet _ _ _ _ _)
  · exact Quiet.refl s

theorem writeOutName_quiet (s : State) (uid g level : Nat) (c : NClass) (n : Nat) (b : Bool) : Quiet s (writeOutName s uid g level c n b) :=
  (giveSlot_quiet s uid g level c n).trans (Quiet.modGroup _ _ _ fun x => calm_modLevelName x level c n _)

theorem claimName_quiet (s : State) (uid g level : Nat) (c : NClass) (n : Nat) (b : Bool) : Quiet s (claimName s uid g level c n b) := by
  unfold claimName
  split
  · exact Quiet.refl s
  · exact (countEvent_quiet _ _ _ _ _ _).trans (writeOutName_quiet _ _ _ _ _ _ _)

theorem pauseGroup_quiet (s : State) (uid g n : Nat) (moves wants : List (NClass × Nat)) : Quiet s (pauseGroup s uid g n moves wants) :=
  Quiet.modGroup _ _ _ fun _ => rfl

theorem countNoslot_quiet (s : State) (core slot : Nat) : Quiet s (countNoslot s core slot) := Quiet.modCore _ _ fun _ => ⟨rfl, rfl⟩

theorem setCond_quiet (s : State) (uid g t : Nat) (c : Cond) : Quiet s (setCond s uid g t c) :=
  Quiet.modGroup _ _ _ fun x => calm_modThread x t fun _ => rfl

/-- The stop broadcast of a fatal trap (R306). -/
theorem fatalUnit_quiet (s : State) (uid g : Nat) : Quiet s (fatalUnit s uid g) := by
  unfold fatalUnit
  split
  · split
    · exact Quiet.refl s
    · refine Quiet.foldl (fun s v => Quiet.modUnit _ _ fun w => ?_) _ s
      simp only [DUnit.calm, List.map_map]
      congr 1
      refine List.map_congr_left fun y _ => ?_
      simp only [Function.comp]
      split <;> rfl
  · exact Quiet.refl s

/-- A group meets a condition (R298). -/
theorem startTrap_quiet (s : State) (uid g : Nat) (c : Cond) (f : Bool) : Quiet s (startTrap s uid g c f) := by
  unfold startTrap
  split
  · split
    · exact Quiet.refl s
    · have key : ∀ t (b : Bool), Quiet s t → Quiet s (if b then fatalUnit t uid g else t) := by
        intro t b ht
        split
        · exact ht.trans (fatalUnit_quiet _ _ _)
        · exact ht
      refine key _ _ ?_
      split
      · refine Quiet.trans ?_ (countEvent_quiet _ _ _ _ _ _)
        exact Quiet.modGroup _ _ _ fun _ => rfl
      · split <;> exact Quiet.modGroup _ _ _ fun _ => rfl
  · exact Quiet.refl s

theorem setRes_quiet (s : State) (uid g level slot : Nat) (c : NClass) (n : Nat) (r : List Nat) : Quiet s (setRes s uid g level slot c n r) :=
  Quiet.modGroup _ _ _ fun x => calm_modLevelName x level c n _

theorem markSpilled_quiet (s : State) (uid g level : Nat) (c : NClass) (n : Nat) : Quiet s (markSpilled s uid g level c n) :=
  (giveSlot_quiet s uid g level c n).trans (Quiet.modGroup _ _ _ fun x => calm_modLevelName x level c n _)

theorem writeOutFailed_quiet (s : State) (uid g level : Nat) (c : NClass) (n : Nat) (e : (Nat × Nat) × Nat) : Quiet s (writeOutFailed s uid g level c n e) := by
  unfold writeOutFailed
  split
  · exact Quiet.refl s
  · exact (Quiet.modGroup _ _ _ fun y => calm_modLevelName y level c n _).trans (startTrap_quiet _ _ _ _ _)

theorem queueOut_quiet (s : State) (core : Nat) (hs : List Holder) : Quiet s (queueOut s core hs) := Quiet.modCore _ _ fun _ => ⟨rfl, rfl⟩

theorem claimHolder_quiet (q : State × Bool) (h : Holder) : Quiet q.1 (claimHolder q h).1 := by
  unfold claimHolder
  dsimp only
  split
  · exact (giveSlot_quiet _ _ _ _ _ _).trans (writeOutFailed_quiet _ _ _ _ _ _ _)
  · exact (giveSlot_quiet _ _ _ _ _ _).trans (claimName_quiet _ _ _ _ _ _ _)

theorem claimAll_quiet (s : State) (x : Group) (c : NClass) (res : List Nat) : Quiet s (claimAll s x c res).1 :=
  (queueOut_quiet s x.core _).trans (Quiet.foldl_fst (fun q h => claimHolder_quiet q h) _ (queueOut s x.core _, true))

theorem countRefused_quiet (s : State) (uid g slot : Nat) (c : NClass) (pinned : Bool) : Quiet s (countRefused s uid g slot c pinned) := by
  unfold countRefused
  split
  · exact Quiet.refl s
  · split
    · exact Quiet.refl s
    · exact Quiet.foldl (fun s k => countNoslot_quiet _ _ _) _ s

theorem bindLoop_quiet (uid g level slot : Nat) (c : NClass) (n : Nat) (pinned : Bool) (fuel : Nat) (s : State) :
    Quiet s (bindLoop uid g level slot c n pinned fuel s).1 := by
  induction fuel generalizing s with
  | zero => exact Quiet.refl s
  | succ fuel ih =>
    unfold bindLoop
    split
    · exact Quiet.refl s
    · split
      · exact Quiet.refl s
      · split
        · exact setRes_quiet _ _ _ _ _ _ _ _
        · split
          · exact Quiet.refl s
          · dsimp only
            split
            · exact (claimAll_quiet _ _ _ _).trans (setRes_quiet _ _ _ _ _ _ _ _)
            · exact (claimAll_quiet _ _ _ _).trans (ih _)

theorem bindName_quiet (s : State) (uid g level slot : Nat) (c : NClass) (n : Nat) (pinned : Bool) : Quiet s (bindName s uid g level slot c n pinned).1 :=
  (countRefused_quiet _ _ _ _ _ _).trans (bindLoop_quiet _ _ _ _ _ _ _ _ _)

/-- A write that finds no resource (R62, R316). -/
theorem spillForWrite_quiet (s : State) (uid g : Nat) (x : Group) (m : NameSt) (c : NClass) (n : Nat) (ops : List (NClass × Nat)) :
    Quiet s (spillForWrite s uid g x m c n ops) := by
  unfold spillForWrite
  split
  · dsimp only
    split
    · exact (giveSlot_quiet _ _ _ _ _ _).trans (writeOutFailed_quiet _ _ _ _ _ _ _)
    · exact ((((giveSlot_quiet _ _ _ _ _ _).trans (claimName_quiet _ _ _ _ _ _ _)).trans (markSpilled_quiet _ _ _ _ _ _)).trans
        (pauseGroup_quiet _ _ _ _ _ _)).trans (setRes_quiet _ _ _ _ _ _ _ _)
  · split
    · exact (markSpilled_quiet _ _ _ _ _ _).trans (pauseGroup_quiet _ _ _ _ _ _)
    · exact (pauseGroup_quiet _ _ _ _ _ _).trans (countNoslot_quiet _ _ _)

/-- A name bound at its write (R52, R62, R316). -/
theorem bindAtWrite_quiet (s : State) (uid g : Nat) (c : NClass) (n : Nat) (ops : List (NClass × Nat)) : Quiet s (bindAtWrite s uid g c n ops) := by
  unfold bindAtWrite
  split
  · exact Quiet.refl s
  · split
    · exact Quiet.refl s
    · split
      · exact Quiet.refl s
      · have h := fun k => bindName_quiet s uid g 0 k c n false
        dsimp only
        generalize (@ite Nat (_ = true) (instDecidableEqBool _ true) _ _) = k
        split
        · exact h k
        · exact (h k).trans (spillForWrite_quiet _ _ _ _ _ _ _ _)

theorem raiseThread_quiet (s : State) (uid g t : Nat) (c : Cond) : Quiet s (raiseThread s uid g t c) := by
  unfold raiseThread
  split
  · exact Quiet.refl s
  · split
    · exact Quiet.refl s
    · split
      · exact (setCond_quiet _ _ _ _ _).trans (startTrap_quiet _ _ _ _ _)
      · split
        · exact setCond_quiet _ _ _ _ _
        · exact (setCond_quiet _ _ _ _ _).trans (startTrap_quiet _ _ _ _ _)

/-- The synchronous conditions of an issue (R291). -/
theorem raiseSync_quiet (s : State) (uid g : Nat) (group fetch : Bool) (present : List Nat) (bad : List (Nat × (Nat × Nat)))
    (addr : Nat → Nat × Nat → Nat) (taddr : Nat → Nat × Nat → NMap Nat) : Quiet s (raiseSync s uid g group fetch present bad addr taddr) := by
  refine Quiet.foldl (fun s b => ?_) _ s
  split
  · exact Quiet.refl s
  · exact raiseThread_quiet _ _ _ _ _

/-- An asynchronous condition (R304). -/
theorem raiseAsync_quiet (s : State) (uid g : Nat) (c : Cond) (f : Bool) : Quiet s (raiseAsync s uid g c f) := by
  unfold raiseAsync
  split
  · exact Quiet.refl s
  · split
    · exact startTrap_quiet _ _ _ _ _
    · split
      · exact Quiet.modGroup _ _ _ fun _ => rfl
      · exact startTrap_quiet _ _ _ _ _

theorem fatalStop_quiet (s : State) (uid g d addr : Nat) (ts : List Nat) : Quiet s (fatalStop s uid g d addr ts) := by
  unfold fatalStop
  split
  · exact Quiet.refl s
  · exact startTrap_quiet _ _ _ _ _

theorem journalTouch_quiet (s : State) (uid g core piece n : Nat) : Quiet s (journalTouch s uid g core piece n) := by
  unfold journalTouch
  split
  · exact Quiet.refl s
  · simp only
    split
    · exact Quiet.refl s
    · split
      · exact fatalStop_quiet _ _ _ _ _ _
      · exact Quiet.modCore s core (f := fun c => { c with journal := c.journal ++ [(uid * 2 ^ 48 + piece, n)] }) fun _ => ⟨rfl, rfl⟩

theorem journalNames_quiet (s : State) (uid g : Nat) (ts : List Nat) (dsts : List (NClass × Nat)) : Quiet s (journalNames s uid g ts dsts) := by
  unfold journalNames
  split
  · split
    · exact Quiet.refl s
    · exact Quiet.foldl (fun s d => journalTouch_quiet _ _ _ _ _ _) _ s
  · exact Quiet.refl s

theorem touchStaged_quiet (s : State) (uid g : Nat) (ops : List (NClass × Nat)) : Quiet s (touchStaged s uid g ops) := by
  unfold touchStaged
  split
  · exact Quiet.refl s
  · simp only
    split
    · exact Quiet.modPart _ _ _ fun _ => rfl
    · exact Quiet.refl s

/-- The binding actions of an issue (R53, R54). -/
theorem beginWord_quiet (s : State) (i : Instr) (uid g : Nat) (ts : List Nat) (b : Bool) (dsts : List (NClass × Nat)) (id : Nat) :
    Quiet s (beginWord s i uid g ts b dsts id) := by
  unfold beginWord
  refine Quiet.trans ?_ (Quiet.modGroup _ _ _ fun x => calm_foldl (fun x a => calm_beginWrite x _ _ _ _ _) _ x)
  refine Quiet.trans ?_ (journalNames_quiet _ _ _ _ _)
  refine Quiet.trans ?_ (Quiet.foldl (fun s cn => bindAtWrite_quiet _ _ _ _ _ _) _ _)
  refine Quiet.trans ?_ (Quiet.modGroup _ _ _ fun x => calm_foldl (fun x a => calm_readName x _ _ _) _ x)
  exact (touchStaged_quiet _ _ _ _).trans (Quiet.modGroup _ _ _ fun x => calm_dropAt x _ _ _)

end Sys2Proof.Machine
end

