-- ==== Sys2Proof/Laws/Sound.lean ====
section
/-! SUPPORT. Every operation of the machine keeps the memory's canonical form: one lemma `f_sound` for each
operation `f` of the model that answers a state (`Sound s` says that `s.mem` has the canonical form).  A proof
about a step cites these and unfolds none of the operations. -/

namespace Sys2Proof.Machine
open Sys2Proof

/-- A fold whose every step keeps the form keeps it. -/
theorem foldl_sound {α : Type} {f : State → α → State} (hf : ∀ s a, Sound s → Sound (f s a)) (l : List α) (s : State) (h : Sound s) :
    Sound (l.foldl f s) := by
  induction l generalizing s with
  | nil => exact h
  | cons a l ih => exact ih _ (hf _ _ h)


/-- The same of a fold that carries something beside the state. -/
theorem foldl_fst_sound {α β : Type} {f : State × β → α → State × β} (hf : ∀ q a, Sound q.1 → Sound (f q a).1) (l : List α) (q : State × β) (h : Sound q.1) :
    Sound (l.foldl f q).1 := by
  induction l generalizing q with
  | nil => exact h
  | cons a l ih => exact ih _ (hf _ _ h)

/-- `Sound` is the canonical form of the memory. -/
theorem wf_of_sound {s : State} (h : Sound s) : Memory.wf s.mem = true := h

/-- A state is sound when its memory field is in canonical form, whatever the other fields hold. -/
theorem sound_mk {m : List Host.Cell} {a b c d e f g i j k l n o} : Sound (State.mk m a b c d e f g i j k l n o) = (Memory.wf m = true) := rfl

theorem wrReg_sound (s : State) (r : Reg) (v : Nat) (h : Sound s) : Sound (wrReg s r v) := by
  unfold wrReg
  repeat' first | with_reducible assumption | with_reducible refine foldl_sound (fun _ _ _ => ?_) _ _ ?_ | with_reducible refine foldl_fst_sound (fun _ _ _ => ?_) _ _ ?_ | split | dsimp only | (simp only [sound_mk]; refine wf_of_sound ?_)

theorem setCore_sound (s : State) (c : Nat) (x : Core) (h : Sound s) : Sound (setCore s c x) := by
  unfold setCore
  repeat' first | with_reducible assumption | with_reducible refine foldl_sound (fun _ _ _ => ?_) _ _ ?_ | with_reducible refine foldl_fst_sound (fun _ _ _ => ?_) _ _ ?_ | split | dsimp only | (simp only [sound_mk]; refine wf_of_sound ?_)

theorem modCore_sound (s : State) (c : Nat) (f : Core → Core) (h : Sound s) : Sound (modCore s c f) := by
  unfold modCore
  repeat' first | with_reducible assumption | with_reducible apply setCore_sound | with_reducible refine foldl_sound (fun _ _ _ => ?_) _ _ ?_ | with_reducible refine foldl_fst_sound (fun _ _ _ => ?_) _ _ ?_ | split | dsimp only | (simp only [sound_mk]; refine wf_of_sound ?_)

theorem modPart_sound (s : State) (c : Nat) (p : Nat) (f : Part → Part) (h : Sound s) : Sound (modPart s c p f) := by
  unfold modPart
  repeat' first | with_reducible assumption | with_reducible apply modCore_sound | with_reducible refine foldl_sound (fun _ _ _ => ?_) _ _ ?_ | with_reducible refine foldl_fst_sound (fun _ _ _ => ?_) _ _ ?_ | split | dsimp only | (simp only [sound_mk]; refine wf_of_sound ?_)

theorem modDie_sound (s : State) (d : Nat) (f : Die → Die) (h : Sound s) : Sound (modDie s d f) := by
  unfold modDie
  repeat' first | with_reducible assumption | with_reducible refine foldl_sound (fun _ _ _ => ?_) _ _ ?_ | with_reducible refine foldl_fst_sound (fun _ _ _ => ?_) _ _ ?_ | split | dsimp only | (simp only [sound_mk]; refine wf_of_sound ?_)

theorem modUnit_sound (s : State) (uid : Nat) (f : DUnit → DUnit) (h : Sound s) : Sound (modUnit s uid f) := by
  unfold modUnit
  repeat' first | with_reducible assumption | with_reducible refine foldl_sound (fun _ _ _ => ?_) _ _ ?_ | with_reducible refine foldl_fst_sound (fun _ _ _ => ?_) _ _ ?_ | split | dsimp only | (simp only [sound_mk]; refine wf_of_sound ?_)

theorem modGroup_sound (s : State) (uid : Nat) (g : Nat) (f : Group → Group) (h : Sound s) : Sound (modGroup s uid g f) := by
  unfold modGroup
  repeat' first | with_reducible assumption | with_reducible apply modUnit_sound | with_reducible refine foldl_sound (fun _ _ _ => ?_) _ _ ?_ | with_reducible refine foldl_fst_sound (fun _ _ _ => ?_) _ _ ?_ | split | dsimp only | (simp only [sound_mk]; refine wf_of_sound ?_)

theorem modGroups_sound (s : State) (uid : Nat) (f : Group → Group) (h : Sound s) : Sound (modGroups s uid f) := by
  unfold modGroups
  repeat' first | with_reducible assumption | with_reducible apply modUnit_sound | with_reducible refine foldl_sound (fun _ _ _ => ?_) _ _ ?_ | with_reducible refine foldl_fst_sound (fun _ _ _ => ?_) _ _ ?_ | split | dsimp only | (simp only [sound_mk]; refine wf_of_sound ?_)

theorem fresh_sound (s : State) (h : Sound s) : Sound (fresh s).2 := by
  unfold fresh
  repeat' first | with_reducible assumption | with_reducible refine foldl_sound (fun _ _ _ => ?_) _ _ ?_ | with_reducible refine foldl_fst_sound (fun _ _ _ => ?_) _ _ ?_ | split | dsimp only | (simp only [sound_mk]; refine wf_of_sound ?_)

theorem modHub_sound (s : State) (f : Hub → Hub) (h : Sound s) : Sound (modHub s f) := by
  unfold modHub
  repeat' first | with_reducible assumption | with_reducible refine foldl_sound (fun _ _ _ => ?_) _ _ ?_ | with_reducible refine foldl_fst_sound (fun _ _ _ => ?_) _ _ ?_ | split | dsimp only | (simp only [sound_mk]; refine wf_of_sound ?_)

theorem countEvent_sound (s : State) (core : Nat) (part : Nat) (dom : Nat) (code : Nat) (n : Nat) (h : Sound s) : Sound (countEvent s core part dom code n) := by
  unfold countEvent
  repeat' first | with_reducible assumption | with_reducible apply modPart_sound | with_reducible refine foldl_sound (fun _ _ _ => ?_) _ _ ?_ | with_reducible refine foldl_fst_sound (fun _ _ _ => ?_) _ _ ?_ | split | dsimp only | (simp only [sound_mk]; refine wf_of_sound ?_)

theorem countReq_sound (s : State) (core : Nat) (t : Tagged) (n : Nat) (h : Sound s) : Sound (countReq s core t n) := by
  induction n generalizing s with
  | zero => exact h
  | succ n ih =>
    unfold countReq
    dsimp only
    split
    · exact h
    · exact ih _ (modCore_sound _ _ _ h)

theorem putByte_sound (n : Nat) (s : State) (pa : Nat) (b : Byte) (h : Sound s) : Sound (putByte n s pa b) := Memory.wf_write pa b h

theorem putBytes_sound (n : Nat) (s : State) (pa : Nat) (bs : List Byte) (h : Sound s) : Sound (putBytes n s pa bs) := by
  induction bs generalizing s pa with
  | nil => exact h
  | cons b l ih => exact ih _ _ (putByte_sound n s pa b h)

theorem homeWrite_sound (s : State) (pa : Nat) (bs : List Byte) (h : Sound s) : Sound (homeWrite s pa bs) :=
  putBytes_sound s.seq { s with seq := s.seq + 1 } pa bs h

theorem l1Touch_sound (s : State) (core : Nat) (slot : Nat) (pa : Nat) (h : Sound s) : Sound (l1Touch s core slot pa) := by
  unfold l1Touch
  repeat' first | with_reducible assumption | with_reducible apply setCore_sound | with_reducible refine foldl_sound (fun _ _ _ => ?_) _ _ ?_ | with_reducible refine foldl_fst_sound (fun _ _ _ => ?_) _ _ ?_ | split | dsimp only | (simp only [sound_mk]; refine wf_of_sound ?_)

theorem takeSlots_sound (s : State) (uid : Nat) (g : Nat) (level : Nat) (n : Nat) (h : Sound s) : Sound (takeSlots s uid g level n) := by
  unfold takeSlots
  repeat' first | with_reducible assumption | with_reducible apply modUnit_sound | with_reducible apply modGroup_sound | with_reducible refine foldl_sound (fun _ _ _ => ?_) _ _ ?_ | with_reducible refine foldl_fst_sound (fun _ _ _ => ?_) _ _ ?_ | split | dsimp only | (simp only [sound_mk]; refine wf_of_sound ?_)

theorem giveSlot_sound (s : State) (uid : Nat) (g : Nat) (level : Nat) (c : NClass) (n : Nat) (h : Sound s) : Sound (giveSlot s uid g level c n) := by
  unfold giveSlot
  repeat' first | with_reducible assumption | with_reducible apply takeSlots_sound | with_reducible apply modGroup_sound | with_reducible refine foldl_sound (fun _ _ _ => ?_) _ _ ?_ | with_reducible refine foldl_fst_sound (fun _ _ _ => ?_) _ _ ?_ | split | dsimp only | (simp only [sound_mk]; refine wf_of_sound ?_)

theorem writeOutName_sound (s : State) (uid : Nat) (g : Nat) (level : Nat) (c : NClass) (n : Nat) (claim : Bool) (h : Sound s) : Sound (writeOutName s uid g level c n claim) := by
  unfold writeOutName
  repeat' first | with_reducible assumption | with_reducible apply modGroup_sound | with_reducible apply giveSlot_sound | with_reducible refine foldl_sound (fun _ _ _ => ?_) _ _ ?_ | with_reducible refine foldl_fst_sound (fun _ _ _ => ?_) _ _ ?_ | split | dsimp only | (simp only [sound_mk]; refine wf_of_sound ?_)

theorem claimName_sound (s : State) (uid : Nat) (g : Nat) (level : Nat) (c : NClass) (n : Nat) (claim : Bool) (h : Sound s) : Sound (claimName s uid g level c n claim) := by
  unfold claimName
  repeat' first | with_reducible assumption | with_reducible apply writeOutName_sound | with_reducible apply countEvent_sound | with_reducible refine foldl_sound (fun _ _ _ => ?_) _ _ ?_ | with_reducible refine foldl_fst_sound (fun _ _ _ => ?_) _ _ ?_ | split | dsimp only | (simp only [sound_mk]; refine wf_of_sound ?_)

theorem setRes_sound (s : State) (uid : Nat) (g : Nat) (level : Nat) (slot : Nat) (c : NClass) (n : Nat) (r : List Nat) (h : Sound s) : Sound (setRes s uid g level slot c n r) := by
  unfold setRes
  repeat' first | with_reducible assumption | with_reducible apply modGroup_sound | with_reducible refine foldl_sound (fun _ _ _ => ?_) _ _ ?_ | with_reducible refine foldl_fst_sound (fun _ _ _ => ?_) _ _ ?_ | split | dsimp only | (simp only [sound_mk]; refine wf_of_sound ?_)

theorem pauseGroup_sound (s : State) (uid : Nat) (g : Nat) (n : Nat) (moves wants : List (NClass × Nat)) (h : Sound s) : Sound (pauseGroup s uid g n moves wants) := by
  unfold pauseGroup
  repeat' first | with_reducible assumption | with_reducible apply modGroup_sound | with_reducible refine foldl_sound (fun _ _ _ => ?_) _ _ ?_ | with_reducible refine foldl_fst_sound (fun _ _ _ => ?_) _ _ ?_ | split | dsimp only | (simp only [sound_mk]; refine wf_of_sound ?_)

theorem countNoslot_sound (s : State) (core : Nat) (slot : Nat) (h : Sound s) : Sound (countNoslot s core slot) := by
  unfold countNoslot
  repeat' first | with_reducible assumption | with_reducible apply modCore_sound | with_reducible refine foldl_sound (fun _ _ _ => ?_) _ _ ?_ | with_reducible refine foldl_fst_sound (fun _ _ _ => ?_) _ _ ?_ | split | dsimp only | (simp only [sound_mk]; refine wf_of_sound ?_)

theorem markSpilled_sound (s : State) (uid : Nat) (g : Nat) (level : Nat) (c : NClass) (n : Nat) (h : Sound s) : Sound (markSpilled s uid g level c n) := by
  unfold markSpilled
  repeat' first | with_reducible assumption | with_reducible apply modGroup_sound | with_reducible apply giveSlot_sound | with_reducible refine foldl_sound (fun _ _ _ => ?_) _ _ ?_ | with_reducible refine foldl_fst_sound (fun _ _ _ => ?_) _ _ ?_ | split | dsimp only | (simp only [sound_mk]; refine wf_of_sound ?_)

theorem injectStep_sound {s : State} {die ch : Nat} (h : Sound s) : Sound (injectStep s die ch).2 := by
  unfold injectStep
  dsimp only
  split
  · exact h
  · split
    · exact wrReg_sound _ _ _ (wrReg_sound _ _ _ h)
    · exact wrReg_sound _ _ _ h

theorem beat_sound {s : State} {die sec b : Nat} {w : Bool} (h : Sound s) : Sound (beat s die sec b w).2.2 := by
  have h1 : Sound (injectStep s die (sectorChan sec)).2 := injectStep_sound h
  unfold beat
  dsimp only
  generalize injectStep s die (sectorChan sec) = r at h1 ⊢
  repeat' first | exact h1 | with_reducible apply modDie_sound | split | dsimp only

theorem attempt_sound {s : State} {die sec : Nat} {w : Bool} (h : Sound s) : Sound (attempt s die sec w).2 := beat_sound (beat_sound h)

theorem countLog_sound (s : State) (die : Nat) (hi : Nat) (lo : Nat) (h : Sound s) : Sound (countLog s die hi lo) := by
  unfold countLog
  repeat' first | with_reducible assumption | with_reducible apply wrReg_sound | with_reducible refine foldl_sound (fun _ _ _ => ?_) _ _ ?_ | with_reducible refine foldl_fst_sound (fun _ _ _ => ?_) _ _ ?_ | split | dsimp only | (simp only [sound_mk]; refine wf_of_sound ?_)

theorem moveHead_sound (s : State) (die : Nat) (hi : Nat) (lo : Nat) (h : Sound s) : Sound (moveHead s die hi lo) := by
  unfold moveHead
  repeat' first | with_reducible assumption | with_reducible apply wrReg_sound | with_reducible refine foldl_sound (fun _ _ _ => ?_) _ _ ?_ | with_reducible refine foldl_fst_sound (fun _ _ _ => ?_) _ _ ?_ | split | dsimp only | (simp only [sound_mk]; refine wf_of_sound ?_)

theorem tellFirmware_sound (s : State) (die : Nat) (code : Nat) (h : Sound s) : Sound (tellFirmware s die code) := by
  unfold tellFirmware
  repeat' first | with_reducible assumption | with_reducible apply modHub_sound | with_reducible refine foldl_sound (fun _ _ _ => ?_) _ _ ?_ | with_reducible refine foldl_fst_sound (fun _ _ _ => ?_) _ _ ?_ | split | dsimp only | (simp only [sound_mk]; refine wf_of_sound ?_)

theorem logArray_sound (s : State) (die : Nat) (sec : Nat) (ue : Bool) (bit : Nat) (h : Sound s) : Sound (logArray s die sec ue bit) := by
  unfold logArray
  repeat' first | with_reducible assumption | with_reducible apply moveHead_sound | with_reducible apply wrReg_sound | with_reducible apply tellFirmware_sound | with_reducible apply countLog_sound | with_reducible refine foldl_sound (fun _ _ _ => ?_) _ _ ?_ | with_reducible refine foldl_fst_sound (fun _ _ _ => ?_) _ _ ?_ | split | dsimp only | (simp only [sound_mk]; refine wf_of_sound ?_)

theorem logTransfer_sound (s : State) (die : Nat) (x : Xfer) (res : Nat) (h : Sound s) : Sound (logTransfer s die x res) := by
  unfold logTransfer
  repeat' first | with_reducible assumption | with_reducible apply countLog_sound | with_reducible apply moveHead_sound | with_reducible apply wrReg_sound | with_reducible apply tellFirmware_sound | with_reducible refine foldl_sound (fun _ _ _ => ?_) _ _ ?_ | with_reducible refine foldl_fst_sound (fun _ _ _ => ?_) _ _ ?_ | split | dsimp only | (simp only [sound_mk]; refine wf_of_sound ?_)

theorem markPoison_sound (s : State) (sec : Nat) (h : Sound s) : Sound (markPoison s sec) := by
  unfold markPoison
  repeat' first | with_reducible assumption | with_reducible refine foldl_sound (fun _ _ _ => ?_) _ _ ?_ | with_reducible refine foldl_fst_sound (fun _ _ _ => ?_) _ _ ?_ | split | dsimp only | (simp only [sound_mk]; refine wf_of_sound ?_)

theorem writePassed_sound (s : State) (die : Nat) (sec : Nat) (planted : List Nat) (h : Sound s) : Sound (writePassed s die sec planted) := by
  unfold writePassed
  repeat' first | with_reducible assumption | with_reducible apply modDie_sound | with_reducible refine foldl_sound (fun _ _ _ => ?_) _ _ ?_ | with_reducible refine foldl_fst_sound (fun _ _ _ => ?_) _ _ ?_ | split | dsimp only | (simp only [sound_mk]; refine wf_of_sound ?_)

theorem pushXfer_sound (s : State) (die : Nat) (x : Xfer) (h : Sound s) : Sound (pushXfer s die x) := by
  unfold pushXfer
  repeat' first | with_reducible assumption | with_reducible apply modDie_sound | with_reducible refine foldl_sound (fun _ _ _ => ?_) _ _ ?_ | with_reducible refine foldl_fst_sound (fun _ _ _ => ?_) _ _ ?_ | split | dsimp only | (simp only [sound_mk]; refine wf_of_sound ?_)

theorem writeTransfer_sound (s : State) (die : Nat) (sec : Nat) (h : Sound s) : Sound (writeTransfer s die sec) := by
  unfold writeTransfer
  repeat' first | with_reducible assumption | with_reducible apply attempt_sound | with_reducible apply writePassed_sound | with_reducible apply pushXfer_sound | with_reducible refine foldl_sound (fun _ _ _ => ?_) _ _ ?_ | with_reducible refine foldl_fst_sound (fun _ _ _ => ?_) _ _ ?_ | split | dsimp only | (simp only [sound_mk]; refine wf_of_sound ?_)

theorem corrupt_sound (s : State) (sec : Nat) (bits : List Nat) (h : Sound s) : Sound (corrupt s sec bits) := by
  unfold corrupt
  repeat' first | with_reducible assumption | with_reducible apply homeWrite_sound | with_reducible refine foldl_sound (fun _ _ _ => ?_) _ _ ?_ | with_reducible refine foldl_fst_sound (fun _ _ _ => ?_) _ _ ?_ | split | dsimp only | (simp only [sound_mk]; refine wf_of_sound ?_)

theorem checkArray_sound (s : State) (die : Nat) (sec : Nat) (h : Sound s) : Sound (checkArray s die sec) := by
  unfold checkArray
  repeat' first | with_reducible assumption | with_reducible apply markPoison_sound | with_reducible apply writeTransfer_sound | with_reducible apply logArray_sound | with_reducible apply corrupt_sound | with_reducible refine foldl_sound (fun _ _ _ => ?_) _ _ ?_ | with_reducible refine foldl_fst_sound (fun _ _ _ => ?_) _ _ ?_ | split | dsimp only | (simp only [sound_mk]; refine wf_of_sound ?_)

theorem writeBack_sound (s : State) (die : Nat) (sec : Nat) (h : Sound s) : Sound (writeBack s die sec) := by
  unfold writeBack
  repeat' first | with_reducible assumption | with_reducible apply modDie_sound | with_reducible apply writeTransfer_sound | with_reducible refine foldl_sound (fun _ _ _ => ?_) _ _ ?_ | with_reducible refine foldl_fst_sound (fun _ _ _ => ?_) _ _ ?_ | split | dsimp only | (simp only [sound_mk]; refine wf_of_sound ?_)

theorem dropLine_sound (die : Nat) (s : State) (c : CLine) (h : Sound s) : Sound (dropLine die s c) := by
  unfold dropLine
  repeat' first | with_reducible assumption | with_reducible apply writeBack_sound | with_reducible refine foldl_sound (fun _ _ _ => ?_) _ _ ?_ | with_reducible refine foldl_fst_sound (fun _ _ _ => ?_) _ _ ?_ | split | dsimp only | (simp only [sound_mk]; refine wf_of_sound ?_)

theorem l2Fill_sound (s : State) (die : Nat) (dom : Nat) (sec : Nat) (dirty : Bool) (h : Sound s) : Sound (l2Fill s die dom sec dirty) := by
  unfold l2Fill
  repeat' first | with_reducible assumption | with_reducible apply modDie_sound | with_reducible apply dropLine_sound | with_reducible apply writeBack_sound | with_reducible refine foldl_sound (fun _ _ _ => ?_) _ _ ?_ | with_reducible refine foldl_fst_sound (fun _ _ _ => ?_) _ _ ?_ | split | dsimp only | (simp only [sound_mk]; refine wf_of_sound ?_)

theorem deliverSector_sound (s : State) (die : Nat) (sec : Nat) (h : Sound s) : Sound (deliverSector s die sec) := by
  unfold deliverSector
  repeat' first | with_reducible assumption | with_reducible apply modDie_sound | with_reducible apply l2Fill_sound | with_reducible refine foldl_sound (fun _ _ _ => ?_) _ _ ?_ | with_reducible refine foldl_fst_sound (fun _ _ _ => ?_) _ _ ?_ | split | dsimp only | (simp only [sound_mk]; refine wf_of_sound ?_)

theorem passedXfer_sound (s : State) (die : Nat) (x : Xfer) (a : Attempt) (res : Nat) (h : Sound s) : Sound (passedXfer s die x a res) := by
  unfold passedXfer
  repeat' first | with_reducible assumption | with_reducible apply logTransfer_sound | with_reducible apply writePassed_sound | with_reducible apply deliverSector_sound | with_reducible apply checkArray_sound | with_reducible refine foldl_sound (fun _ _ _ => ?_) _ _ ?_ | with_reducible refine foldl_fst_sound (fun _ _ _ => ?_) _ _ ?_ | split | dsimp only | (simp only [sound_mk]; refine wf_of_sound ?_)

theorem failXfer_sound (s : State) (die : Nat) (x : Xfer) (h : Sound s) : Sound (failXfer s die x) := by
  unfold failXfer
  repeat' first | with_reducible assumption | with_reducible apply logTransfer_sound | with_reducible apply tellFirmware_sound | with_reducible apply wrReg_sound | with_reducible apply deliverSector_sound | with_reducible apply markPoison_sound | with_reducible refine foldl_sound (fun _ _ _ => ?_) _ _ ?_ | with_reducible refine foldl_fst_sound (fun _ _ _ => ?_) _ _ ?_ | split | dsimp only | (simp only [sound_mk]; refine wf_of_sound ?_)

theorem wantSector_sound (s : State) (die : Nat) (dom : Nat) (sec : Nat) (h : Sound s) : Sound (wantSector s die dom sec) := by
  unfold wantSector
  repeat' first | with_reducible assumption | with_reducible apply modDie_sound | with_reducible refine foldl_sound (fun _ _ _ => ?_) _ _ ?_ | with_reducible refine foldl_fst_sound (fun _ _ _ => ?_) _ _ ?_ | split | dsimp only | (simp only [sound_mk]; refine wf_of_sound ?_)

theorem readTransfer_sound (s : State) (die : Nat) (sec : Nat) (h : Sound s) : Sound (readTransfer s die sec) := by
  unfold readTransfer
  repeat' first | with_reducible assumption | with_reducible apply deliverSector_sound | with_reducible apply markPoison_sound | with_reducible apply attempt_sound | with_reducible apply checkArray_sound | with_reducible apply pushXfer_sound | with_reducible refine foldl_sound (fun _ _ _ => ?_) _ _ ?_ | with_reducible refine foldl_fst_sound (fun _ _ _ => ?_) _ _ ?_ | split | dsimp only | (simp only [sound_mk]; refine wf_of_sound ?_)

theorem fetchSector_sound (s : State) (dom : Nat) (sec : Nat) (h : Sound s) : Sound (fetchSector s dom sec).1 := by
  unfold fetchSector
  repeat' first | with_reducible assumption | with_reducible apply l2Fill_sound | with_reducible apply modDie_sound | with_reducible apply wantSector_sound | with_reducible apply readTransfer_sound | with_reducible refine foldl_sound (fun _ _ _ => ?_) _ _ ?_ | with_reducible refine foldl_fst_sound (fun _ _ _ => ?_) _ _ ?_ | split | dsimp only | (simp only [sound_mk]; refine wf_of_sound ?_)

theorem l2Read_sound (s : State) (dom : Nat) (pa : Nat) (n : Nat) (h : Sound s) : Sound (l2Read s dom pa n).1 := by
  unfold l2Read
  repeat' first | with_reducible assumption | with_reducible apply fetchSector_sound | with_reducible refine foldl_sound (fun _ _ _ => ?_) _ _ ?_ | with_reducible refine foldl_fst_sound (fun _ _ _ => ?_) _ _ ?_ | split | dsimp only | (simp only [sound_mk]; refine wf_of_sound ?_)

theorem writeFetch_sound (s : State) (dom : Nat) (pa : Nat) (n : Nat) (h : Sound s) : Sound (writeFetch s dom pa n).1 := by
  unfold writeFetch
  repeat' first | with_reducible assumption | with_reducible apply fetchSector_sound | with_reducible refine foldl_sound (fun _ _ _ => ?_) _ _ ?_ | with_reducible refine foldl_fst_sound (fun _ _ _ => ?_) _ _ ?_ | split | dsimp only | (simp only [sound_mk]; refine wf_of_sound ?_)

theorem writeFetchAll_sound (s : State) (dom : Nat) (l : List (Nat × Nat)) (h : Sound s) : Sound (writeFetchAll s dom l).1 := by
  unfold writeFetchAll
  repeat' first | with_reducible assumption | with_reducible apply writeFetch_sound | with_reducible refine foldl_sound (fun _ _ _ => ?_) _ _ ?_ | with_reducible refine foldl_fst_sound (fun _ _ _ => ?_) _ _ ?_ | split | dsimp only | (simp only [sound_mk]; refine wf_of_sound ?_)

theorem l2Write_sound (s : State) (dom : Nat) (pa : Nat) (n : Nat) (h : Sound s) : Sound (l2Write s dom pa n) := by
  unfold l2Write
  repeat' first | with_reducible assumption | with_reducible apply l2Fill_sound | with_reducible apply fetchSector_sound | with_reducible refine foldl_sound (fun _ _ _ => ?_) _ _ ?_ | with_reducible refine foldl_fst_sound (fun _ _ _ => ?_) _ _ ?_ | split | dsimp only | (simp only [sound_mk]; refine wf_of_sound ?_)

theorem memWrite_sound (s : State) (dom : Nat) (pa : Nat) (bs : List Byte) (h : Sound s) : Sound (memWrite s dom pa bs) := by
  unfold memWrite
  repeat' first | with_reducible assumption | with_reducible apply homeWrite_sound | with_reducible apply l2Write_sound | with_reducible refine foldl_sound (fun _ _ _ => ?_) _ _ ?_ | with_reducible refine foldl_fst_sound (fun _ _ _ => ?_) _ _ ?_ | split | dsimp only | (simp only [sound_mk]; refine wf_of_sound ?_)

theorem memWriteNow_sound (s : State) (dom : Nat) (pa : Nat) (bs : List Byte) (h : Sound s) : Sound (memWriteNow s dom pa bs) :=
  memWrite_sound _ _ _ _ (writeFetch_sound _ _ _ _ h)

theorem setXfer_sound (s : State) (die : Nat) (old : Xfer) (new : List Xfer) (h : Sound s) : Sound (setXfer s die old new) := by
  unfold setXfer
  repeat' first | with_reducible assumption | with_reducible apply modDie_sound | with_reducible refine foldl_sound (fun _ _ _ => ?_) _ _ ?_ | with_reducible refine foldl_fst_sound (fun _ _ _ => ?_) _ _ ?_ | split | dsimp only | (simp only [sound_mk]; refine wf_of_sound ?_)

theorem fatalUnit_sound (s : State) (uid : Nat) (g : Nat) (h : Sound s) : Sound (fatalUnit s uid g) := by
  unfold fatalUnit
  repeat' first | with_reducible assumption | with_reducible apply modUnit_sound | with_reducible refine foldl_sound (fun _ _ _ => ?_) _ _ ?_ | with_reducible refine foldl_fst_sound (fun _ _ _ => ?_) _ _ ?_ | split | dsimp only | (simp only [sound_mk]; refine wf_of_sound ?_)

theorem startTrap_sound (s : State) (uid : Nat) (g : Nat) (c : Cond) (fatal : Bool) (h : Sound s) : Sound (startTrap s uid g c fatal) := by
  unfold startTrap
  repeat' first | with_reducible assumption | with_reducible apply countEvent_sound | with_reducible apply modGroup_sound | with_reducible apply fatalUnit_sound | with_reducible refine foldl_sound (fun _ _ _ => ?_) _ _ ?_ | with_reducible refine foldl_fst_sound (fun _ _ _ => ?_) _ _ ?_ | split | dsimp only | (simp only [sound_mk]; refine wf_of_sound ?_)

theorem setCond_sound (s : State) (uid : Nat) (g : Nat) (t : Nat) (c : Cond) (h : Sound s) : Sound (setCond s uid g t c) := by
  unfold setCond
  repeat' first | with_reducible assumption | with_reducible apply modGroup_sound | with_reducible refine foldl_sound (fun _ _ _ => ?_) _ _ ?_ | with_reducible refine foldl_fst_sound (fun _ _ _ => ?_) _ _ ?_ | split | dsimp only | (simp only [sound_mk]; refine wf_of_sound ?_)

theorem raiseThread_sound (s : State) (uid : Nat) (g : Nat) (t : Nat) (c : Cond) (h : Sound s) : Sound (raiseThread s uid g t c) := by
  unfold raiseThread
  repeat' first | with_reducible assumption | with_reducible apply startTrap_sound | with_reducible apply setCond_sound | with_reducible refine foldl_sound (fun _ _ _ => ?_) _ _ ?_ | with_reducible refine foldl_fst_sound (fun _ _ _ => ?_) _ _ ?_ | split | dsimp only | (simp only [sound_mk]; refine wf_of_sound ?_)

theorem raiseSync_sound (s : State) (uid : Nat) (g : Nat) (group : Bool) (fetch : Bool) (present : List Nat) (bad : List (Nat × Nat × Nat)) (addr : Nat → Nat × Nat → Nat) (taddr : Nat → Nat × Nat → NMap Nat) (h : Sound s) : Sound (raiseSync s uid g group fetch present bad addr taddr) := by
  unfold raiseSync
  repeat' first | with_reducible assumption | with_reducible apply raiseThread_sound | with_reducible refine foldl_sound (fun _ _ _ => ?_) _ _ ?_ | with_reducible refine foldl_fst_sound (fun _ _ _ => ?_) _ _ ?_ | split | dsimp only | (simp only [sound_mk]; refine wf_of_sound ?_)

theorem raiseAsync_sound (s : State) (uid : Nat) (g : Nat) (c : Cond) (fatal : Bool) (h : Sound s) : Sound (raiseAsync s uid g c fatal) := by
  unfold raiseAsync
  repeat' first | with_reducible assumption | with_reducible apply startTrap_sound | with_reducible apply modGroup_sound | with_reducible refine foldl_sound (fun _ _ _ => ?_) _ _ ?_ | with_reducible refine foldl_fst_sound (fun _ _ _ => ?_) _ _ ?_ | split | dsimp only | (simp only [sound_mk]; refine wf_of_sound ?_)

theorem writeOutFailed_sound (s : State) (uid : Nat) (g : Nat) (level : Nat) (c : NClass) (n : Nat) (e : (Nat × Nat) × Nat) (h : Sound s) : Sound (writeOutFailed s uid g level c n e) := by
  unfold writeOutFailed
  repeat' first | with_reducible assumption | with_reducible apply startTrap_sound | with_reducible apply modGroup_sound | with_reducible refine foldl_sound (fun _ _ _ => ?_) _ _ ?_ | with_reducible refine foldl_fst_sound (fun _ _ _ => ?_) _ _ ?_ | split | dsimp only | (simp only [sound_mk]; refine wf_of_sound ?_)

theorem queueOut_sound (s : State) (core : Nat) (hs : List Holder) (h : Sound s) : Sound (queueOut s core hs) := by
  unfold queueOut
  repeat' first | with_reducible assumption | with_reducible apply modCore_sound | with_reducible refine foldl_sound (fun _ _ _ => ?_) _ _ ?_ | with_reducible refine foldl_fst_sound (fun _ _ _ => ?_) _ _ ?_ | split | dsimp only | (simp only [sound_mk]; refine wf_of_sound ?_)

theorem claimHolder_sound (q : State × Bool) (k : Holder) (h : Sound q.1) : Sound (claimHolder q k).1 := by
  unfold claimHolder
  repeat' first | with_reducible assumption | with_reducible apply writeOutFailed_sound | with_reducible apply claimName_sound | with_reducible apply giveSlot_sound | split | dsimp only

theorem claimAll_sound (s : State) (x : Group) (c : NClass) (res : List Nat) (h : Sound s) : Sound (claimAll s x c res).1 :=
  foldl_fst_sound (fun q k => claimHolder_sound q k) _ _ (queueOut_sound _ _ _ h)

theorem bindLoop_sound (uid g level slot : Nat) (c : NClass) (n : Nat) (pinned : Bool) (fuel : Nat) (s : State) (h : Sound s) :
    Sound (bindLoop uid g level slot c n pinned fuel s).1 := by
  induction fuel generalizing s with
  | zero => exact h
  | succ fuel ih =>
    unfold bindLoop
    repeat' first | with_reducible assumption | with_reducible apply setRes_sound | with_reducible apply claimAll_sound | with_reducible apply ih | split | dsimp only

theorem countRefused_sound (s : State) (uid : Nat) (g : Nat) (slot : Nat) (c : NClass) (pinned : Bool) (h : Sound s) : Sound (countRefused s uid g slot c pinned) := by
  unfold countRefused
  repeat' first | with_reducible assumption | with_reducible apply countNoslot_sound | with_reducible refine foldl_sound (fun _ _ _ => ?_) _ _ ?_ | with_reducible refine foldl_fst_sound (fun _ _ _ => ?_) _ _ ?_ | split | dsimp only | (simp only [sound_mk]; refine wf_of_sound ?_)

theorem bindName_sound (s : State) (uid : Nat) (g : Nat) (level : Nat) (slot : Nat) (c : NClass) (n : Nat) (pinned : Bool) (h : Sound s) : Sound (bindName s uid g level slot c n pinned).1 := by
  unfold bindName
  repeat' first | with_reducible assumption | with_reducible apply bindLoop_sound | with_reducible apply countRefused_sound | with_reducible refine foldl_sound (fun _ _ _ => ?_) _ _ ?_ | with_reducible refine foldl_fst_sound (fun _ _ _ => ?_) _ _ ?_ | split | dsimp only | (simp only [sound_mk]; refine wf_of_sound ?_)

theorem spillForWrite_sound (s : State) (uid : Nat) (g : Nat) (x : Group) (m : NameSt) (c : NClass) (n : Nat) (ops : List (NClass × Nat)) (h : Sound s) : Sound (spillForWrite s uid g x m c n ops) := by
  unfold spillForWrite
  repeat' first | with_reducible assumption | with_reducible apply giveSlot_sound | with_reducible apply writeOutFailed_sound | with_reducible apply markSpilled_sound | with_reducible apply claimName_sound | with_reducible apply setRes_sound | with_reducible apply pauseGroup_sound | with_reducible apply countNoslot_sound | with_reducible refine foldl_sound (fun _ _ _ => ?_) _ _ ?_ | with_reducible refine foldl_fst_sound (fun _ _ _ => ?_) _ _ ?_ | split | dsimp only | (simp only [sound_mk]; refine wf_of_sound ?_)

theorem bindAtWrite_sound (s : State) (uid : Nat) (g : Nat) (c : NClass) (n : Nat) (ops : List (NClass × Nat)) (h : Sound s) : Sound (bindAtWrite s uid g c n ops) := by
  unfold bindAtWrite
  repeat' first | with_reducible assumption | with_reducible apply bindName_sound | with_reducible apply spillForWrite_sound | with_reducible refine foldl_sound (fun _ _ _ => ?_) _ _ ?_ | with_reducible refine foldl_fst_sound (fun _ _ _ => ?_) _ _ ?_ | split | dsimp only | (simp only [sound_mk]; refine wf_of_sound ?_)

theorem syncPerm_sound (s : State) (uid : Nat) (g : Nat) (n : Nat) (h : Sound s) : Sound (syncPerm s uid g n) := by
  unfold syncPerm
  repeat' first | with_reducible assumption | with_reducible apply modPart_sound | with_reducible refine foldl_sound (fun _ _ _ => ?_) _ _ ?_ | with_reducible refine foldl_fst_sound (fun _ _ _ => ?_) _ _ ?_ | split | dsimp only | (simp only [sound_mk]; refine wf_of_sound ?_)

theorem engWriteVa_sound {s t : State} {core dom asid va : Nat} {bs : List Byte} (e : engWriteVa s core dom asid va bs = .ok t) (h : Sound s) : Sound t := by
  unfold engWriteVa at e
  split at e
  · cases e
  · cases e; exact memWriteNow_sound _ _ _ _ h

theorem frameWrite_sound {s t : State} {x : Group} {va : Nat} {bs : List Byte} (e : frameWrite s x va bs = some t) (h : Sound s) : Sound t := by
  unfold frameWrite at e
  split at e <;> try (cases e; done)
  split at e
  · next w => cases e; exact engWriteVa_sound w h
  · cases e

theorem writeFrame_sound (s : State) (uid g : Nat) (a : Nat → Bool) (h : Sound s) : Sound (writeFrame s uid g a) := by
  unfold writeFrame
  split
  · split
    · exact h
    · split
      · next w =>
        obtain ⟨va, -, w⟩ := Option.bind_eq_some_iff.mp w
        exact modGroup_sound _ _ _ _ (frameWrite_sound w h)
      · dsimp only
        split
        · exact fatalUnit_sound _ _ _ (modGroup_sound _ _ _ _ h)
        · exact modGroup_sound _ _ _ _ h
  · exact h

theorem placeFences_sound (s : State) (uid : Nat) (g : Nat) (ord : Nat) (scope : Nat) (tag : Nat) (h : Sound s) : Sound (placeFences s uid g ord scope tag) := by
  unfold placeFences
  repeat' first | with_reducible assumption | with_reducible apply modGroup_sound | with_reducible refine foldl_sound (fun _ _ _ => ?_) _ _ ?_ | with_reducible refine foldl_fst_sound (fun _ _ _ => ?_) _ _ ?_ | split | dsimp only | (simp only [sound_mk]; refine wf_of_sound ?_)

theorem acquireGroup_sound (s : State) (uid : Nat) (g : Nat) (h : Sound s) : Sound (acquireGroup s uid g) := by
  unfold acquireGroup
  repeat' first | with_reducible assumption | with_reducible apply modGroup_sound | with_reducible refine foldl_sound (fun _ _ _ => ?_) _ _ ?_ | with_reducible refine foldl_fst_sound (fun _ _ _ => ?_) _ _ ?_ | split | dsimp only | (simp only [sound_mk]; refine wf_of_sound ?_)

theorem giveUpLoad_sound (s : State) (core : Nat) (uid : Nat) (g : Nat) (t : Nat) (set : Nat) (h : Sound s) : Sound (giveUpLoad s core uid g t set) := by
  unfold giveUpLoad
  repeat' first | with_reducible assumption | with_reducible apply modGroup_sound | with_reducible apply modCore_sound | with_reducible refine foldl_sound (fun _ _ _ => ?_) _ _ ?_ | with_reducible refine foldl_fst_sound (fun _ _ _ => ?_) _ _ ?_ | split | dsimp only | (simp only [sound_mk]; refine wf_of_sound ?_)

theorem setAside_sound (s : State) (uid : Nat) (g : Nat) (h : Sound s) : Sound (setAside s uid g) := by
  unfold setAside
  repeat' first | with_reducible assumption | with_reducible apply giveUpLoad_sound | with_reducible apply modGroup_sound | with_reducible refine foldl_sound (fun _ _ _ => ?_) _ _ ?_ | with_reducible refine foldl_fst_sound (fun _ _ _ => ?_) _ _ ?_ | split | dsimp only | (simp only [sound_mk]; refine wf_of_sound ?_)

theorem storeFrameNames_sound (s : State) (uid : Nat) (g : Nat) (va : Nat) (h : Sound s) : Sound (storeFrameNames s uid g va) := by
  unfold storeFrameNames
  repeat' first | with_reducible assumption | with_reducible apply bindAtWrite_sound | with_reducible apply modGroup_sound | with_reducible refine foldl_sound (fun _ _ _ => ?_) _ _ ?_ | with_reducible refine foldl_fst_sound (fun _ _ _ => ?_) _ _ ?_ | split | dsimp only | (simp only [sound_mk]; refine wf_of_sound ?_)

theorem enterHandler_sound (s : State) (uid : Nat) (g : Nat) (h : Sound s) : Sound (enterHandler s uid g) := by
  unfold enterHandler
  repeat' first | with_reducible assumption | with_reducible apply storeFrameNames_sound | with_reducible apply acquireGroup_sound | with_reducible apply setAside_sound | with_reducible apply modGroup_sound | with_reducible refine foldl_sound (fun _ _ _ => ?_) _ _ ?_ | with_reducible refine foldl_fst_sound (fun _ _ _ => ?_) _ _ ?_ | split | dsimp only | (simp only [sound_mk]; refine wf_of_sound ?_)

theorem fatalStop_sound (s : State) (uid : Nat) (g : Nat) (detail : Nat) (addr : Nat) (lmask : List Nat) (h : Sound s) : Sound (fatalStop s uid g detail addr lmask) := by
  unfold fatalStop
  repeat' first | with_reducible assumption | with_reducible apply startTrap_sound | with_reducible refine foldl_sound (fun _ _ _ => ?_) _ _ ?_ | with_reducible refine foldl_fst_sound (fun _ _ _ => ?_) _ _ ?_ | split | dsimp only | (simp only [sound_mk]; refine wf_of_sound ?_)

theorem cbufTake_sound (s : State) (core : Nat) (uid : Nat) (g : Nat) (n : Nat) (h : Sound s) : Sound (cbufTake s core uid g n) := by
  unfold cbufTake
  repeat' first | with_reducible assumption | with_reducible apply fatalStop_sound | with_reducible apply setCore_sound | with_reducible refine foldl_sound (fun _ _ _ => ?_) _ _ ?_ | with_reducible refine foldl_fst_sound (fun _ _ _ => ?_) _ _ ?_ | split | dsimp only | (simp only [sound_mk]; refine wf_of_sound ?_)

theorem journalTouch_sound (s : State) (uid : Nat) (g : Nat) (core : Nat) (piece : Nat) (units : Nat) (h : Sound s) : Sound (journalTouch s uid g core piece units) := by
  unfold journalTouch
  repeat' first | with_reducible assumption | with_reducible apply fatalStop_sound | with_reducible apply setCore_sound | with_reducible refine foldl_sound (fun _ _ _ => ?_) _ _ ?_ | with_reducible refine foldl_fst_sound (fun _ _ _ => ?_) _ _ ?_ | split | dsimp only | (simp only [sound_mk]; refine wf_of_sound ?_)

theorem journalNames_sound (s : State) (uid : Nat) (g : Nat) (ts : List Nat) (dsts : List (NClass × Nat)) (h : Sound s) : Sound (journalNames s uid g ts dsts) := by
  unfold journalNames
  repeat' first | with_reducible assumption | with_reducible apply journalTouch_sound | with_reducible refine foldl_sound (fun _ _ _ => ?_) _ _ ?_ | with_reducible refine foldl_fst_sound (fun _ _ _ => ?_) _ _ ?_ | split | dsimp only | (simp only [sound_mk]; refine wf_of_sound ?_)

theorem journalScratch_sound (s : State) (uid : Nat) (g : Nat) (pa : Nat) (n : Nat) (h : Sound s) : Sound (journalScratch s uid g pa n) := by
  unfold journalScratch
  repeat' first | with_reducible assumption | with_reducible apply journalTouch_sound | with_reducible apply modUnit_sound | with_reducible refine foldl_sound (fun _ _ _ => ?_) _ _ ?_ | with_reducible refine foldl_fst_sound (fun _ _ _ => ?_) _ _ ?_ | split | dsimp only | (simp only [sound_mk]; refine wf_of_sound ?_)

theorem startRollback_sound (s : State) (uid : Nat) (core : Nat) (ucer : Bool) (h : Sound s) : Sound (startRollback s uid core ucer) := by
  unfold startRollback
  repeat' first | with_reducible assumption | with_reducible apply modCore_sound | with_reducible apply fatalStop_sound | with_reducible apply modUnit_sound | with_reducible refine foldl_sound (fun _ _ _ => ?_) _ _ ?_ | with_reducible refine foldl_fst_sound (fun _ _ _ => ?_) _ _ ?_ | split | dsimp only | (simp only [sound_mk]; refine wf_of_sound ?_)

theorem consumePoison_sound (s : State) (uid : Nat) (g : Nat) (sec : Nat) (lmask : List Nat) (h : Sound s) : Sound (consumePoison s uid g sec lmask) := by
  unfold consumePoison
  repeat' first | with_reducible assumption | with_reducible apply startRollback_sound | with_reducible apply fatalStop_sound | with_reducible refine foldl_sound (fun _ _ _ => ?_) _ _ ?_ | with_reducible refine foldl_fst_sound (fun _ _ _ => ?_) _ _ ?_ | split | dsimp only | (simp only [sound_mk]; refine wf_of_sound ?_)

theorem arraySees_sound (s : State) (core : Nat) (pa : Nat) (bs : List Byte) (h : Sound s) : Sound (arraySees s core pa bs) := by
  unfold arraySees
  repeat' first | with_reducible assumption | with_reducible apply modCore_sound | with_reducible refine foldl_sound (fun _ _ _ => ?_) _ _ ?_ | with_reducible refine foldl_fst_sound (fun _ _ _ => ?_) _ _ ?_ | split | dsimp only | (simp only [sound_mk]; refine wf_of_sound ?_)

theorem arraysSee_sound (s : State) (pa : Nat) (bs : List Byte) (h : Sound s) : Sound (arraysSee s pa bs) := by
  unfold arraysSee
  repeat' first | with_reducible assumption | with_reducible apply arraySees_sound | with_reducible refine foldl_sound (fun _ _ _ => ?_) _ _ ?_ | with_reducible refine foldl_fst_sound (fun _ _ _ => ?_) _ _ ?_ | split | dsimp only | (simp only [sound_mk]; refine wf_of_sound ?_)

theorem watchHitBy_sound (rd : State → Nat → Byte) (old : State) (s : State) (w : WatchAcc) (h : Sound old) (h1 : Sound s) : Sound (watchHitBy rd old s w) := by
  unfold watchHitBy
  repeat' first | with_reducible assumption | with_reducible apply wrReg_sound | with_reducible refine foldl_sound (fun _ _ _ => ?_) _ _ ?_ | with_reducible refine foldl_fst_sound (fun _ _ _ => ?_) _ _ ?_ | split | dsimp only | (simp only [sound_mk]; refine wf_of_sound ?_)

theorem watchHit_sound (old : State) (s : State) (w : WatchAcc) (h : Sound old) (h1 : Sound s) : Sound (watchHit old s w) :=
  watchHitBy_sound _ _ _ _ h h1

theorem advance_sound (s : State) (uid : Nat) (g : Nat) (ts : List Nat) (off : Nat → Nat) (transfer : Nat → Bool) (h : Sound s) : Sound (advance s uid g ts off transfer) := by
  unfold advance
  repeat' first | with_reducible assumption | with_reducible apply modGroup_sound | with_reducible refine foldl_sound (fun _ _ _ => ?_) _ _ ?_ | with_reducible refine foldl_fst_sound (fun _ _ _ => ?_) _ _ ?_ | split | dsimp only | (simp only [sound_mk]; refine wf_of_sound ?_)

theorem advanceNext_sound (s : State) (uid : Nat) (g : Nat) (ts : List Nat) (h : Sound s) : Sound (advanceNext s uid g ts) := by
  unfold advanceNext
  repeat' first | with_reducible assumption | with_reducible apply advance_sound | with_reducible refine foldl_sound (fun _ _ _ => ?_) _ _ ?_ | with_reducible refine foldl_fst_sound (fun _ _ _ => ?_) _ _ ?_ | split | dsimp only | (simp only [sound_mk]; refine wf_of_sound ?_)

theorem touchStaged_sound (s : State) (uid : Nat) (g : Nat) (ops : List (NClass × Nat)) (h : Sound s) : Sound (touchStaged s uid g ops) := by
  unfold touchStaged
  repeat' first | with_reducible assumption | with_reducible apply modPart_sound | with_reducible refine foldl_sound (fun _ _ _ => ?_) _ _ ?_ | with_reducible refine foldl_fst_sound (fun _ _ _ => ?_) _ _ ?_ | split | dsimp only | (simp only [sound_mk]; refine wf_of_sound ?_)

theorem beginWord_sound (s : State) (i : Instr) (uid : Nat) (g : Nat) (ts : List Nat) (groupSet : Bool) (dsts : List (NClass × Nat)) (id : Nat) (h : Sound s) : Sound (beginWord s i uid g ts groupSet dsts id) := by
  unfold beginWord
  repeat' first | with_reducible assumption | with_reducible apply modGroup_sound | with_reducible apply touchStaged_sound | with_reducible apply bindAtWrite_sound | with_reducible apply journalNames_sound | with_reducible refine foldl_sound (fun _ _ _ => ?_) _ _ ?_ | with_reducible refine foldl_fst_sound (fun _ _ _ => ?_) _ _ ?_ | split | dsimp only | (simp only [sound_mk]; refine wf_of_sound ?_)

theorem pushPend_sound (s : State) (core : Nat) (p : Pend) (h : Sound s) : Sound (pushPend s core p) := by
  unfold pushPend
  repeat' first | with_reducible assumption | with_reducible apply modCore_sound | with_reducible refine foldl_sound (fun _ _ _ => ?_) _ _ ?_ | with_reducible refine foldl_fst_sound (fun _ _ _ => ?_) _ _ ?_ | split | dsimp only | (simp only [sound_mk]; refine wf_of_sound ?_)

theorem laneGroup_sound (i : Instr) (dyn : Group → Nat → List (Nat × Nat)) (addr : State → Group → Nat → Nat × Nat → Nat)
    {eff : Nat → Group → List Nat → State → State} (he : ∀ uid x ts s, Sound s → Sound (eff uid x ts s)) (s : State) (gt : Nat × List Nat) (h : Sound s) :
    Sound (laneGroup i dyn addr eff s gt) := by
  unfold laneGroup
  dsimp only
  split
  · exact h
  · repeat' first | with_reducible assumption | with_reducible refine he _ _ _ _ ?_ | with_reducible apply raiseSync_sound | split

theorem laneWord_sound (i : Instr) (dyn : Group → Nat → List (Nat × Nat)) (addr : State → Group → Nat → Nat × Nat → Nat)
    {eff : Nat → Group → List Nat → State → State} (he : ∀ uid x ts s, Sound s → Sound (eff uid x ts s)) (s : State) (h : Sound s) :
    Sound (laneWord i dyn addr eff s) :=
  foldl_sound (fun s gt => laneGroup_sound i dyn addr he s gt) _ _ h

theorem writeResult_sound (i : Instr) (lat : Nat) (res : State → Group → List Nat → Nat → List Word) (uid : Nat) (x : Group) (ok : List Nat) (s : State)
    (h : Sound s) : Sound (writeResult i lat res uid x ok s) := by
  unfold writeResult
  exact advanceNext_sound _ _ _ _ (pushPend_sound _ _ _ (beginWord_sound _ _ _ _ _ _ _ _ h))

theorem laneResult_sound (i : Instr) (lat : Nat) (res : State → Group → List Nat → Nat → List Word) (s : State) (h : Sound s) : Sound (laneResult i lat res s) :=
  laneWord_sound i _ _ (fun uid x ts s => writeResult_sound i lat res uid x ts s) s h

theorem laneAB_sound (i : Instr) (lat : Nat) (f : Word → Word → Word) (s : State) (h : Sound s) : Sound (laneAB i lat f s) := laneResult_sound _ _ _ _ h

theorem laneA_sound (i : Instr) (lat : Nat) (f : Word → Word) (s : State) (h : Sound s) : Sound (laneA i lat f s) := laneResult_sound _ _ _ _ h

theorem laneDAB_sound (i : Instr) (lat : Nat) (f : Spar → Group → Word → Word → Word → Word) (s : State) (h : Sound s) : Sound (laneDAB i lat f s) :=
  laneResult_sound _ _ _ _ h

theorem groupWord_sound (i : Instr) (dyn : State → Group → List (Nat × Nat)) (addr : State → Group → Nat → Nat × Nat → Nat)
    {eff : Nat → Group → List Nat → State → State} (he : ∀ uid x ts s, Sound s → Sound (eff uid x ts s)) (s : State) (h : Sound s) :
    Sound (groupWord i dyn addr eff s) := by
  unfold groupWord
  repeat' first | with_reducible assumption | with_reducible refine he _ _ _ _ ?_ | with_reducible apply raiseSync_sound | split | dsimp only

theorem groupPlain_sound (i : Instr) (uid : Nat) (x : Group) (ts : List Nat) (s : State) (h : Sound s) : Sound (groupPlain i uid x ts s) := by
  unfold groupPlain
  repeat' first | with_reducible assumption | with_reducible apply advanceNext_sound | with_reducible apply beginWord_sound | with_reducible refine foldl_sound (fun _ _ _ => ?_) _ _ ?_ | with_reducible refine foldl_fst_sound (fun _ _ _ => ?_) _ _ ?_ | split | dsimp only | (simp only [sound_mk]; refine wf_of_sound ?_)

theorem groupResult_sound (i : Instr) (lat : Nat) (v : Word) (uid : Nat) (x : Group) (ts : List Nat) (s : State) (h : Sound s) : Sound (groupResult i lat v uid x ts s) := by
  unfold groupResult
  repeat' first | with_reducible assumption | with_reducible apply beginWord_sound | with_reducible apply pushPend_sound | with_reducible apply advanceNext_sound | with_reducible refine foldl_sound (fun _ _ _ => ?_) _ _ ?_ | with_reducible refine foldl_fst_sound (fun _ _ _ => ?_) _ _ ?_ | split | dsimp only | (simp only [sound_mk]; refine wf_of_sound ?_)

theorem groupAB_sound (i : Instr) (f : Word → Word → Word) (s : State) (h : Sound s) : Sound (groupAB i f s) :=
  groupWord_sound i _ _ (fun _ _ _ _ => groupResult_sound _ _ _ _ _ _ _) s h

theorem groupWait_sound (i : Instr) (k : WaitKind) (uid : Nat) (x : Group) (ts : List Nat) (s : State) (h : Sound s) : Sound (groupWait i k uid x ts s) := by
  unfold groupWait
  repeat' first | with_reducible assumption | with_reducible apply beginWord_sound | with_reducible apply modGroup_sound | with_reducible refine foldl_sound (fun _ _ _ => ?_) _ _ ?_ | with_reducible refine foldl_fst_sound (fun _ _ _ => ?_) _ _ ?_ | split | dsimp only | (simp only [sound_mk]; refine wf_of_sound ?_)

theorem releaseWait_sound (s : State) (uid : Nat) (g : Nat) (h : Sound s) : Sound (releaseWait s uid g) := by
  unfold releaseWait
  repeat' first | with_reducible assumption | with_reducible apply modGroup_sound | with_reducible refine foldl_sound (fun _ _ _ => ?_) _ _ ?_ | with_reducible refine foldl_fst_sound (fun _ _ _ => ?_) _ _ ?_ | split | dsimp only | (simp only [sound_mk]; refine wf_of_sound ?_)

theorem pushEq_sound (s : State) (uid : Nat) (g : Nat) (cls : Nat) (ts : List Nat) (id : Nat) (arg : Nat) (dep : Bool) (h : Sound s) : Sound (pushEq s uid g cls ts id arg dep) := by
  unfold pushEq
  repeat' first | with_reducible assumption | with_reducible apply modGroup_sound | with_reducible refine foldl_sound (fun _ _ _ => ?_) _ _ ?_ | with_reducible refine foldl_fst_sound (fun _ _ _ => ?_) _ _ ?_ | split | dsimp only | (simp only [sound_mk]; refine wf_of_sound ?_)

theorem addLoad_sound (s : State) (core : Nat) (set : Nat) (uid : Nat) (uniform : Bool) (fn : Nat) (dsts : List Nat) (who : List (Nat × Nat)) (h : Sound s) : Sound (addLoad s core set uid uniform fn dsts who) := by
  unfold addLoad
  repeat' first | with_reducible assumption | with_reducible apply modCore_sound | with_reducible refine foldl_sound (fun _ _ _ => ?_) _ _ ?_ | with_reducible refine foldl_fst_sound (fun _ _ _ => ?_) _ _ ?_ | split | dsimp only | (simp only [sound_mk]; refine wf_of_sound ?_)

theorem addLines_sound (s : State) (x : Group) (set : Nat) (store : Bool) (accs : List MemAcc) (h : Sound s) : Sound (addLines s x set store accs) := by
  unfold addLines
  repeat' first | with_reducible assumption | with_reducible apply modPart_sound | with_reducible refine foldl_sound (fun _ _ _ => ?_) _ _ ?_ | with_reducible refine foldl_fst_sound (fun _ _ _ => ?_) _ _ ?_ | split | dsimp only | (simp only [sound_mk]; refine wf_of_sound ?_)

theorem memEff_sound (i : Instr) (set fn : Nat) (acc : State → Group → Nat → MemAcc) (uid : Nat) (x : Group) (ok : List Nat) (s : State) (h : Sound s) :
    Sound (memEff i set fn acc uid x ok s) := by
  unfold memEff
  dsimp only
  refine advanceNext_sound _ _ _ _ (addLines_sound _ _ _ _ _ (modGroup_sound _ _ _ _ ?_))
  split
  · exact beginWord_sound _ _ _ _ _ _ _ _ h
  · exact addLoad_sound _ _ _ _ _ _ _ _ (beginWord_sound _ _ _ _ _ _ _ _ h)

theorem memWord_sound (i : Instr) (fn : Nat) (acc : State → Group → Nat → MemAcc) (s : State) (h : Sound s) : Sound (memWord i fn acc s) :=
  laneWord_sound i _ _ (fun uid x ts s => memEff_sound i _ fn acc uid x ts s) { s with seq := s.seq + 1 } h

theorem ldWord_sound (i : Instr) (fn size : Nat) (off : BitVec 7) (s : State) (h : Sound s) : Sound (ldWord i fn size off s) := memWord_sound _ _ _ _ h

theorem stWord_sound (i : Instr) (size : Nat) (off : BitVec 7) (s : State) (h : Sound s) : Sound (stWord i size off s) := memWord_sound _ _ _ _ h

theorem atWord_sound (i : Instr) (fn : Nat) (s : State) (h : Sound s) : Sound (atWord i fn s) := memWord_sound _ _ _ _ h

theorem groupMem_sound (i : Instr) (fn : Nat) (acc : State → Group → MemAcc) (s : State) (h : Sound s) : Sound (groupMem i fn acc s) := by
  refine groupWord_sound i _ _ (fun uid x ts s k => advanceNext_sound _ _ _ _ (modGroup_sound _ _ _ _ ?_)) s h
  split
  · exact beginWord_sound _ _ _ _ _ _ _ _ k
  · exact addLoad_sound _ _ _ _ _ _ _ _ (beginWord_sound _ _ _ _ _ _ _ _ k)

theorem uldWord_sound (i : Instr) (fn size : Nat) (off : BitVec 7) (s : State) (h : Sound s) : Sound (uldWord i fn size off s) := groupMem_sound _ _ _ _ h

theorem setLoad_sound (s : State) (core : Nat) (set : Nat) (uid : Nat) (g : Nat) (t : Nat) (r : Option (List Word)) (parked : Bool) (h : Sound s) : Sound (setLoad s core set uid g t r parked) := by
  unfold setLoad
  repeat' first | with_reducible assumption | with_reducible apply modCore_sound | with_reducible refine foldl_sound (fun _ _ _ => ?_) _ _ ?_ | with_reducible refine foldl_fst_sound (fun _ _ _ => ?_) _ _ ?_ | split | dsimp only | (simp only [sound_mk]; refine wf_of_sound ?_)

theorem parkEntry_sound (s : State) (uid : Nat) (x : Group) (t : Nat) (e : TqEntry) (cd : Nat × Nat) (h : Sound s) : Sound (parkEntry s uid x t e cd) := by
  unfold parkEntry
  repeat' first | with_reducible assumption | with_reducible apply modGroup_sound | with_reducible apply raiseThread_sound | with_reducible apply setLoad_sound | with_reducible refine foldl_sound (fun _ _ _ => ?_) _ _ ?_ | with_reducible refine foldl_fst_sound (fun _ _ _ => ?_) _ _ ?_ | split | dsimp only | (simp only [sound_mk]; refine wf_of_sound ?_)

theorem wakeMwait_sound (s : State) (core : Option Nat) (pa : Nat) (n : Nat) (h : Sound s) : Sound (wakeMwait s core pa n) := by
  unfold wakeMwait
  repeat' first | with_reducible assumption | with_reducible refine foldl_sound (fun _ _ _ => ?_) _ _ ?_ | with_reducible refine foldl_fst_sound (fun _ _ _ => ?_) _ _ ?_ | split | dsimp only | (simp only [sound_mk]; refine wf_of_sound ?_)

theorem completeLoad_sound (s : State) (core : Nat) (l : LoadSet) (h : Sound s) : Sound (completeLoad s core l) := by
  unfold completeLoad
  repeat' first | with_reducible assumption | with_reducible apply modGroup_sound | with_reducible apply modCore_sound | with_reducible refine foldl_sound (fun _ _ _ => ?_) _ _ ?_ | with_reducible refine foldl_fst_sound (fun _ _ _ => ?_) _ _ ?_ | split | dsimp only | (simp only [sound_mk]; refine wf_of_sound ?_)

theorem mwaitLoaded_sound (s : State) (uid : Nat) (g : Nat) (v : Word) (h : Sound s) : Sound (mwaitLoaded s uid g v) := by
  unfold mwaitLoaded
  repeat' first | with_reducible assumption | with_reducible apply releaseWait_sound | with_reducible apply acquireGroup_sound | with_reducible apply modGroup_sound | with_reducible refine foldl_sound (fun _ _ _ => ?_) _ _ ?_ | with_reducible refine foldl_fst_sound (fun _ _ _ => ?_) _ _ ?_ | split | dsimp only | (simp only [sound_mk]; refine wf_of_sound ?_)

theorem deliverLoad_sound (s : State) (uid : Nat) (g : Nat) (t : Nat) (core : Nat) (e : TqEntry) (bs : List Byte) (h : Sound s) : Sound (deliverLoad s uid g t core e bs) := by
  unfold deliverLoad
  repeat' first | with_reducible assumption | with_reducible apply mwaitLoaded_sound | with_reducible apply setLoad_sound | with_reducible apply completeLoad_sound | with_reducible refine foldl_sound (fun _ _ _ => ?_) _ _ ?_ | with_reducible refine foldl_fst_sound (fun _ _ _ => ?_) _ _ ?_ | split | dsimp only | (simp only [sound_mk]; refine wf_of_sound ?_)

theorem satisfyOne_sound (uid : Nat) (picks : List (Nat × Nat)) (s : State) (a : Satisfied) (h : Sound s) : Sound (satisfyOne uid picks s a) := by
  unfold satisfyOne
  repeat' first | with_reducible assumption | with_reducible apply consumePoison_sound | with_reducible apply giveUpLoad_sound | with_reducible apply modGroup_sound | with_reducible apply l1Touch_sound | with_reducible apply watchHit_sound | with_reducible apply deliverLoad_sound | with_reducible refine foldl_sound (fun _ _ _ => ?_) _ _ ?_ | with_reducible refine foldl_fst_sound (fun _ _ _ => ?_) _ _ ?_ | split | dsimp only | (simp only [sound_mk]; refine wf_of_sound ?_)

theorem satisfyLoads_sound (s : State) (uid : Nat) (core : Nat) (l : List Satisfied) (choices : List Nat) (h : Sound s) : Sound (satisfyLoads s uid core l choices) := by
  unfold satisfyLoads
  repeat' first | with_reducible assumption | with_reducible apply l2Read_sound | with_reducible apply satisfyOne_sound | with_reducible refine foldl_sound (fun _ _ _ => ?_) _ _ ?_ | with_reducible refine foldl_fst_sound (fun _ _ _ => ?_) _ _ ?_ | split | dsimp only | (simp only [sound_mk]; refine wf_of_sound ?_)

theorem raiseG_sound (s : State) (core : Nat) (pa : Nat) (n : Nat) (h : Sound s) : Sound (raiseG s core pa n) := by
  unfold raiseG
  repeat' first | with_reducible assumption | with_reducible apply modCore_sound | with_reducible refine foldl_sound (fun _ _ _ => ?_) _ _ ?_ | with_reducible refine foldl_fst_sound (fun _ _ _ => ?_) _ _ ?_ | split | dsimp only | (simp only [sound_mk]; refine wf_of_sound ?_)

theorem performBytes_sound (s : State) (core : Nat) (p : PoolEntry) (bs : List Byte) (kind : Nat) (h : Sound s) : Sound (performBytes s core p bs kind) := by
  unfold performBytes
  repeat' first | with_reducible assumption | with_reducible apply memWrite_sound | with_reducible apply arraysSee_sound | with_reducible apply journalScratch_sound | with_reducible apply raiseG_sound | with_reducible apply watchHit_sound | with_reducible apply wakeMwait_sound | with_reducible refine foldl_sound (fun _ _ _ => ?_) _ _ ?_ | with_reducible refine foldl_fst_sound (fun _ _ _ => ?_) _ _ ?_ | split | dsimp only | (simp only [sound_mk]; refine wf_of_sound ?_)

theorem atomicDone_sound (s : State) (p : PoolEntry) (h : Sound s) : Sound (atomicDone s p) := by
  unfold atomicDone
  repeat' first | with_reducible assumption | with_reducible apply modGroup_sound | with_reducible refine foldl_sound (fun _ _ _ => ?_) _ _ ?_ | with_reducible refine foldl_fst_sound (fun _ _ _ => ?_) _ _ ?_ | split | dsimp only | (simp only [sound_mk]; refine wf_of_sound ?_)

theorem performEntry_sound (s : State) (core : Nat) (p : PoolEntry) (h : Sound s) : Sound (performEntry s core p) := by
  unfold performEntry
  repeat' first | with_reducible assumption | with_reducible apply modCore_sound | with_reducible apply consumePoison_sound | with_reducible apply giveUpLoad_sound | with_reducible apply modGroup_sound | with_reducible apply performBytes_sound | with_reducible apply watchHit_sound | with_reducible apply atomicDone_sound | with_reducible apply setLoad_sound | with_reducible refine foldl_sound (fun _ _ _ => ?_) _ _ ?_ | with_reducible refine foldl_fst_sound (fun _ _ _ => ?_) _ _ ?_ | split | dsimp only | (simp only [sound_mk]; refine wf_of_sound ?_)

theorem fencesGone_sound (s : State) (uid : Nat) (g : Nat) (tag : Nat) (h : Sound s) : Sound (fencesGone s uid g tag) := by
  unfold fencesGone
  repeat' first | with_reducible assumption | with_reducible apply modGroup_sound | with_reducible refine foldl_sound (fun _ _ _ => ?_) _ _ ?_ | with_reducible refine foldl_fst_sound (fun _ _ _ => ?_) _ _ ?_ | split | dsimp only | (simp only [sound_mk]; refine wf_of_sound ?_)

theorem walkFetch_sound (s : State) (die : Nat) (asid : Nat) (va : Nat) (h : Sound s) : Sound (walkFetch s die asid va).1 := by
  unfold walkFetch
  repeat' first | with_reducible assumption | with_reducible apply l2Read_sound | with_reducible refine foldl_sound (fun _ _ _ => ?_) _ _ ?_ | with_reducible refine foldl_fst_sound (fun _ _ _ => ?_) _ _ ?_ | split | dsimp only | (simp only [sound_mk]; refine wf_of_sound ?_)

theorem modCell_sound (s : State) (uid : Nat) (n : Nat) (f : BarCell → BarCell) (h : Sound s) : Sound (modCell s uid n f) := by
  unfold modCell
  repeat' first | with_reducible assumption | with_reducible apply modUnit_sound | with_reducible refine foldl_sound (fun _ _ _ => ?_) _ _ ?_ | with_reducible refine foldl_fst_sound (fun _ _ _ => ?_) _ _ ?_ | split | dsimp only | (simp only [sound_mk]; refine wf_of_sound ?_)

theorem completeCell_sound (s : State) (uid : Nat) (n : Nat) (h : Sound s) : Sound (completeCell s uid n) := by
  unfold completeCell
  repeat' first | with_reducible assumption | with_reducible apply modCell_sound | with_reducible apply modUnit_sound | with_reducible refine foldl_sound (fun _ _ _ => ?_) _ _ ?_ | with_reducible refine foldl_fst_sound (fun _ _ _ => ?_) _ _ ?_ | split | dsimp only | (simp only [sound_mk]; refine wf_of_sound ?_)

theorem discardBuffered_sound (s : State) (uid : Nat) (h : Sound s) : Sound (discardBuffered s uid) := by
  unfold discardBuffered
  repeat' first | with_reducible assumption | with_reducible apply modCore_sound | with_reducible refine foldl_sound (fun _ _ _ => ?_) _ _ ?_ | with_reducible refine foldl_fst_sound (fun _ _ _ => ?_) _ _ ?_ | split | dsimp only | (simp only [sound_mk]; refine wf_of_sound ?_)

theorem commitFences_sound (ids : List Nat) (s : State) (uid : Nat) (h : Sound s) : Sound (commitFences ids s uid) := by
  unfold commitFences
  repeat' first | with_reducible assumption | with_reducible apply modUnit_sound | with_reducible refine foldl_sound (fun _ _ _ => ?_) _ _ ?_ | with_reducible refine foldl_fst_sound (fun _ _ _ => ?_) _ _ ?_ | split | dsimp only | (simp only [sound_mk]; refine wf_of_sound ?_)

theorem clearJournal_sound (s : State) (uid : Nat) (h : Sound s) : Sound (clearJournal s uid) := by
  unfold clearJournal
  repeat' first | with_reducible assumption | with_reducible refine foldl_sound (fun _ _ _ => ?_) _ _ ?_ | with_reducible refine foldl_fst_sound (fun _ _ _ => ?_) _ _ ?_ | split | dsimp only | (simp only [sound_mk]; refine wf_of_sound ?_)

theorem newInterval_sound (s : State) (uid : Nat) (h : Sound s) : Sound (newInterval s uid) := by
  unfold newInterval
  repeat' first | with_reducible assumption | with_reducible apply modUnit_sound | with_reducible apply clearJournal_sound | with_reducible apply journalTouch_sound | with_reducible refine foldl_sound (fun _ _ _ => ?_) _ _ ?_ | with_reducible refine foldl_fst_sound (fun _ _ _ => ?_) _ _ ?_ | split | dsimp only | (simp only [sound_mk]; refine wf_of_sound ?_)

theorem commitPair_sound (s : State) (u : DUnit) (h : Sound s) : Sound (commitPair s u) := by
  unfold commitPair
  repeat' first | with_reducible assumption | with_reducible apply newInterval_sound | with_reducible apply commitFences_sound | with_reducible apply discardBuffered_sound | with_reducible apply modCore_sound | with_reducible refine foldl_sound (fun _ _ _ => ?_) _ _ ?_ | with_reducible refine foldl_fst_sound (fun _ _ _ => ?_) _ _ ?_ | split | dsimp only | (simp only [sound_mk]; refine wf_of_sound ?_)

theorem tryComplete_sound (s : State) (uid : Nat) (n : Nat) (h : Sound s) : Sound (tryComplete s uid n) := by
  unfold tryComplete
  repeat' first | with_reducible assumption | with_reducible apply completeCell_sound | with_reducible apply commitPair_sound | with_reducible apply startRollback_sound | with_reducible refine foldl_sound (fun _ _ _ => ?_) _ _ ?_ | with_reducible refine foldl_fst_sound (fun _ _ _ => ?_) _ _ ?_ | split | dsimp only | (simp only [sound_mk]; refine wf_of_sound ?_)

theorem endOnCell_sound (s : State) (uid : Nat) (g : Nat) (b : BarCell) (h : Sound s) : Sound (endOnCell s uid g b) := by
  unfold endOnCell
  repeat' first | with_reducible assumption | with_reducible apply modCell_sound | with_reducible apply tryComplete_sound | with_reducible refine foldl_sound (fun _ _ _ => ?_) _ _ ?_ | with_reducible refine foldl_fst_sound (fun _ _ _ => ?_) _ _ ?_ | split | dsimp only | (simp only [sound_mk]; refine wf_of_sound ?_)

theorem endGroup_sound (s : State) (uid : Nat) (g : Nat) (h : Sound s) : Sound (endGroup s uid g) := by
  unfold endGroup
  repeat' first | with_reducible assumption | with_reducible apply modGroup_sound | with_reducible apply modPart_sound | with_reducible apply endOnCell_sound | with_reducible refine foldl_sound (fun _ _ _ => ?_) _ _ ?_ | with_reducible refine foldl_fst_sound (fun _ _ _ => ?_) _ _ ?_ | split | dsimp only | (simp only [sound_mk]; refine wf_of_sound ?_)

theorem exitThreads_sound (uid : Nat) (x : Group) (ts : List Nat) (s : State) (h : Sound s) : Sound (exitThreads uid x ts s) := by
  unfold exitThreads
  repeat' first | with_reducible assumption | with_reducible apply giveUpLoad_sound | with_reducible apply modGroup_sound | with_reducible apply endGroup_sound | with_reducible refine foldl_sound (fun _ _ _ => ?_) _ _ ?_ | with_reducible refine foldl_fst_sound (fun _ _ _ => ?_) _ _ ?_ | split | dsimp only | (simp only [sound_mk]; refine wf_of_sound ?_)

theorem arrive_sound (s : State) (uid : Nat) (g : Nat) (n : Nat) (h : Sound s) : Sound (arrive s uid g n) := by
  unfold arrive
  repeat' first | with_reducible assumption | with_reducible apply modGroup_sound | with_reducible apply placeFences_sound | with_reducible refine foldl_sound (fun _ _ _ => ?_) _ _ ?_ | with_reducible refine foldl_fst_sound (fun _ _ _ => ?_) _ _ ?_ | split | dsimp only | (simp only [sound_mk]; refine wf_of_sound ?_)

theorem countArrival_sound (s : State) (uid : Nat) (n : Nat) (who : Option Nat) (ended : Bool) (h : Sound s) : Sound (countArrival s uid n who ended) := by
  unfold countArrival
  repeat' first | with_reducible assumption | with_reducible apply tryComplete_sound | with_reducible apply modCell_sound | with_reducible refine foldl_sound (fun _ _ _ => ?_) _ _ ?_ | with_reducible refine foldl_fst_sound (fun _ _ _ => ?_) _ _ ?_ | split | dsimp only | (simp only [sound_mk]; refine wf_of_sound ?_)

theorem releaseBarriers_sound (s : State) (core : Nat) (part : Nat) (h : Sound s) : Sound (releaseBarriers s core part) := by
  unfold releaseBarriers
  repeat' first | with_reducible assumption | with_reducible apply releaseWait_sound | with_reducible apply acquireGroup_sound | with_reducible refine foldl_sound (fun _ _ _ => ?_) _ _ ?_ | with_reducible refine foldl_fst_sound (fun _ _ _ => ?_) _ _ ?_ | split | dsimp only | (simp only [sound_mk]; refine wf_of_sound ?_)

theorem placeMwait_sound (s : State) (uid : Nat) (g : Nat) (va : Nat) (widx : Nat) (sparw : Word) (word : Word) (h : Sound s) : Sound (placeMwait s uid g va widx sparw word) := by
  unfold placeMwait
  repeat' first | with_reducible assumption | with_reducible apply modGroup_sound | with_reducible refine foldl_sound (fun _ _ _ => ?_) _ _ ?_ | with_reducible refine foldl_fst_sound (fun _ _ _ => ?_) _ _ ?_ | split | dsimp only | (simp only [sound_mk]; refine wf_of_sound ?_)

theorem releaseWhen_sound (s : State) (uid : Nat) (g : Nat) (p : DUnit → Group → Bool) (h : Sound s) : Sound (releaseWhen s uid g p) := by
  unfold releaseWhen
  repeat' first | with_reducible assumption | with_reducible apply releaseWait_sound | with_reducible apply acquireGroup_sound | with_reducible refine foldl_sound (fun _ _ _ => ?_) _ _ ?_ | with_reducible refine foldl_fst_sound (fun _ _ _ => ?_) _ _ ?_ | split | dsimp only | (simp only [sound_mk]; refine wf_of_sound ?_)

theorem mwaitAgain_sound (s : State) (uid : Nat) (g : Nat) (p : Group → Bool) (h : Sound s) : Sound (mwaitAgain s uid g p) := by
  unfold mwaitAgain
  repeat' first | with_reducible assumption | with_reducible apply placeMwait_sound | with_reducible apply modGroup_sound | with_reducible refine foldl_sound (fun _ _ _ => ?_) _ _ ?_ | with_reducible refine foldl_fst_sound (fun _ _ _ => ?_) _ _ ?_ | split | dsimp only | (simp only [sound_mk]; refine wf_of_sound ?_)

theorem rebindDropped_sound (uid : Nat) (g : Nat) (s : State) (lm : Nat × NameSt) (h : Sound s) : Sound (rebindDropped uid g s lm) := by
  unfold rebindDropped
  repeat' first | with_reducible assumption | with_reducible apply bindName_sound | with_reducible apply modGroup_sound | with_reducible apply markSpilled_sound | with_reducible refine foldl_sound (fun _ _ _ => ?_) _ _ ?_ | with_reducible refine foldl_fst_sound (fun _ _ _ => ?_) _ _ ?_ | split | dsimp only | (simp only [sound_mk]; refine wf_of_sound ?_)

theorem restoreDropped_sound (s : State) (uid : Nat) (h : Sound s) : Sound (restoreDropped s uid) := by
  unfold restoreDropped
  repeat' first | with_reducible assumption | with_reducible apply syncPerm_sound | with_reducible apply rebindDropped_sound | with_reducible refine foldl_sound (fun _ _ _ => ?_) _ _ ?_ | with_reducible refine foldl_fst_sound (fun _ _ _ => ?_) _ _ ?_ | split | dsimp only | (simp only [sound_mk]; refine wf_of_sound ?_)

theorem restoreUnit_sound (s : State) (uid : Nat) (h : Sound s) : Sound (restoreUnit s uid) := by
  unfold restoreUnit
  split
  · exact h
  · split
    · exact h
    · next k _ =>
      have : ∀ l : List (Nat × List Byte), Memory.wf (l.foldr (fun e m => Memory.writeAll m e.1 e.2) s.mem) = true := fun l => by
        induction l with
        | nil => exact h
        | cons a l ih => exact Memory.wf_writeAll _ _ ih
      exact restoreDropped_sound _ _ (this k.scratch)

theorem dbgStatStop_sound (s : State) (u : DUnit) (kind : Nat) (first : Bool) (h : Sound s) : Sound (dbgStatStop s u kind first) := by
  unfold dbgStatStop
  repeat' first | with_reducible assumption | with_reducible apply wrReg_sound | with_reducible refine foldl_sound (fun _ _ _ => ?_) _ _ ?_ | with_reducible refine foldl_fst_sound (fun _ _ _ => ?_) _ _ ?_ | split | dsimp only | (simp only [sound_mk]; refine wf_of_sound ?_)

theorem dbgStatClear_sound (s : State) (u : DUnit) (h : Sound s) : Sound (dbgStatClear s u) := by
  unfold dbgStatClear
  repeat' first | with_reducible assumption | with_reducible apply wrReg_sound | with_reducible refine foldl_sound (fun _ _ _ => ?_) _ _ ?_ | with_reducible refine foldl_fst_sound (fun _ _ _ => ?_) _ _ ?_ | split | dsimp only | (simp only [sound_mk]; refine wf_of_sound ?_)

theorem dbgBroadcast_sound (s : State) (u : DUnit) (core : Nat) (except : Option Nat) (src : Nat) (h : Sound s) : Sound (dbgBroadcast s u core except src) := by
  unfold dbgBroadcast
  repeat' first | with_reducible assumption | with_reducible apply modUnit_sound | with_reducible refine foldl_sound (fun _ _ _ => ?_) _ _ ?_ | with_reducible refine foldl_fst_sound (fun _ _ _ => ?_) _ _ ?_ | split | dsimp only | (simp only [sound_mk]; refine wf_of_sound ?_)

theorem hitGroup_sound (s : State) (uid : Nat) (g : Nat) (c : Cond) (kind : Nat) (n : Nat) (rep : Option Report) (h : Sound s) : Sound (hitGroup s uid g c kind n rep) := by
  unfold hitGroup
  repeat' first | with_reducible assumption | with_reducible apply modGroup_sound | with_reducible apply dbgStatStop_sound | with_reducible apply dbgBroadcast_sound | with_reducible refine foldl_sound (fun _ _ _ => ?_) _ _ ?_ | with_reducible refine foldl_fst_sound (fun _ _ _ => ?_) _ _ ?_ | split | dsimp only | (simp only [sound_mk]; refine wf_of_sound ?_)

theorem closeRing_sound (s : State) (core : Nat) (slot : Nat) (h : Sound s) : Sound (closeRing s core slot) := by
  unfold closeRing
  repeat' first | with_reducible assumption | with_reducible apply wrReg_sound | with_reducible refine foldl_sound (fun _ _ _ => ?_) _ _ ?_ | with_reducible refine foldl_fst_sound (fun _ _ _ => ?_) _ _ ?_ | split | dsimp only | (simp only [sound_mk]; refine wf_of_sound ?_)

theorem ringPut_sound (s : State) (core : Nat) (slot : Nat) (pa : Nat) (bs : List Byte) (h : Sound s) : Sound (ringPut s core slot pa bs) := by
  unfold ringPut
  repeat' first | with_reducible assumption | with_reducible apply wakeMwait_sound | with_reducible apply memWriteNow_sound | with_reducible refine foldl_sound (fun _ _ _ => ?_) _ _ ?_ | with_reducible refine foldl_fst_sound (fun _ _ _ => ?_) _ _ ?_ | split | dsimp only | (simp only [sound_mk]; refine wf_of_sound ?_)

theorem ringRecord_sound (s : State) (core : Nat) (slot : Nat) (bs : List Byte) (h : Sound s) : Sound (ringRecord s core slot bs) := by
  unfold ringRecord
  repeat' first | with_reducible assumption | with_reducible apply ringPut_sound | with_reducible apply modCore_sound | with_reducible apply closeRing_sound | with_reducible refine foldl_sound (fun _ _ _ => ?_) _ _ ?_ | with_reducible refine foldl_fst_sound (fun _ _ _ => ?_) _ _ ?_ | split | dsimp only | (simp only [sound_mk]; refine wf_of_sound ?_)

theorem branchWord_sound (i : Instr) (off : BitVec 18) (taken : Word → Bool) (s : State) (h : Sound s) : Sound (branchWord i off taken s) :=
  laneWord_sound i _ _ (fun _ _ _ _ k => advance_sound _ _ _ _ _ _ (beginWord_sound _ _ _ _ _ _ _ _ k)) s h

theorem jumpWord_sound (i : Instr) (off : BitVec 18) (s : State) (h : Sound s) : Sound (jumpWord i off s) := by
  refine laneWord_sound i _ _ (fun uid x ok s k => advance_sound _ _ _ _ _ _ ?_) s h
  split
  · exact beginWord_sound _ _ _ _ _ _ _ _ k
  · exact pushPend_sound _ _ _ (beginWord_sound _ _ _ _ _ _ _ _ k)

theorem xlWord_sound (i : Instr) (f : Group → List Word → Nat → Word → Word) (s : State) (h : Sound s) : Sound (xlWord i f s) := laneResult_sound _ _ _ _ h

theorem spillPut_sound {core dom asid : Nat} {l : List (Nat × Word)} {s t : State} (e : spillPut core dom asid l s = .ok t) (h : Sound s) : Sound t := by
  induction l generalizing s with
  | nil => cases e; exact h
  | cons a l ih =>
    unfold spillPut at e
    split at e
    · cases e
    · exact ih e (memWriteNow_sound _ _ _ _ h)

theorem spillFetch_sound (core : Nat) (dom : Nat) (asid : Nat) (vas : List Nat) (s : State) (h : Sound s) : Sound (spillFetch core dom asid vas s).1 := by
  unfold spillFetch
  repeat' first | with_reducible assumption | with_reducible apply l2Read_sound | with_reducible refine foldl_sound (fun _ _ _ => ?_) _ _ ?_ | with_reducible refine foldl_fst_sound (fun _ _ _ => ?_) _ _ ?_ | split | dsimp only | (simp only [sound_mk]; refine wf_of_sound ?_)

theorem blockFetch_sound (core : Nat) (dom : Nat) (asid : Nat) (va : Nat) (n : Nat) (s : State) (h : Sound s) : Sound (blockFetch core dom asid va n s).1 := by
  unfold blockFetch
  repeat' first | with_reducible assumption | with_reducible apply l2Read_sound | with_reducible refine foldl_sound (fun _ _ _ => ?_) _ _ ?_ | with_reducible refine foldl_fst_sound (fun _ _ _ => ?_) _ _ ?_ | split | dsimp only | (simp only [sound_mk]; refine wf_of_sound ?_)

theorem flushIxs_sound (s : State) (uid : Nat) (g : Nat) (level : Nat) (c : NClass) (n : Nat) (ixs : List Nat) (h : Sound s) : Sound (flushIxs s uid g level c n ixs) := by
  unfold flushIxs
  repeat' first | with_reducible assumption | with_reducible apply modGroup_sound | with_reducible refine spillPut_sound (by assumption) ?_ | with_reducible apply startTrap_sound | with_reducible refine foldl_sound (fun _ _ _ => ?_) _ _ ?_ | with_reducible refine foldl_fst_sound (fun _ _ _ => ?_) _ _ ?_ | split | dsimp only | (simp only [sound_mk]; refine wf_of_sound ?_)

theorem flushName_sound (s : State) (uid : Nat) (g : Nat) (level : Nat) (c : NClass) (n : Nat) (h : Sound s) : Sound (flushName s uid g level c n) := by
  unfold flushName
  repeat' first | with_reducible assumption | with_reducible apply flushIxs_sound | with_reducible refine foldl_sound (fun _ _ _ => ?_) _ _ ?_ | with_reducible refine foldl_fst_sound (fun _ _ _ => ?_) _ _ ?_ | split | dsimp only | (simp only [sound_mk]; refine wf_of_sound ?_)

theorem flushItem_sound (s : State) (i : OutItem) (h : Sound s) : Sound (flushItem s i) := by
  unfold flushItem
  repeat' first | with_reducible assumption | with_reducible apply flushIxs_sound | with_reducible refine foldl_sound (fun _ _ _ => ?_) _ _ ?_ | with_reducible refine foldl_fst_sound (fun _ _ _ => ?_) _ _ ?_ | split | dsimp only | (simp only [sound_mk]; refine wf_of_sound ?_)

theorem drainOut_sound (s : State) (core : Nat) (p : OutItem → Bool) (h : Sound s) : Sound (drainOut s core p) := by
  unfold drainOut
  repeat' first | with_reducible assumption | with_reducible apply flushItem_sound | with_reducible apply modCore_sound | with_reducible refine foldl_sound (fun _ _ _ => ?_) _ _ ?_ | with_reducible refine foldl_fst_sound (fun _ _ _ => ?_) _ _ ?_ | split | dsimp only | (simp only [sound_mk]; refine wf_of_sound ?_)

theorem takeStaging_sound (s : State) (core : Nat) (part : Nat) (uid : Nat) (g : Nat) (c : NClass) (n : Nat) (h : Sound s) : Sound (takeStaging s core part uid g c n) := by
  unfold takeStaging
  repeat' first | with_reducible assumption | with_reducible apply modGroup_sound | with_reducible apply modPart_sound | with_reducible refine foldl_sound (fun _ _ _ => ?_) _ _ ?_ | with_reducible refine foldl_fst_sound (fun _ _ _ => ?_) _ _ ?_ | split | dsimp only | (simp only [sound_mk]; refine wf_of_sound ?_)

theorem fillName_sound (s : State) (u : DUnit) (x : Group) (m : NameSt) (staged : Bool) (h : Sound s) : Sound (fillName s u x m staged) := by
  unfold fillName
  repeat' first | with_reducible assumption | with_reducible apply startTrap_sound | with_reducible apply consumePoison_sound | with_reducible apply modGroup_sound | with_reducible apply syncPerm_sound | with_reducible refine foldl_sound (fun _ _ _ => ?_) _ _ ?_ | with_reducible refine foldl_fst_sound (fun _ _ _ => ?_) _ _ ?_ | split | dsimp only | (simp only [sound_mk]; refine wf_of_sound ?_)

theorem fetchName_sound (s : State) (u : DUnit) (x : Group) (m : NameSt) (h : Sound s) : Sound (fetchName s u x m).1 := by
  unfold fetchName
  repeat' first | with_reducible assumption | with_reducible apply spillFetch_sound | with_reducible refine foldl_sound (fun _ _ _ => ?_) _ _ ?_ | with_reducible refine foldl_fst_sound (fun _ _ _ => ?_) _ _ ?_ | split | dsimp only | (simp only [sound_mk]; refine wf_of_sound ?_)

theorem fillStaging_sound (s : State) (u : DUnit) (x : Group) (m : NameSt) (h : Sound s) : Sound (fillStaging s u x m) := by
  unfold fillStaging
  repeat' first | with_reducible assumption | with_reducible apply fillName_sound | with_reducible apply takeStaging_sound | with_reducible apply countEvent_sound | with_reducible refine foldl_sound (fun _ _ _ => ?_) _ _ ?_ | with_reducible refine foldl_fst_sound (fun _ _ _ => ?_) _ _ ?_ | split | dsimp only | (simp only [sound_mk]; refine wf_of_sound ?_)

theorem fillWhere_sound (s : State) (u : DUnit) (x : Group) (cls : NClass) (num : Nat) (m : NameSt) (h : Sound s) : Sound (fillWhere s u x cls num m) := by
  unfold fillWhere
  repeat' first | with_reducible assumption | with_reducible apply fillName_sound | with_reducible apply fillStaging_sound | with_reducible apply setRes_sound | with_reducible apply markSpilled_sound | with_reducible refine foldl_sound (fun _ _ _ => ?_) _ _ ?_ | with_reducible refine foldl_fst_sound (fun _ _ _ => ?_) _ _ ?_ | split | dsimp only | (simp only [sound_mk]; refine wf_of_sound ?_)

theorem serveWants_sound (s : State) (uid g : Nat) (x : Group) (l : List (NClass × Nat)) (h : Sound s) : Sound (serveWants s uid g x l) := by
  induction l generalizing s with
  | nil => exact modGroup_sound _ _ _ _ h
  | cons a l ih =>
    unfold serveWants
    split
    · exact ih _ h
    split
    · exact modGroup_sound _ _ _ _ h
    · exact ih _ (modGroup_sound _ _ _ _ (setRes_sound _ _ _ _ _ _ _ _ h))

theorem modEq_sound (s : State) (uid : Nat) (g : Nat) (cls : Nat) (id : Nat) (f : EqEntry → EqEntry) (h : Sound s) : Sound (modEq s uid g cls id f) := by
  unfold modEq
  repeat' first | with_reducible assumption | with_reducible apply modGroup_sound | with_reducible refine foldl_sound (fun _ _ _ => ?_) _ _ ?_ | with_reducible refine foldl_fst_sound (fun _ _ _ => ?_) _ _ ?_ | split | dsimp only | (simp only [sound_mk]; refine wf_of_sound ?_)

theorem startEq_sound (s : State) (uid : Nat) (g : Nat) (cls : Nat) (id : Nat) (h : Sound s) : Sound (startEq s uid g cls id) := by
  unfold startEq
  repeat' first | with_reducible assumption | with_reducible apply modEq_sound | with_reducible refine foldl_sound (fun _ _ _ => ?_) _ _ ?_ | with_reducible refine foldl_fst_sound (fun _ _ _ => ?_) _ _ ?_ | split | dsimp only | (simp only [sound_mk]; refine wf_of_sound ?_)

theorem finEq_sound (s : State) (uid : Nat) (g : Nat) (cls : Nat) (id : Nat) (h : Sound s) : Sound (finEq s uid g cls id) := by
  unfold finEq
  repeat' first | with_reducible assumption | with_reducible apply modEq_sound | with_reducible refine foldl_sound (fun _ _ _ => ?_) _ _ ?_ | with_reducible refine foldl_fst_sound (fun _ _ _ => ?_) _ _ ?_ | split | dsimp only | (simp only [sound_mk]; refine wf_of_sound ?_)

theorem failOp_sound (s : State) (uid : Nat) (g : Nat) (cls : Nat) (id : Nat) (cd : Nat × Nat) (addr : Nat) (h : Sound s) : Sound (failOp s uid g cls id cd addr) := by
  unfold failOp
  repeat' first | with_reducible assumption | with_reducible apply raiseAsync_sound | with_reducible apply finEq_sound | with_reducible refine foldl_sound (fun _ _ _ => ?_) _ _ ?_ | with_reducible refine foldl_fst_sound (fun _ _ _ => ?_) _ _ ?_ | split | dsimp only | (simp only [sound_mk]; refine wf_of_sound ?_)

theorem rowSees_sound (s : State) (x : Group) (uid : Nat) (tile : Nat) (t : Nat) (b : Nat) (v : Byte) (h : Sound s) : Sound (rowSees s x uid tile t b v) := by
  unfold rowSees
  repeat' first | with_reducible assumption | with_reducible apply modPart_sound | with_reducible refine foldl_sound (fun _ _ _ => ?_) _ _ ?_ | with_reducible refine foldl_fst_sound (fun _ _ _ => ?_) _ _ ?_ | split | dsimp only | (simp only [sound_mk]; refine wf_of_sound ?_)

theorem chipPut_sound (s : State) (uid : Nat) (g : Nat) (c : NClass) (n : Nat) (t : Nat) (b : Nat) (v : Byte) (last : Bool) (h : Sound s) : Sound (chipPut s uid g c n t b v last) := by
  unfold chipPut
  repeat' first | with_reducible assumption | with_reducible apply modGroup_sound | with_reducible apply syncPerm_sound | with_reducible apply rowSees_sound | with_reducible refine foldl_sound (fun _ _ _ => ?_) _ _ ?_ | with_reducible refine foldl_fst_sound (fun _ _ _ => ?_) _ _ ?_ | split | dsimp only | (simp only [sound_mk]; refine wf_of_sound ?_)

theorem watchCmd_sound (old : State) (s : State) (c : Cmd) (w : Bool) (pa : Nat) (n : Nat) (h : Sound old) (h1 : Sound s) : Sound (watchCmd old s c w pa n) := by
  unfold watchCmd
  repeat' first | with_reducible assumption | with_reducible apply watchHitBy_sound | with_reducible apply watchHit_sound | with_reducible refine foldl_sound (fun _ _ _ => ?_) _ _ ?_ | with_reducible refine foldl_fst_sound (fun _ _ _ => ?_) _ _ ?_ | split | dsimp only | (simp only [sound_mk]; refine wf_of_sound ?_)

theorem engFetch_sound (s : State) (c : Cmd) (va : Nat) (n : Nat) (h : Sound s) : Sound (engFetch s c va n).1 := by
  unfold engFetch
  repeat' first | with_reducible assumption | with_reducible apply l2Read_sound | with_reducible refine foldl_sound (fun _ _ _ => ?_) _ _ ?_ | with_reducible refine foldl_fst_sound (fun _ _ _ => ?_) _ _ ?_ | split | dsimp only | (simp only [sound_mk]; refine wf_of_sound ?_)

theorem readHits_sound (s : State) (c : Cmd) (va : Nat) (n : Nat) (h : Sound s) : Sound (readHits s c va n) := by
  unfold readHits
  repeat' first | with_reducible assumption | with_reducible apply watchCmd_sound | with_reducible refine foldl_sound (fun _ _ _ => ?_) _ _ ?_ | with_reducible refine foldl_fst_sound (fun _ _ _ => ?_) _ _ ?_ | split | dsimp only | (simp only [sound_mk]; refine wf_of_sound ?_)

theorem engStore_sound (s : State) (c : Cmd) (pa : Nat) (bs : List Byte) (h : Sound s) : Sound (engStore s c pa bs) := by
  unfold engStore
  repeat' first | with_reducible assumption | with_reducible apply journalScratch_sound | with_reducible apply chipPut_sound | with_reducible apply journalNames_sound | with_reducible apply homeWrite_sound | with_reducible apply arraysSee_sound | with_reducible apply memWrite_sound | with_reducible refine foldl_sound (fun _ _ _ => ?_) _ _ ?_ | with_reducible refine foldl_fst_sound (fun _ _ _ => ?_) _ _ ?_ | split | dsimp only | (simp only [sound_mk]; refine wf_of_sound ?_)

theorem engPut_sound (s : State) (c : Cmd) (pa : Nat) (bs : List Byte) (h : Sound s) : Sound (engPut s c pa bs) := by
  unfold engPut
  repeat' first | with_reducible assumption | with_reducible apply wakeMwait_sound | with_reducible apply watchCmd_sound | with_reducible apply engStore_sound | with_reducible refine foldl_sound (fun _ _ _ => ?_) _ _ ?_ | with_reducible refine foldl_fst_sound (fun _ _ _ => ?_) _ _ ?_ | split | dsimp only | (simp only [sound_mk]; refine wf_of_sound ?_)

theorem markCell_sound (s : State) (pa : Nat) (h : Sound s) : Sound (markCell s pa) := by
  unfold markCell
  repeat' first | with_reducible assumption | with_reducible apply modDie_sound | with_reducible refine foldl_sound (fun _ _ _ => ?_) _ _ ?_ | with_reducible refine foldl_fst_sound (fun _ _ _ => ?_) _ _ ?_ | split | dsimp only | (simp only [sound_mk]; refine wf_of_sound ?_)

theorem cellAdd_sound (s : State) (c : Cmd) (pa : Nat) (n : Nat) (h : Sound s) : Sound (cellAdd s c pa n) := by
  unfold cellAdd
  repeat' first | with_reducible assumption | with_reducible apply watchHitBy_sound | with_reducible apply consumePoison_sound | with_reducible apply wakeMwait_sound | with_reducible apply watchHit_sound | with_reducible apply engStore_sound | with_reducible apply markCell_sound | with_reducible refine foldl_sound (fun _ _ _ => ?_) _ _ ?_ | with_reducible refine foldl_fst_sound (fun _ _ _ => ?_) _ _ ?_ | split | dsimp only | (simp only [sound_mk]; refine wf_of_sound ?_)

theorem engBuffer_sound (base : Nat) (s : State) (c : Cmd) (va : Nat) (pa : Nat) (bs : List Byte) (h : Sound s) : Sound (engBuffer base s c va pa bs) := by
  unfold engBuffer
  repeat' first | with_reducible assumption | with_reducible apply modCore_sound | with_reducible refine foldl_sound (fun _ _ _ => ?_) _ _ ?_ | with_reducible refine foldl_fst_sound (fun _ _ _ => ?_) _ _ ?_ | split | dsimp only | (simp only [sound_mk]; refine wf_of_sound ?_)

theorem engWriteFetch_sound (s : State) (c : Cmd) (runs : List (Nat × List Byte)) (h : Sound s) : Sound (engWriteFetch s c runs).1 := by
  unfold engWriteFetch
  repeat' first | with_reducible assumption | with_reducible apply writeFetchAll_sound | with_reducible refine foldl_sound (fun _ _ _ => ?_) _ _ ?_ | with_reducible refine foldl_fst_sound (fun _ _ _ => ?_) _ _ ?_ | split | dsimp only | (simp only [sound_mk]; refine wf_of_sound ?_)

theorem engPieceTo_sound (u : DUnit) (c : Cmd) (base : Nat) (s : State) (p : Nat × Nat × List Byte) (h : Sound s) : Sound (engPieceTo u c base s p) := by
  unfold engPieceTo
  repeat' first | with_reducible assumption | with_reducible apply engBuffer_sound | with_reducible apply engPut_sound | with_reducible refine foldl_sound (fun _ _ _ => ?_) _ _ ?_ | with_reducible refine foldl_fst_sound (fun _ _ _ => ?_) _ _ ?_ | split | dsimp only | (simp only [sound_mk]; refine wf_of_sound ?_)

theorem engWrite_sound {s t : State} {c : Cmd} {runs : List (Nat × List Byte)} (e : engWrite s c runs = .ok t) (h : Sound s) : Sound t := by
  unfold engWrite at e
  split at e
  · cases e
  · split at e
    · cases e; exact h
    · split at e
      · cases e; exact foldl_sound (fun s p k => engPieceTo_sound _ _ _ _ _ k) _ _ h
      · split at e
        · cases e; exact cbufTake_sound _ _ _ _ _ h
        · cases e
          exact foldl_sound (fun s p k => engPieceTo_sound _ _ _ _ _ k) _ _ (modGroup_sound _ _ _ _ (cbufTake_sound _ _ _ _ _ h))

theorem spillAll_sound {s t : State} {uid g : Nat} {l : List NameRec} (e : spillAll s uid g l = some t) (h : Sound s) : Sound t := by
  induction l generalizing s with
  | nil => cases e; exact h
  | cons a l ih =>
    unfold spillAll at e
    split at e
    · cases e
    · split at e
      · cases e
      · split at e
        · exact ih e (markSpilled_sound _ _ _ _ _ _ h)
        · cases e

theorem bindAll_sound {s t : State} {uid g : Nat} {l : List NameRec} (e : bindAll s uid g l = some t) (h : Sound s) : Sound t := by
  induction l generalizing s with
  | nil => cases e; exact h
  | cons a l ih =>
    unfold bindAll at e
    dsimp only at e
    split at e
    · exact ih e (bindName_sound _ _ _ _ _ _ _ _ h)
    · split at e
      · cases e
      · split at e
        · cases e
        · next w => exact ih e (spillAll_sound w (bindName_sound _ _ _ _ _ _ _ _ h))

theorem bindGroup_sound {s t : State} {uid g : Nat} {k : Kernel} {avail : NClass → Nat} {early : NClass → Bool} {comm : Bool}
    (e : bindGroup s uid g k avail early comm = some t) (h : Sound s) : Sound t := by
  unfold bindGroup at e
  split at e
  · cases e
  · dsimp only at e
    split at e
    · split at e
      · cases e
      · next w =>
        split at e
        · cases e
        · next v =>
          split at e
          · cases e
            exact bindAll_sound v (spillAll_sound w (modGroup_sound _ _ _ _ h))
          · cases e
    · cases e

theorem placeGroup_sound {s t : State} {uid g core width dom : Nat} {k : Kernel} (e : placeGroup s uid g core width dom k = some t) (h : Sound s) : Sound t := by
  unfold placeGroup at e
  split at e
  · cases e
  · dsimp only at e
    obtain ⟨p, -, w⟩ := List.exists_of_findSome?_eq_some e
    split at w
    · cases w
    · exact bindGroup_sound w (modUnit_sound _ _ _ h)

theorem placeGroups_sound {uid width dom : Nat} {k : Kernel} {fuel : Nat} {l : List Nat} {g n : Nat} {s t : State}
    (e : placeGroups uid width dom k fuel l g n s = some t) (h : Sound s) : Sound t := by
  induction fuel generalizing l g s with
  | zero => cases l <;> simp [placeGroups] at e
  | succ fuel ih =>
    cases l with
    | nil =>
      simp only [placeGroups] at e
      split at e
      · cases e; exact h
      · cases e
    | cons a l =>
      simp only [placeGroups] at e
      split at e
      · cases e; exact h
      · split at e
        · next w => exact ih e (placeGroup_sound w h)
        · exact ih e h

theorem bindBuffers_sound {uid core dom slot i : Nat} {l : List BufRec} {s t : State} (e : bindBuffers s uid core dom slot i l = some t) (h : Sound s) : Sound t := by
  induction l generalizing s i with
  | nil => cases e; exact h
  | cons a l ih =>
    unfold bindBuffers at e
    split at e
    · cases e
    · exact ih e (modUnit_sound _ _ _ h)

theorem bindAllBuffers_sound {uid dom : Nat} {k : Kernel} {l : List Nat} {s t : State} (e : bindAllBuffers uid dom k l s = some t) (h : Sound s) : Sound t := by
  induction l generalizing s with
  | nil => cases e; exact h
  | cons a l ih =>
    unfold bindAllBuffers at e
    split at e
    · cases e
    · obtain ⟨s1, w, v⟩ := Option.bind_eq_some_iff.mp e
      exact ih v (bindBuffers_sound w h)

theorem bindBars_sound {s t : State} {uid core dom slot n : Nat} {l : List BarRec} (e : bindBars s uid core dom slot n l = some t) (h : Sound s) : Sound t := by
  induction l generalizing s with
  | nil => cases e; exact h
  | cons a l ih =>
    unfold bindBars at e
    dsimp only at e
    split at e
    · cases e
    · split at e
      · cases e
      · exact ih e (modUnit_sound _ _ _ h)

theorem placeWrite_sound (s : State) (uid : Nat) (g : Nat) (c : NClass) (n : Nat) (w : Word) (h : Sound s) : Sound (placeWrite s uid g c n w) := by
  unfold placeWrite
  repeat' first | with_reducible assumption | with_reducible apply modGroup_sound | with_reducible refine foldl_sound (fun _ _ _ => ?_) _ _ ?_ | with_reducible refine foldl_fst_sound (fun _ _ _ => ?_) _ _ ?_ | split | dsimp only | (simp only [sound_mk]; refine wf_of_sound ?_)

theorem argRead_sound (s : State) (u : DUnit) (x : Group) (a : ArgRec) (i : Nat) (h : Sound s) : Sound (argRead s u x a i) := by
  unfold argRead
  repeat' first | with_reducible assumption | with_reducible apply startTrap_sound | with_reducible apply fatalStop_sound | with_reducible apply placeWrite_sound | with_reducible refine foldl_sound (fun _ _ _ => ?_) _ _ ?_ | with_reducible refine foldl_fst_sound (fun _ _ _ => ?_) _ _ ?_ | split | dsimp only | (simp only [sound_mk]; refine wf_of_sound ?_)

theorem argWrite_sound (u : DUnit) (x : Group) (s : State) (a : ArgRec) (h : Sound s) : Sound (argWrite u x s a) := by
  unfold argWrite
  repeat' first | with_reducible assumption | with_reducible apply argRead_sound | with_reducible apply placeWrite_sound | with_reducible refine foldl_sound (fun _ _ _ => ?_) _ _ ?_ | with_reducible refine foldl_fst_sound (fun _ _ _ => ?_) _ _ ?_ | split | dsimp only | (simp only [sound_mk]; refine wf_of_sound ?_)

theorem placeWrites_sound (uid : Nat) (s : State) (g : Nat) (h : Sound s) : Sound (placeWrites uid s g) := by
  unfold placeWrites
  repeat' first | with_reducible assumption | with_reducible apply placeWrite_sound | with_reducible apply argWrite_sound | with_reducible refine foldl_sound (fun _ _ _ => ?_) _ _ ?_ | with_reducible refine foldl_fst_sound (fun _ _ _ => ?_) _ _ ?_ | split | dsimp only | (simp only [sound_mk]; refine wf_of_sound ?_)

theorem placeUnit_sound {s t : State} {u : DUnit} {k : Kernel} {l : List Nat} (e : placeUnit s u k l = some t) (h : Sound s) : Sound t := by
  unfold placeUnit at e
  dsimp only at e
  split at e
  · cases e
  · next w =>
    split at e
    · cases e
    · split at e
      · cases e
      · split at e
        · next v _ =>
          exact bindBars_sound e (bindAllBuffers_sound v (modUnit_sound _ _ _ (placeGroups_sound w h)))
        · cases e

theorem unitWrites_sound (s : State) (uid : Nat) (h : Sound s) : Sound (unitWrites s uid) := by
  unfold unitWrites
  repeat' first | with_reducible assumption | with_reducible apply placeWrites_sound | with_reducible refine foldl_sound (fun _ _ _ => ?_) _ _ ?_ | with_reducible refine foldl_fst_sound (fun _ _ _ => ?_) _ _ ?_ | split | dsimp only | (simp only [sound_mk]; refine wf_of_sound ?_)

theorem groupBranch_sound (i : Instr) (off : BitVec 18) (taken : Word → Bool) (s : State) (h : Sound s) : Sound (groupBranch i off taken s) :=
  groupWord_sound i _ _ (fun _ _ _ _ k => advance_sound _ _ _ _ _ _ (beginWord_sound _ _ _ _ _ _ _ _ k)) s h

theorem groupValue_sound (i : Instr) (f : State → Group → Word) (s : State) (h : Sound s) : Sound (groupValue i f s) :=
  groupWord_sound i _ _ (fun _ _ _ _ => groupResult_sound _ _ _ _ _ _ _) s h

theorem gateTrap_sound (s : State) (uid : Nat) (x : Group) (off : Nat) (cd : Nat × Nat) (addr : Nat) (h : Sound s) : Sound (gateTrap s uid x off cd addr) := by
  unfold gateTrap
  repeat' first | with_reducible assumption | with_reducible apply raiseThread_sound | with_reducible apply modGroup_sound | with_reducible refine foldl_sound (fun _ _ _ => ?_) _ _ ?_ | with_reducible refine foldl_fst_sound (fun _ _ _ => ?_) _ _ ?_ | split | dsimp only | (simp only [sound_mk]; refine wf_of_sound ?_)

theorem bindShared_sound (s0 : State) (uid : Nat) (g : Nat) (d : Gable) (h : Sound s0) : Sound (bindShared s0 uid g d) := by
  unfold bindShared
  repeat' first | with_reducible assumption | with_reducible apply modGroup_sound | with_reducible apply bindAtWrite_sound | with_reducible refine foldl_sound (fun _ _ _ => ?_) _ _ ?_ | with_reducible refine foldl_fst_sound (fun _ _ _ => ?_) _ _ ?_ | split | dsimp only | (simp only [sound_mk]; refine wf_of_sound ?_)

theorem gableEnter_sound (s : State) (uid g idx : Nat) (d : Gable) (t : Nat) (k : Kernel) (h : Sound s) : Sound (gableEnter s uid g idx d t k) := by
  unfold gableEnter
  dsimp only
  split
  · exact h
  · split
    · exact modGroup_sound _ _ _ _ h
    · next e =>
      exact modGroup_sound _ _ _ _ (acquireGroup_sound _ _ _ (bindGroup_sound e (modGroup_sound _ _ _ _ (bindShared_sound _ _ _ _ h))))

theorem dropStaging_sound (s : State) (uid : Nat) (x : Group) (h : Sound s) : Sound (dropStaging s uid x) := by
  unfold dropStaging
  repeat' first | with_reducible assumption | with_reducible apply modPart_sound | with_reducible refine foldl_sound (fun _ _ _ => ?_) _ _ ?_ | with_reducible refine foldl_fst_sound (fun _ _ _ => ?_) _ _ ?_ | split | dsimp only | (simp only [sound_mk]; refine wf_of_sound ?_)

theorem freshRows_sound (s : State) (uid : Nat) (g : Nat) (tile : Nat) (ts : List Nat) (h : Sound s) : Sound (freshRows s uid g tile ts) := by
  unfold freshRows
  repeat' first | with_reducible assumption | with_reducible apply modGroup_sound | with_reducible refine foldl_sound (fun _ _ _ => ?_) _ _ ?_ | with_reducible refine foldl_fst_sound (fun _ _ _ => ?_) _ _ ?_ | split | dsimp only | (simp only [sound_mk]; refine wf_of_sound ?_)

theorem mxEff_sound (i : Instr) (tile : Nat) (dst : Bool) (op : Group → List Nat → MxOp) (uid : Nat) (x : Group) (ok : List Nat) (s : State) (h : Sound s) : Sound (mxEff i tile dst op uid x ok s) := by
  unfold mxEff
  repeat' first | with_reducible assumption | with_reducible apply beginWord_sound | with_reducible apply freshRows_sound | with_reducible apply pushEq_sound | with_reducible apply modPart_sound | with_reducible apply advanceNext_sound | with_reducible refine foldl_sound (fun _ _ _ => ?_) _ _ ?_ | with_reducible refine foldl_fst_sound (fun _ _ _ => ?_) _ _ ?_ | split | dsimp only | (simp only [sound_mk]; refine wf_of_sound ?_)

theorem mxWord_sound (i : Instr) (tile : BitVec 7) (dst : Bool) (op : State → Group → List Nat → MxOp) (s : State) (h : Sound s) : Sound (mxWord i tile dst op s) :=
  laneWord_sound i _ _ (fun _ _ _ _ => mxEff_sound _ _ _ _ _ _ _ _) s h

theorem permFails_sound {s t : State} {u : DUnit} {x : Group} {n : Nat} (e : permFails s u x n = some t) (h : Sound s) : Sound t := by
  unfold permFails at e
  split at e
  · cases e
  · split at e
    · cases e
    · cases e; exact startTrap_sound _ _ _ _ _ h
    · cases e; exact consumePoison_sound _ _ _ _ _ h

theorem fillRow_sound (s : State) (uid : Nat) (g : Nat) (tile : Nat) (row : Nat) (h : Sound s) : Sound (fillRow s uid g tile row) := by
  unfold fillRow
  repeat' first | with_reducible assumption | with_reducible apply startTrap_sound | with_reducible apply consumePoison_sound | with_reducible apply modGroup_sound | with_reducible refine foldl_sound (fun _ _ _ => ?_) _ _ ?_ | with_reducible refine foldl_fst_sound (fun _ _ _ => ?_) _ _ ?_ | split | dsimp only | (simp only [sound_mk]; refine wf_of_sound ?_)

theorem stageTile_sound {s : State} {x : Group} {e : MxEntry} (h : Sound s) : Sound (stageTile s x e).1 := by
  unfold stageTile
  split
  · exact h
  · split
    · exact h
    · dsimp only
      refine foldl_sound (fun s r => fillRow_sound s _ _ _ r) _ _ ?_
      split
      · exact takeStaging_sound _ _ _ _ _ _ _ h
      · exact modGroup_sound _ _ _ _ (takeStaging_sound _ _ _ _ _ _ _ h)

theorem readyTile_sound {s : State} {u : DUnit} {x : Group} {e : MxEntry} (h : Sound s) : Sound (readyTile s u x e).1 := by
  unfold readyTile
  repeat' first | with_reducible assumption | with_reducible apply fillName_sound | with_reducible apply stageTile_sound | with_reducible apply setRes_sound | with_reducible apply markSpilled_sound | split | dsimp only

theorem mxReadHits_sound (s : State) (c : Cmd) (rs : List (Nat × Nat)) (h : Sound s) : Sound (mxReadHits s c rs) := by
  unfold mxReadHits
  repeat' first | with_reducible assumption | with_reducible apply watchCmd_sound | with_reducible refine foldl_sound (fun _ _ _ => ?_) _ _ ?_ | with_reducible refine foldl_fst_sound (fun _ _ _ => ?_) _ _ ?_ | split | dsimp only | (simp only [sound_mk]; refine wf_of_sound ?_)

theorem startMx_sound (s : State) (core part : Nat) (e : MxEntry) (u : DUnit) (x : Group) (q : EqEntry) (h : Sound s) : Sound (startMx s core part e u x q) := by
  have h1 : Sound (startEq (countEvent (readyTile (countEvent s core part x.dom 5 1) u x e).1 core part x.dom 11
      (if (readyTile (countEvent s core part x.dom 5 1) u x e).2 = 0 then 0 else 1)) e.uid e.g 1 e.eq) :=
    startEq_sound _ _ _ _ _ (countEvent_sound _ _ _ _ _ _ (readyTile_sound (countEvent_sound _ _ _ _ _ _ h)))
  unfold startMx
  dsimp only
  generalize startEq _ _ _ _ _ = s1 at h1 ⊢
  split
  · exact raiseAsync_sound _ _ _ _ _ (modPart_sound _ _ _ _ h1)
  · refine modPart_sound _ _ _ _ ?_
    have h2 := mxReadHits_sound s1 (cmdOf ((groupOf s1 e.uid e.g).getD x) e.uid 1 ((groupOf s1 e.uid e.g).getD x).dom ((groupOf s1 e.uid e.g).getD x).asid q)
    exact h2 _ h1

theorem dropHead_sound (s : State) (core : Nat) (part : Nat) (e : MxEntry) (h : Sound s) : Sound (dropHead s core part e) := by
  unfold dropHead
  repeat' first | with_reducible assumption | with_reducible apply finEq_sound | with_reducible apply modPart_sound | with_reducible refine foldl_sound (fun _ _ _ => ?_) _ _ ?_ | with_reducible refine foldl_fst_sound (fun _ _ _ => ?_) _ _ ?_ | split | dsimp only | (simp only [sound_mk]; refine wf_of_sound ?_)

theorem dropRun_sound (s : State) (core : Nat) (part : Nat) (e : MxEntry) (h : Sound s) : Sound (dropRun s core part e) := by
  unfold dropRun
  repeat' first | with_reducible assumption | with_reducible apply modPart_sound | with_reducible refine foldl_sound (fun _ _ _ => ?_) _ _ ?_ | with_reducible refine foldl_fst_sound (fun _ _ _ => ?_) _ _ ?_ | split | dsimp only | (simp only [sound_mk]; refine wf_of_sound ?_)

theorem writeRun_sound (s : State) (core : Nat) (part : Nat) (r : MxRun) (h : Sound s) : Sound (writeRun s core part r) := by
  unfold writeRun
  repeat' first | with_reducible assumption | with_reducible apply modGroup_sound | with_reducible apply flushName_sound | with_reducible apply finEq_sound | with_reducible refine foldl_sound (fun _ _ _ => ?_) _ _ ?_ | with_reducible refine foldl_fst_sound (fun _ _ _ => ?_) _ _ ?_ | split | dsimp only | (simp only [sound_mk]; refine wf_of_sound ?_)

theorem storeRow_sound (s : State) (u : DUnit) (x : Group) (c : Cmd) (row : Nat × Nat × List Byte) (h : Sound s) : Sound (storeRow s u x c row) := by
  unfold storeRow
  repeat' first | with_reducible assumption | with_reducible apply modGroup_sound | with_reducible apply cbufTake_sound | with_reducible apply modCore_sound | with_reducible apply engPut_sound | with_reducible refine foldl_sound (fun _ _ _ => ?_) _ _ ?_ | with_reducible refine foldl_fst_sound (fun _ _ _ => ?_) _ _ ?_ | split | dsimp only | (simp only [sound_mk]; refine wf_of_sound ?_)

theorem swapName_sound (uid : Nat) (g : Nat) (s : State) (lm : Nat × NameSt) (h : Sound s) : Sound (swapName uid g s lm) := by
  unfold swapName
  repeat' first | with_reducible assumption | with_reducible apply countNoslot_sound | with_reducible apply giveSlot_sound | with_reducible apply writeOutFailed_sound | with_reducible apply flushName_sound | with_reducible apply writeOutName_sound | with_reducible refine foldl_sound (fun _ _ _ => ?_) _ _ ?_ | with_reducible refine foldl_fst_sound (fun _ _ _ => ?_) _ _ ?_ | split | dsimp only | (simp only [sound_mk]; refine wf_of_sound ?_)

theorem swapOut_sound (s : State) (u : DUnit) (x : Group) (h : Sound s) : Sound (swapOut s u x) := by
  have h1 : Sound ((swapNames s u.uid x).foldl (swapName u.uid x.gidx) s) := foldl_sound (fun s a => swapName_sound _ _ s a) _ _ h
  unfold swapOut
  dsimp only
  split
  · exact startTrap_sound _ _ _ _ _ h1
  · next e => exact modPart_sound _ _ _ _ (spillPut_sound e h1)

theorem countFrame_sound (s : State) (u : DUnit) (h : Sound s) : Sound (countFrame s u) := by
  unfold countFrame
  repeat' first | with_reducible assumption | with_reducible apply wrReg_sound | with_reducible refine foldl_sound (fun _ _ _ => ?_) _ _ ?_ | with_reducible refine foldl_fst_sound (fun _ _ _ => ?_) _ _ ?_ | split | dsimp only | (simp only [sound_mk]; refine wf_of_sound ?_)

theorem dbgStopped_sound (s : State) (u : DUnit) (x : Group) (t : Trap) (swapped : Bool) (h : Sound s) : Sound (dbgStopped s u x t swapped) := by
  unfold dbgStopped
  repeat' first | with_reducible assumption | with_reducible apply countFrame_sound | with_reducible apply modGroup_sound | with_reducible refine foldl_sound (fun _ _ _ => ?_) _ _ ?_ | with_reducible refine foldl_fst_sound (fun _ _ _ => ?_) _ _ ?_ | split | dsimp only | (simp only [sound_mk]; refine wf_of_sound ?_)

theorem gableAbort_sound (s : State) (uid : Nat) (x : Group) (h : Sound s) : Sound (gableAbort s uid x) := by
  unfold gableAbort
  repeat' first | with_reducible assumption | with_reducible apply giveUpLoad_sound | with_reducible apply modGroup_sound | with_reducible refine foldl_sound (fun _ _ _ => ?_) _ _ ?_ | with_reducible refine foldl_fst_sound (fun _ _ _ => ?_) _ _ ?_ | split | dsimp only | (simp only [sound_mk]; refine wf_of_sound ?_)

theorem rebindNames_sound (s : State) (uid g : Nat) (slots : Nat → Bool) (h : Sound s) : Sound (rebindNames s uid g slots) := by
  unfold rebindNames
  split
  · exact h
  · refine foldl_sound (fun s m k => ?_) _ _ h
    dsimp only
    split
    · exact bindName_sound _ _ _ _ _ _ _ _ k
    · split
      · exact markSpilled_sound _ _ _ _ _ _ (bindName_sound _ _ _ _ _ _ _ _ k)
      · exact bindName_sound _ _ _ _ _ _ _ _ k

theorem swapRead_sound (s : State) (u : DUnit) (x : Group) (vas : List Nat) (h : Sound s) : Sound (swapRead s u x vas).1 := by
  unfold swapRead
  repeat' first | with_reducible assumption | with_reducible apply startTrap_sound | with_reducible apply consumePoison_sound | with_reducible refine foldl_sound (fun _ _ _ => ?_) _ _ ?_ | with_reducible refine foldl_fst_sound (fun _ _ _ => ?_) _ _ ?_ | split | dsimp only | (simp only [sound_mk]; refine wf_of_sound ?_)

theorem swapFetch_sound (s : State) (x : Group) (h : Sound s) : Sound (swapFetch s x).1 := by
  have e : swapFetch s x = (let h := blockFetch x.core x.dom x.asid (swapVa s x) 256 s
      if !h.2 then h else spillFetch x.core x.dom x.asid ((swapHeader h.1 x).flatMap (fun e => rsvVas s x e.2.1)) h.1) := rfl
  have h1 := blockFetch_sound x.core x.dom x.asid (swapVa s x) 256 s h
  rw [e]
  generalize blockFetch x.core x.dom x.asid (swapVa s x) 256 s = q at h1 ⊢
  by_cases hq : (!q.2) = true
  · simp only [hq, if_true]; exact h1
  · simp only [hq]; exact spillFetch_sound _ _ _ _ _ h1

theorem rsvIn_sound (u : DUnit) (x : Group) (s : State) (e : Nat × Nat × Word) (h : Sound s) : Sound (rsvIn u x s e) := by
  unfold rsvIn
  repeat' first | with_reducible assumption | with_reducible apply modPart_sound | with_reducible apply swapRead_sound | with_reducible apply homeWrite_sound | with_reducible refine foldl_sound (fun _ _ _ => ?_) _ _ ?_ | with_reducible refine foldl_fst_sound (fun _ _ _ => ?_) _ _ ?_ | split | dsimp only | (simp only [sound_mk]; refine wf_of_sound ?_)

theorem swapIn_sound (u : DUnit) (s : State) (x : Group) (h : Sound s) : Sound (swapIn u s x) := by
  unfold swapIn
  repeat' first | with_reducible assumption | with_reducible apply rebindNames_sound | with_reducible apply rsvIn_sound | with_reducible apply swapRead_sound | with_reducible apply modGroup_sound | with_reducible refine foldl_sound (fun _ _ _ => ?_) _ _ ?_ | with_reducible refine foldl_fst_sound (fun _ _ _ => ?_) _ _ ?_ | split | dsimp only | (simp only [sound_mk]; refine wf_of_sound ?_)

theorem fetchAll_sound (s : State) (xs : List Group) (h : Sound s) : Sound (fetchAll s xs).1 := by
  have e : fetchAll s xs = xs.foldl (fun q x => if x.dbg.mode ≠ 1 || !x.dbg.swapped then q else let r := swapFetch q.1 x
      (r.1, q.2 && r.2)) (s, true) := rfl
  rw [e]
  refine foldl_fst_sound (fun q x k => ?_) xs (s, true) h
  have k2 := swapFetch_sound q.1 x k
  generalize swapFetch q.1 x = r at k2 ⊢
  split
  · exact k
  · exact k2

theorem dbgAnswer_sound (s : State) (core : Nat) (slot : Nat) (v : Nat) (ans : Nat) (h : Sound s) : Sound (dbgAnswer s core slot v ans) := by
  unfold dbgAnswer
  repeat' first | with_reducible assumption | with_reducible apply wrReg_sound | with_reducible refine foldl_sound (fun _ _ _ => ?_) _ _ ?_ | with_reducible refine foldl_fst_sound (fun _ _ _ => ?_) _ _ ?_ | split | dsimp only | (simp only [sound_mk]; refine wf_of_sound ?_)

theorem dbgWaits_sound (s : State) (core : Nat) (slot : Nat) (v : Nat) (h : Sound s) : Sound (dbgWaits s core slot v) := by
  unfold dbgWaits
  repeat' first | with_reducible assumption | with_reducible apply wrReg_sound | with_reducible refine foldl_sound (fun _ _ _ => ?_) _ _ ?_ | with_reducible refine foldl_fst_sound (fun _ _ _ => ?_) _ _ ?_ | split | dsimp only | (simp only [sound_mk]; refine wf_of_sound ?_)

theorem resumeCmd_sound (core : Nat) (slot : Nat) (v : Nat) (s : State) (h : Sound s) : Sound (resumeCmd core slot v s) := by
  unfold resumeCmd
  repeat' first | with_reducible assumption | with_reducible apply dbgAnswer_sound | with_reducible apply fetchAll_sound | with_reducible apply dbgWaits_sound | with_reducible apply modUnit_sound | with_reducible apply swapIn_sound | with_reducible apply dbgStatClear_sound | with_reducible refine foldl_sound (fun _ _ _ => ?_) _ _ ?_ | with_reducible refine foldl_fst_sound (fun _ _ _ => ?_) _ _ ?_ | split | dsimp only | (simp only [sound_mk]; refine wf_of_sound ?_)

theorem stepCmd_sound (core : Nat) (slot : Nat) (v : Nat) (s : State) (h : Sound s) : Sound (stepCmd core slot v s) := by
  unfold stepCmd
  repeat' first | with_reducible assumption | with_reducible apply dbgAnswer_sound | with_reducible apply fetchAll_sound | with_reducible apply dbgWaits_sound | with_reducible apply modGroup_sound | with_reducible apply swapIn_sound | with_reducible apply wrReg_sound | with_reducible refine foldl_sound (fun _ _ _ => ?_) _ _ ?_ | with_reducible refine foldl_fst_sound (fun _ _ _ => ?_) _ _ ?_ | split | dsimp only | (simp only [sound_mk]; refine wf_of_sound ?_)

theorem stopCmd_sound (core : Nat) (slot : Nat) (v : Nat) (s : State) (h : Sound s) : Sound (stopCmd core slot v s) := by
  unfold stopCmd
  repeat' first | with_reducible assumption | with_reducible apply dbgAnswer_sound | with_reducible apply dbgBroadcast_sound | with_reducible apply dbgStatStop_sound | with_reducible refine foldl_sound (fun _ _ _ => ?_) _ _ ?_ | with_reducible refine foldl_fst_sound (fun _ _ _ => ?_) _ _ ?_ | split | dsimp only | (simp only [sound_mk]; refine wf_of_sound ?_)

theorem queryCmd_sound (core : Nat) (v : Nat) (s : State) (h : Sound s) : Sound (queryCmd core v s) := by
  unfold queryCmd
  repeat' first | with_reducible assumption | with_reducible apply wrReg_sound | with_reducible apply modCore_sound | with_reducible refine foldl_sound (fun _ _ _ => ?_) _ _ ?_ | with_reducible refine foldl_fst_sound (fun _ _ _ => ?_) _ _ ?_ | split | dsimp only | (simp only [sound_mk]; refine wf_of_sound ?_)

theorem pmEff_sound (i : Instr) (dst : Nat) (op : RtOp) (uid : Nat) (x : Group) (ts : List Nat) (s : State) (h : Sound s) : Sound (pmEff i dst op uid x ts s) := by
  unfold pmEff
  repeat' first | with_reducible assumption | with_reducible apply beginWord_sound | with_reducible apply pushEq_sound | with_reducible apply modCore_sound | with_reducible apply advanceNext_sound | with_reducible refine foldl_sound (fun _ _ _ => ?_) _ _ ?_ | with_reducible refine foldl_fst_sound (fun _ _ _ => ?_) _ _ ?_ | split | dsimp only | (simp only [sound_mk]; refine wf_of_sound ?_)

theorem pmWord_sound (i : Instr) (dst : Nat) (op : State → Group → List Nat → RtOp) (s : State) (h : Sound s) : Sound (pmWord i dst op s) :=
  groupWord_sound i _ _ (fun _ _ _ _ => pmEff_sound _ _ _ _ _ _ _) s h

theorem pmDirect_sound (i : Instr) (dyn : State → Group → List (Nat × Nat)) (ws : State → Group → List Word) (s : State) (h : Sound s) :
    Sound (pmDirect i dyn ws s) := by
  unfold pmDirect
  refine groupWord_sound _ _ _ (fun uid x ts s k => ?_) s h
  dsimp only
  with_reducible refine advanceNext_sound _ _ _ _ ?_
  with_reducible refine pushPend_sound _ _ _ ?_
  with_reducible refine beginWord_sound _ _ _ _ _ _ _ _ ?_
  exact wf_of_sound k

theorem failRt_sound (s : State) (u : DUnit) (x : Group) (o : RtEntry) (bytes : List Byte) (q : EqEntry) (c : Nat × Nat × Option (List Nat)) (h : Sound s) : Sound (failRt s u x o bytes q c) := by
  unfold failRt
  repeat' first | with_reducible assumption | with_reducible apply syncPerm_sound | with_reducible apply modGroup_sound | with_reducible apply raiseAsync_sound | with_reducible apply finEq_sound | with_reducible refine foldl_sound (fun _ _ _ => ?_) _ _ ?_ | with_reducible refine foldl_fst_sound (fun _ _ _ => ?_) _ _ ?_ | split | dsimp only | (simp only [sound_mk]; refine wf_of_sound ?_)

theorem rtWrite_sound (s : State) (x : Group) (o : RtEntry) (h : Sound s) : Sound (rtWrite s x o) := by
  unfold rtWrite
  repeat' first | with_reducible assumption | with_reducible apply syncPerm_sound | with_reducible apply modGroup_sound | with_reducible apply finEq_sound | with_reducible apply modEq_sound | with_reducible refine foldl_sound (fun _ _ _ => ?_) _ _ ?_ | with_reducible refine foldl_fst_sound (fun _ _ _ => ?_) _ _ ?_ | split | dsimp only | (simp only [sound_mk]; refine wf_of_sound ?_)

theorem modChan_sound (s : State) (core : Nat) (ch : Nat) (f : Channel → Channel) (h : Sound s) : Sound (modChan s core ch f) := by
  unfold modChan
  repeat' first | with_reducible assumption | with_reducible apply modCore_sound | with_reducible refine foldl_sound (fun _ _ _ => ?_) _ _ ?_ | with_reducible refine foldl_fst_sound (fun _ _ _ => ?_) _ _ ?_ | split | dsimp only | (simp only [sound_mk]; refine wf_of_sound ?_)

theorem chainWord_sound (i : Instr) (ch : Nat) (s : State) (h : Sound s) :
    Sound (chainWord i ch s) := by
  unfold chainWord
  refine groupWord_sound _ _ _ (fun uid x ts s k => ?_) s h
  dsimp only
  with_reducible refine advanceNext_sound _ _ _ _ ?_
  with_reducible refine modChan_sound _ _ _ _ ?_
  with_reducible refine pushEq_sound _ _ _ _ _ _ _ _ ?_
  with_reducible refine beginWord_sound _ _ _ _ _ _ _ _ ?_
  exact wf_of_sound k

theorem failChain_sound (s : State) (core : Nat) (ch : Nat) (r : ChainRun) (cd : Nat × Nat) (addr : Nat) (h : Sound s) : Sound (failChain s core ch r cd addr) := by
  unfold failChain
  repeat' first | with_reducible assumption | with_reducible apply failOp_sound | with_reducible apply modChan_sound | with_reducible refine foldl_sound (fun _ _ _ => ?_) _ _ ?_ | with_reducible refine foldl_fst_sound (fun _ _ _ => ?_) _ _ ?_ | split | dsimp only | (simp only [sound_mk]; refine wf_of_sound ?_)

theorem setRun_sound (s : State) (core : Nat) (ch : Nat) (r : ChainRun) (h : Sound s) : Sound (setRun s core ch r) := by
  unfold setRun
  repeat' first | with_reducible assumption | with_reducible apply modChan_sound | with_reducible refine foldl_sound (fun _ _ _ => ?_) _ _ ?_ | with_reducible refine foldl_fst_sound (fun _ _ _ => ?_) _ _ ?_ | split | dsimp only | (simp only [sound_mk]; refine wf_of_sound ?_)

theorem dropChain_sound (s : State) (core : Nat) (ch : Nat) (r : ChainRun) (h : Sound s) : Sound (dropChain s core ch r) := by
  unfold dropChain
  repeat' first | with_reducible assumption | with_reducible apply finEq_sound | with_reducible apply modChan_sound | with_reducible refine foldl_sound (fun _ _ _ => ?_) _ _ ?_ | with_reducible refine foldl_fst_sound (fun _ _ _ => ?_) _ _ ?_ | split | dsimp only | (simp only [sound_mk]; refine wf_of_sound ?_)

theorem entryStep_sound (core ch : Nat) (want : List Byte → Bool) {act : State → DUnit → Group → EqEntry → ChainRun → List Byte → State}
    (ha : ∀ s u x q r b, Sound s → Sound (act s u x q r b)) {s : State} (h : Sound s) : Sound (entryStep core ch want act s) := by
  unfold entryStep
  split
  · exact h
  · split
    · split
      · exact h
      · split
        · exact h
        · split
          · exact failChain_sound _ _ _ _ _ _ h
          · dsimp only
            generalize (@ite (List Byte) (_ = true) (instDecidableEqBool _ true) (homeRead _ _ _) _) = b
            generalize hs : setRun _ _ _ _ = s0
            have h0 : Sound s0 := by
              rw [← hs]
              refine setRun_sound _ _ _ _ ?_
              split
              · exact watchCmd_sound _ _ _ _ _ _ h h
              · exact h
            generalize hf : spillFetch _ _ _ _ s0 = f
            have k : Sound f.1 := by rw [← hf]; exact spillFetch_sound _ _ _ _ _ h0
            split
            · exact h
            · split
              · exact k
              · split
                · next e =>
                  obtain ⟨n, -, e⟩ := Option.bind_eq_some_iff.1 e
                  exact permFails_sound e (dropChain_sound _ _ _ _ k)
                · split
                  · exact failChain_sound _ _ _ _ _ _ k
                  · split
                    · exact h
                    · exact ha _ _ _ _ _ _ k
    · exact h

theorem writeRuns_sound (s : State) (c : Cmd) (m : Move) (runs : List (Nat × List Byte)) (h : Sound s) : Sound (writeRuns s c m runs) := by
  unfold writeRuns
  split
  · next e => exact engWrite_sound e h
  · exact h

theorem fetchSegs_sound (s : State) (c : Cmd) (segs : List Seg) (h : Sound s) : Sound (fetchSegs s c segs).1 := by
  unfold fetchSegs
  repeat' first | with_reducible assumption | with_reducible apply engFetch_sound | with_reducible refine foldl_sound (fun _ _ _ => ?_) _ _ ?_ | with_reducible refine foldl_fst_sound (fun _ _ _ => ?_) _ _ ?_ | split | dsimp only | (simp only [sound_mk]; refine wf_of_sound ?_)

theorem moveStep_sound (core : Nat) (ch : Nat) (s : State) (u : DUnit) (x : Group) (q : EqEntry) (r : ChainRun) (b : List Byte) (h : Sound s) : Sound (moveStep core ch s u x q r b) := by
  unfold moveStep
  repeat' first | with_reducible assumption | with_reducible apply engWriteFetch_sound | with_reducible apply fetchSegs_sound | with_reducible apply failChain_sound | with_reducible apply consumePoison_sound | with_reducible apply dropChain_sound | with_reducible apply readHits_sound | with_reducible apply countReq_sound | with_reducible apply writeRuns_sound | with_reducible apply modCore_sound | with_reducible apply setRun_sound | with_reducible refine foldl_sound (fun _ _ _ => ?_) _ _ ?_ | with_reducible refine foldl_fst_sound (fun _ _ _ => ?_) _ _ ?_ | split | dsimp only | (simp only [sound_mk]; refine wf_of_sound ?_)

theorem skipWatch_sound (s : State) (core : Nat) (c : Cmd) (b : List Byte) (h : Sound s) : Sound (skipWatch s core c b) := by
  unfold skipWatch
  repeat' first | with_reducible assumption | with_reducible apply watchCmd_sound | with_reducible refine foldl_sound (fun _ _ _ => ?_) _ _ ?_ | with_reducible refine foldl_fst_sound (fun _ _ _ => ?_) _ _ ?_ | split | dsimp only | (simp only [sound_mk]; refine wf_of_sound ?_)

theorem waitWatch_sound (s : State) (core : Nat) (ch : Nat) (r : ChainRun) (h : Sound s) : Sound (waitWatch s core ch r) := by
  unfold waitWatch
  repeat' first | with_reducible assumption | with_reducible apply skipWatch_sound | with_reducible refine foldl_sound (fun _ _ _ => ?_) _ _ ?_ | with_reducible refine foldl_fst_sound (fun _ _ _ => ?_) _ _ ?_ | split | dsimp only | (simp only [sound_mk]; refine wf_of_sound ?_)

theorem floatWord_sound (i : Instr) (lat : Nat) (f : Nat → Bool → Nat → Nat → Nat → Nat) (s : State) (h : Sound s) : Sound (floatWord i lat f s) := by
  unfold floatWord
  repeat' first | with_reducible assumption | with_reducible apply laneDAB_sound | with_reducible refine foldl_sound (fun _ _ _ => ?_) _ _ ?_ | with_reducible refine foldl_fst_sound (fun _ _ _ => ?_) _ _ ?_ | split | dsimp only | (simp only [sound_mk]; refine wf_of_sound ?_)

theorem packedWord_sound (i : Instr) (f : Nat → Bool → Nat → Nat → Nat → Nat) (s : State) (h : Sound s) : Sound (packedWord i f s) := by
  unfold packedWord
  repeat' first | with_reducible assumption | with_reducible apply laneDAB_sound | with_reducible refine foldl_sound (fun _ _ _ => ?_) _ _ ?_ | with_reducible refine foldl_fst_sound (fun _ _ _ => ?_) _ _ ?_ | split | dsimp only | (simp only [sound_mk]; refine wf_of_sound ?_)

theorem logReject_sound (s : State) (pasid : Nat) (count : Nat) (entry : Option Nat) (h : Sound s) : Sound (logReject s pasid count entry) := by
  unfold logReject
  repeat' first | with_reducible assumption | with_reducible apply modHub_sound | with_reducible refine foldl_sound (fun _ _ _ => ?_) _ _ ?_ | with_reducible refine foldl_fst_sound (fun _ _ _ => ?_) _ _ ?_ | split | dsimp only | (simp only [sound_mk]; refine wf_of_sound ?_)

theorem modEntryAt_sound (s : State) (dom : Nat) (l : Level) (n : Nat) (f : LevelEntry → LevelEntry) (h : Sound s) : Sound (modEntryAt s dom l n f) := by
  unfold modEntryAt
  repeat' first | with_reducible assumption | with_reducible apply modHub_sound | with_reducible refine foldl_sound (fun _ _ _ => ?_) _ _ ?_ | with_reducible refine foldl_fst_sound (fun _ _ _ => ?_) _ _ ?_ | split | dsimp only | (simp only [sound_mk]; refine wf_of_sound ?_)

theorem writeDone_sound (s : State) (pasid : Nat) (done : Nat) (state : Nat) (ident : Nat) (kind : Nat) (h : Sound s) : Sound (writeDone s pasid done state ident kind) := by
  unfold writeDone
  repeat' first | with_reducible assumption | with_reducible apply logReject_sound | with_reducible apply homeWrite_sound | with_reducible apply wakeMwait_sound | with_reducible refine foldl_sound (fun _ _ _ => ?_) _ _ ?_ | with_reducible refine foldl_fst_sound (fun _ _ _ => ?_) _ _ ?_ | split | dsimp only | (simp only [sound_mk]; refine wf_of_sound ?_)

theorem settleEntry_sound (s : State) (e : LevelEntry) (h : Sound s) : Sound (settleEntry s e) := by
  unfold settleEntry
  repeat' first | with_reducible assumption | with_reducible apply writeDone_sound | with_reducible apply modEntryAt_sound | with_reducible refine foldl_sound (fun _ _ _ => ?_) _ _ ?_ | with_reducible refine foldl_fst_sound (fun _ _ _ => ?_) _ _ ?_ | split | dsimp only | (simp only [sound_mk]; refine wf_of_sound ?_)

theorem settle_sound (fuel : Nat) (s : State) (h : Sound s) : Sound (settle fuel s) := by
  induction fuel generalizing s with
  | zero => exact h
  | succ n ih =>
    unfold settle
    split
    · exact h
    · exact ih _ (settleEntry_sound _ _ h)

theorem settleAll_sound (s : State) (h : Sound s) : Sound (settleAll s) := settle_sound _ _ h

theorem rejectRec_sound (s : State) (pasid : Nat) (b : List Byte) (reason : Nat) (h : Sound s) : Sound (rejectRec s pasid b reason) := by
  unfold rejectRec
  repeat' first | with_reducible assumption | with_reducible apply writeDone_sound | with_reducible apply logReject_sound | with_reducible refine foldl_sound (fun _ _ _ => ?_) _ _ ?_ | with_reducible refine foldl_fst_sound (fun _ _ _ => ?_) _ _ ?_ | split | dsimp only | (simp only [sound_mk]; refine wf_of_sound ?_)

theorem processHead_sound (mine : List Byte → Bool) {act : Nat → List Byte → State → State} (ha : ∀ p b s, Sound s → Sound (act p b s)) (s : State) (h : Sound s) :
    Sound (processHead mine act s) := by
  unfold processHead
  repeat' first | with_reducible assumption | with_reducible apply settleAll_sound | with_reducible apply rejectRec_sound | with_reducible refine ha _ _ _ ?_ | with_reducible apply modHub_sound | split | dsimp only

theorem makeEntry_sound (s : State) (dom : Nat) (l : Level) (n : Nat) (count : Nat) (closed : Bool) (parent : Option (Level × Nat)) (done : Nat) (pasid : Nat) (kind : Nat) (h : Sound s) : Sound (makeEntry s dom l n count closed parent done pasid kind) := by
  unfold makeEntry
  repeat' first | with_reducible assumption | with_reducible apply modEntryAt_sound | with_reducible apply modHub_sound | with_reducible refine foldl_sound (fun _ _ _ => ?_) _ _ ?_ | with_reducible refine foldl_fst_sound (fun _ _ _ => ?_) _ _ ?_ | split | dsimp only | (simp only [sound_mk]; refine wf_of_sound ?_)

theorem acceptLaunch_sound (pasid : Nat) (b : List Byte) (s : State) (h : Sound s) : Sound (acceptLaunch pasid b s) := by
  unfold acceptLaunch
  repeat' first | with_reducible assumption | with_reducible apply makeEntry_sound | with_reducible apply modHub_sound | with_reducible refine foldl_sound (fun _ _ _ => ?_) _ _ ?_ | with_reducible refine foldl_fst_sound (fun _ _ _ => ?_) _ _ ?_ | split | dsimp only | (simp only [sound_mk]; refine wf_of_sound ?_)

theorem endUnit_sound (how : Nat) (s : State) (uid : Nat) (h : Sound s) : Sound (endUnit how s uid) := by
  unfold endUnit
  repeat' first | with_reducible assumption | with_reducible apply modUnit_sound | with_reducible refine foldl_sound (fun _ _ _ => ?_) _ _ ?_ | with_reducible refine foldl_fst_sound (fun _ _ _ => ?_) _ _ ?_ | split | dsimp only | (simp only [sound_mk]; refine wf_of_sound ?_)

theorem stopLaunch_sound (how : Nat) (s : State) (dom : Nat) (lid : Nat) (h : Sound s) : Sound (stopLaunch how s dom lid) := by
  unfold stopLaunch
  repeat' first | with_reducible assumption | with_reducible apply modHub_sound | with_reducible apply modEntryAt_sound | with_reducible refine foldl_sound (fun _ _ _ => ?_) _ _ ?_ | with_reducible refine foldl_fst_sound (fun _ _ _ => ?_) _ _ ?_ | split | dsimp only | (simp only [sound_mk]; refine wf_of_sound ?_)

theorem cancelLaunch_sound (how : Nat) (s : State) (dom : Nat) (lid : Nat) (h : Sound s) : Sound (cancelLaunch how s dom lid) := by
  unfold cancelLaunch
  repeat' first | with_reducible assumption | with_reducible apply endUnit_sound | with_reducible apply stopLaunch_sound | with_reducible refine foldl_sound (fun _ _ _ => ?_) _ _ ?_ | with_reducible refine foldl_fst_sound (fun _ _ _ => ?_) _ _ ?_ | split | dsimp only | (simp only [sound_mk]; refine wf_of_sound ?_)

theorem cancelLevel_sound (s : State) (dom : Nat) (top : Level × Nat) (h : Sound s) : Sound (cancelLevel s dom top) := by
  unfold cancelLevel
  repeat' first | with_reducible assumption | with_reducible apply cancelLaunch_sound | with_reducible apply modEntryAt_sound | with_reducible refine foldl_sound (fun _ _ _ => ?_) _ _ ?_ | with_reducible refine foldl_fst_sound (fun _ _ _ => ?_) _ _ ?_ | split | dsimp only | (simp only [sound_mk]; refine wf_of_sound ?_)

theorem placeTwin_sound {s t : State} {l : Launch} {v : DUnit} {die : Nat} {k : Kernel} (e : placeTwin s l v die k = some t) (h : Sound s) : Sound t := by
  unfold placeTwin at e
  dsimp only at e
  split at e
  · cases e
  · next w =>
    cases e
    exact newInterval_sound _ _ (newInterval_sound _ _ (unitWrites_sound _ _ (unitWrites_sound _ _ (modUnit_sound _ _ _ (modUnit_sound _ _ _
      (placeUnit_sound w h))))))

theorem placeNext_sound {s t : State} {l : Launch} {k : Kernel} {die p : Nat} (e : placeNext s l k die p = some t) (h : Sound s) : Sound t := by
  unfold placeNext at e
  dsimp only at e
  split at e
  · cases e
  · next w =>
    split at e
    · cases e; exact unitWrites_sound _ _ (placeUnit_sound w h)
    · split at e
      · cases e
      · exact placeTwin_sound e (placeUnit_sound w h)

theorem modLaunch_sound (s : State) (order : Nat) (f : Launch → Launch) (h : Sound s) : Sound (modLaunch s order f) := by
  unfold modLaunch
  repeat' first | with_reducible assumption | with_reducible apply modHub_sound | with_reducible refine foldl_sound (fun _ _ _ => ?_) _ _ ?_ | with_reducible refine foldl_fst_sound (fun _ _ _ => ?_) _ _ ?_ | split | dsimp only | (simp only [sound_mk]; refine wf_of_sound ?_)

theorem rejectLaunch_sound (s : State) (l : Launch) (reason : Nat) (h : Sound s) : Sound (rejectLaunch s l reason) := by
  unfold rejectLaunch
  repeat' first | with_reducible assumption | with_reducible apply stopLaunch_sound | with_reducible apply logReject_sound | with_reducible refine foldl_sound (fun _ _ _ => ?_) _ _ ?_ | with_reducible refine foldl_fst_sound (fun _ _ _ => ?_) _ _ ?_ | split | dsimp only | (simp only [sound_mk]; refine wf_of_sound ?_)

theorem passShare_sound (s : State) (l : Launch) (die : Nat) (h : Sound s) : Sound (passShare s l die) := by
  unfold passShare
  repeat' first | with_reducible assumption | with_reducible apply modHub_sound | with_reducible apply modLaunch_sound | with_reducible refine foldl_sound (fun _ _ _ => ?_) _ _ ?_ | with_reducible refine foldl_fst_sound (fun _ _ _ => ?_) _ _ ?_ | split | dsimp only | (simp only [sound_mk]; refine wf_of_sound ?_)

theorem retryLaunches_sound (s : State) (p : Nat → Bool) (h : Sound s) : Sound (retryLaunches s p) := by
  unfold retryLaunches
  repeat' first | with_reducible assumption | with_reducible apply modHub_sound | with_reducible refine foldl_sound (fun _ _ _ => ?_) _ _ ?_ | with_reducible refine foldl_fst_sound (fun _ _ _ => ?_) _ _ ?_ | split | dsimp only | (simp only [sound_mk]; refine wf_of_sound ?_)

theorem removeUnit_sound (s : State) (uid : Nat) (h : Sound s) : Sound (removeUnit s uid) := by
  unfold removeUnit
  repeat' first | with_reducible assumption | with_reducible refine foldl_sound (fun _ _ _ => ?_) _ _ ?_ | with_reducible refine foldl_fst_sound (fun _ _ _ => ?_) _ _ ?_ | split | dsimp only | (simp only [sound_mk]; refine wf_of_sound ?_)

theorem clearStop_sound (s : State) (u : DUnit) (h : Sound s) : Sound (clearStop s u) := by
  unfold clearStop
  repeat' first | with_reducible assumption | with_reducible apply dbgStatClear_sound | with_reducible refine foldl_sound (fun _ _ _ => ?_) _ _ ?_ | with_reducible refine foldl_fst_sound (fun _ _ _ => ?_) _ _ ?_ | split | dsimp only | (simp only [sound_mk]; refine wf_of_sound ?_)

theorem windowWord_sound (i : Instr) (get : Bool) (s : State) (h : Sound s) :
    Sound (windowWord i get s) := by
  unfold windowWord
  refine groupWord_sound _ _ _ (fun uid x ts s k => ?_) s h
  dsimp only
  with_reducible refine advanceNext_sound _ _ _ _ ?_
  with_reducible refine pushEq_sound _ _ _ _ _ _ _ _ ?_
  with_reducible refine beginWord_sound _ _ _ _ _ _ _ _ ?_
  exact wf_of_sound k

theorem failWindow_sound (s : State) (uid : Nat) (g : Nat) (id : Nat) (e : (Nat × Nat) × Nat) (h : Sound s) : Sound (failWindow s uid g id e) := by
  unfold failWindow
  repeat' first | with_reducible assumption | with_reducible apply failOp_sound | with_reducible apply startEq_sound | with_reducible refine foldl_sound (fun _ _ _ => ?_) _ _ ?_ | with_reducible refine foldl_fst_sound (fun _ _ _ => ?_) _ _ ?_ | split | dsimp only | (simp only [sound_mk]; refine wf_of_sound ?_)

theorem putBytesAt_sound (s : State) (c : Cmd) (w : Window) (va : Nat) (bs : List Byte) (h : Sound s) : Sound (putBytesAt s c w va bs) := by
  unfold putBytesAt
  repeat' first | with_reducible assumption | with_reducible apply engPut_sound | with_reducible refine foldl_sound (fun _ _ _ => ?_) _ _ ?_ | with_reducible refine foldl_fst_sound (fun _ _ _ => ?_) _ _ ?_ | split | dsimp only | (simp only [sound_mk]; refine wf_of_sound ?_)

theorem targetFetch_sound (s : State) (w : Window) (va : Nat) (n : Nat) (h : Sound s) : Sound (targetFetch s w va n).1 := by
  unfold targetFetch
  repeat' first | with_reducible assumption | with_reducible apply l2Read_sound | with_reducible refine foldl_sound (fun _ _ _ => ?_) _ _ ?_ | with_reducible refine foldl_fst_sound (fun _ _ _ => ?_) _ _ ?_ | split | dsimp only | (simp only [sound_mk]; refine wf_of_sound ?_)

theorem getBytesAt_sound {s : State} {c : Cmd} {w : Window} {va n : Nat} (h : Sound s) : Sound (getBytesAt s c w va n).2 := by
  unfold getBytesAt
  split
  · exact h
  · split
    · exact h
    · split
      · exact h
      · exact foldl_sound (fun s p k => watchCmd_sound s s _ _ _ _ k k) _ _ h

theorem domtabFields_sound (s : State) (core : Nat) (slot : Nat) (v : Nat) (h : Sound s) : Sound (domtabFields s core slot v) := by
  unfold domtabFields
  repeat' first | with_reducible assumption | with_reducible apply wrReg_sound | with_reducible refine foldl_sound (fun _ _ _ => ?_) _ _ ?_ | with_reducible refine foldl_fst_sound (fun _ _ _ => ?_) _ _ ?_ | split | dsimp only | (simp only [sound_mk]; refine wf_of_sound ?_)

theorem writeReg_sound (r : Reg) (v : Nat) (s : State) (h : Sound s) : Sound (writeReg r v s) := by
  unfold writeReg
  repeat' first | with_reducible assumption | with_reducible apply modHub_sound | with_reducible apply wrReg_sound | with_reducible apply dbgAnswer_sound | with_reducible apply domtabFields_sound | with_reducible refine foldl_sound (fun _ _ _ => ?_) _ _ ?_ | with_reducible refine foldl_fst_sound (fun _ _ _ => ?_) _ _ ?_ | split | dsimp only | (simp only [sound_mk]; refine wf_of_sound ?_)

theorem answerHost_sound (s : State) (v : Nat) (h : Sound s) : Sound (answerHost s v) := by
  unfold answerHost
  repeat' first | with_reducible assumption | with_reducible apply modHub_sound | with_reducible refine foldl_sound (fun _ _ _ => ?_) _ _ ?_ | with_reducible refine foldl_fst_sound (fun _ _ _ => ?_) _ _ ?_ | split | dsimp only | (simp only [sound_mk]; refine wf_of_sound ?_)

theorem hostRead_sound (off : Nat) (s : State) (h : Sound s) : Sound (hostRead off s) := by
  unfold hostRead
  repeat' first | with_reducible assumption | with_reducible apply answerHost_sound | with_reducible refine foldl_sound (fun _ _ _ => ?_) _ _ ?_ | with_reducible refine foldl_fst_sound (fun _ _ _ => ?_) _ _ ?_ | split | dsimp only | (simp only [sound_mk]; refine wf_of_sound ?_)

theorem hubPut_sound (s : State) (off b : Nat) (h : Sound s) : Sound (hubPut s off b) := by
  unfold hubPut
  repeat' first | with_reducible assumption | with_reducible apply writeReg_sound | with_reducible refine foldl_sound (fun _ _ _ => ?_) _ _ ?_ | with_reducible refine foldl_fst_sound (fun _ _ _ => ?_) _ _ ?_ | split | dsimp only | (simp only [sound_mk]; refine wf_of_sound ?_)

theorem hostWrite_sound (off : Nat) (v : Nat) (s : State) (h : Sound s) : Sound (hostWrite off v s) := by
  unfold hostWrite
  repeat' first | with_reducible assumption | with_reducible apply hubPut_sound | with_reducible apply logReject_sound | with_reducible apply writeReg_sound | with_reducible refine foldl_sound (fun _ _ _ => ?_) _ _ ?_ | with_reducible refine foldl_fst_sound (fun _ _ _ => ?_) _ _ ?_ | split | dsimp only | (simp only [sound_mk]; refine wf_of_sound ?_)

theorem hostFetch_sound (pa : Nat) (s : State) (h : Sound s) : Sound (hostFetch pa s) := by
  unfold hostFetch
  repeat' first | with_reducible assumption | with_reducible apply l2Read_sound | with_reducible apply answerHost_sound | with_reducible refine foldl_sound (fun _ _ _ => ?_) _ _ ?_ | with_reducible refine foldl_fst_sound (fun _ _ _ => ?_) _ _ ?_ | split | dsimp only | (simp only [sound_mk]; refine wf_of_sound ?_)

theorem spillMoved_sound (s : State) (uid : Nat) (g : Nat) (x : Group) (level : Nat) (m : NameSt) (h : Sound s) : Sound (spillMoved s uid g x level m) := by
  unfold spillMoved
  repeat' first | with_reducible assumption | with_reducible apply modGroup_sound | with_reducible apply giveSlot_sound | with_reducible apply pauseGroup_sound | with_reducible refine foldl_sound (fun _ _ _ => ?_) _ _ ?_ | with_reducible refine foldl_fst_sound (fun _ _ _ => ?_) _ _ ?_ | split | dsimp only | (simp only [sound_mk]; refine wf_of_sound ?_)

theorem rebindGroup_sound {core part slot : Nat} {c : NClass} {uid g fuel : Nat} {s : State} (h : Sound s) :
    (∀ t, rebindGroup core part slot c uid g fuel s = .ok t → Sound t) ∧ (∀ t, rebindGroup core part slot c uid g fuel s = .error t → Sound t) := by
  induction fuel generalizing s with
  | zero => exact ⟨fun t e => by cases e; exact h, fun t e => by cases e⟩
  | succ n ih =>
    unfold rebindGroup
    repeat' first | split | exact ih (spillMoved_sound _ _ _ _ _ _ h) | exact ⟨fun t e => (Except.ok.inj e) ▸ h, fun t e => (by cases e)⟩ | exact ⟨fun t e => (by cases e), fun t e => (Except.error.inj e) ▸ h⟩

theorem rebindClass_sound (s : State) (core part slot : Nat) (c : NClass) (h : Sound s) : Sound (rebindClass s core part slot c) := by
  have key : ∀ {α : Type} (f : Except State State → α → Except State State),
      (∀ a b, ((∀ t, a = .ok t → Sound t) ∧ ∀ t, a = .error t → Sound t) → (∀ t, f a b = .ok t → Sound t) ∧ ∀ t, f a b = .error t → Sound t) →
      ∀ (l : List α) a, ((∀ t, a = .ok t → Sound t) ∧ ∀ t, a = .error t → Sound t) →
        (∀ t, l.foldl f a = .ok t → Sound t) ∧ ∀ t, l.foldl f a = .error t → Sound t := fun f hf l => by
    induction l with
    | nil => exact fun a k => k
    | cons b l ih => exact fun a k => ih _ (hf a b k)
  unfold rebindClass
  split
  · next e => exact (key _ (fun a b k => by
      split
      · exact ⟨fun t e => (by cases e), fun t e => k.2 t e⟩
      · exact rebindGroup_sound (k.1 _ rfl)) _ (.ok s) ⟨fun t e => (Except.ok.inj e) ▸ h, fun t e => (by cases e)⟩).1 _ e
  · next e => exact (key _ (fun a b k => by
      split
      · exact ⟨fun t e => (by cases e), fun t e => k.2 t e⟩
      · exact rebindGroup_sound (k.1 _ rfl)) _ (.ok s) ⟨fun t e => (Except.ok.inj e) ▸ h, fun t e => (by cases e)⟩).2 _ e

theorem readmit_sound (s : State) (uid : Nat) (g : Nat) (level : Nat) (m : NameSt) (h : Sound s) : Sound (readmit s uid g level m) := by
  unfold readmit
  repeat' first | with_reducible assumption | with_reducible apply modGroup_sound | with_reducible apply modPart_sound | with_reducible refine foldl_sound (fun _ _ _ => ?_) _ _ ?_ | with_reducible refine foldl_fst_sound (fun _ _ _ => ?_) _ _ ?_ | split | dsimp only | (simp only [sound_mk]; refine wf_of_sound ?_)

theorem readmitClass_sound (s : State) (core : Nat) (part : Nat) (slot : Nat) (c : NClass) (h : Sound s) : Sound (readmitClass s core part slot c) := by
  unfold readmitClass
  repeat' first | with_reducible assumption | with_reducible apply readmit_sound | with_reducible refine foldl_sound (fun _ _ _ => ?_) _ _ ?_ | with_reducible refine foldl_fst_sound (fun _ _ _ => ?_) _ _ ?_ | split | dsimp only | (simp only [sound_mk]; refine wf_of_sound ?_)

theorem applyDpart_sound (s : State) (core slot v : Nat) (h : Sound s) : Sound (applyDpart s core slot v) := by
  have h2 : ∀ old new : Nat, Sound ((List.range 12).foldl (fun s p => [NClass.lane, .uniform, .perm, .acc].foldl (fun s c =>
      if quotaOf new c < quotaOf old c then rebindClass s core p slot c
      else if quotaOf old c < quotaOf new c then readmitClass s core p slot c else s) s) (wrReg s (.dpart core slot) new)) := fun old new => by
    refine foldl_sound (fun s p k => foldl_sound (fun s c k => ?_) _ _ k) _ _ (wrReg_sound _ _ _ h)
    split
    · exact rebindClass_sound _ _ _ _ _ k
    · split
      · exact readmitClass_sound _ _ _ _ _ k
      · exact k
  unfold applyDpart
  have := h2 (rdReg s (.dpart core slot)) (clampDpart v)
  dsimp only
  generalize (List.range 12).foldl _ _ = s2 at this ⊢
  split
  · exact this
  · exact retryLaunches_sound _ _ this

theorem drainDpart_sound (core : Nat) (fuel : Nat) (s : State) (h : Sound s) : Sound (drainDpart core fuel s) := by
  induction fuel generalizing s with
  | zero => exact h
  | succ fuel ih =>
    unfold drainDpart
    split
    · exact h
    · exact ih _ (applyDpart_sound _ _ _ _ (modCore_sound _ _ _ h))

theorem nextDparts_sound (s : State) (core : Nat) (h : Sound s) : Sound (nextDparts s core) := drainDpart_sound _ _ _ h

theorem setSlotState_sound (s : State) (core : Nat) (slot : Nat) (st : Nat) (h : Sound s) : Sound (setSlotState s core slot st) := by
  unfold setSlotState
  repeat' first | with_reducible assumption | with_reducible apply wrReg_sound | with_reducible refine foldl_sound (fun _ _ _ => ?_) _ _ ?_ | with_reducible refine foldl_fst_sound (fun _ _ _ => ?_) _ _ ?_ | split | dsimp only | (simp only [sound_mk]; refine wf_of_sound ?_)

theorem modSlotGroups_sound (s : State) (core : Nat) (slot : Nat) (f : Group → Group) (h : Sound s) : Sound (modSlotGroups s core slot f) := by
  unfold modSlotGroups
  repeat' first | with_reducible assumption | with_reducible refine foldl_sound (fun _ _ _ => ?_) _ _ ?_ | with_reducible refine foldl_fst_sound (fun _ _ _ => ?_) _ _ ?_ | split | dsimp only | (simp only [sound_mk]; refine wf_of_sound ?_)

theorem dvfsClock_sound (s : State) (die : Nat) (cl : Nat) (q : Nat) (h : Sound s) : Sound (dvfsClock s die cl q) := by
  unfold dvfsClock
  repeat' first | with_reducible assumption | with_reducible apply wrReg_sound | with_reducible refine foldl_sound (fun _ _ _ => ?_) _ _ ?_ | with_reducible refine foldl_fst_sound (fun _ _ _ => ?_) _ _ ?_ | split | dsimp only | (simp only [sound_mk]; refine wf_of_sound ?_)

theorem dvfsVolt_sound (s : State) (die : Nat) (cl : Nat) (q : Nat) (h : Sound s) : Sound (dvfsVolt s die cl q) := by
  unfold dvfsVolt
  repeat' first | with_reducible assumption | with_reducible apply wrReg_sound | with_reducible refine foldl_sound (fun _ _ _ => ?_) _ _ ?_ | with_reducible refine foldl_fst_sound (fun _ _ _ => ?_) _ _ ?_ | split | dsimp only | (simp only [sound_mk]; refine wf_of_sound ?_)

theorem dvfsEnd_sound (s : State) (die : Nat) (cl : Nat) (h : Sound s) : Sound (dvfsEnd s die cl) := by
  unfold dvfsEnd
  repeat' first | with_reducible assumption | with_reducible apply dvfsClock_sound | with_reducible apply dvfsVolt_sound | with_reducible apply modDie_sound | with_reducible apply wrReg_sound | with_reducible refine foldl_sound (fun _ _ _ => ?_) _ _ ?_ | with_reducible refine foldl_fst_sound (fun _ _ _ => ?_) _ _ ?_ | split | dsimp only | (simp only [sound_mk]; refine wf_of_sound ?_)

theorem lockLinks_sound (s : State) (d : Nat) (h : Sound s) : Sound (lockLinks s d) := by
  unfold lockLinks
  repeat' first | with_reducible assumption | with_reducible apply wrReg_sound | with_reducible refine foldl_sound (fun _ _ _ => ?_) _ _ ?_ | with_reducible refine foldl_fst_sound (fun _ _ _ => ?_) _ _ ?_ | split | dsimp only | (simp only [sound_mk]; refine wf_of_sound ?_)

theorem enterSafe_sound (s : State) (d : Nat) (code : Nat) (h : Sound s) : Sound (enterSafe s d code) := by
  unfold enterSafe
  repeat' first | with_reducible assumption | with_reducible apply lockLinks_sound | with_reducible apply modDie_sound | with_reducible refine foldl_sound (fun _ _ _ => ?_) _ _ ?_ | with_reducible refine foldl_fst_sound (fun _ _ _ => ?_) _ _ ?_ | split | dsimp only | (simp only [sound_mk]; refine wf_of_sound ?_)

theorem scrambleMem_sound (s : State) (h : Sound s) : Sound (scrambleMem s) := by
  unfold scrambleMem
  dsimp only
  have : ∀ (l : List (Nat × Nat)) (m : List Host.Cell), Memory.wf m = true →
      Memory.wf (l.foldl (fun m ia => Memory.write m ia.2 (Config.freeByte (s.free + ia.1))) m) = true := fun l => by
    induction l with
    | nil => exact fun m k => k
    | cons a l ih => exact fun m k => ih _ (Memory.wf_write _ _ k)
  exact this _ _ h

theorem startUp_sound (s : State) (img : BootImage) (codes : List Nat) (h : Sound s) : Sound (startUp s img codes) := by
  unfold startUp
  dsimp only
  refine foldl_sound (fun s d k => ?_) _ _ (scrambleMem_sound s h)
  split
  · exact enterSafe_sound _ _ _ k
  · split
    · exact enterSafe_sound _ _ _ k
    · exact k

theorem mboxAnswer_sound (s : State) (status : Nat) (detail : Nat) (payload : List Byte) (h : Sound s) : Sound (mboxAnswer s status detail payload) := by
  unfold mboxAnswer
  repeat' first | with_reducible assumption | with_reducible apply wrReg_sound | with_reducible refine foldl_sound (fun _ _ _ => ?_) _ _ ?_ | with_reducible refine foldl_fst_sound (fun _ _ _ => ?_) _ _ ?_ | split | dsimp only | (simp only [sound_mk]; refine wf_of_sound ?_)

theorem mboxDeny_sound (s : State) (detail : Nat) (h : Sound s) : Sound (mboxDeny s detail) := by
  unfold mboxDeny
  repeat' first | with_reducible assumption | with_reducible apply mboxAnswer_sound | with_reducible refine foldl_sound (fun _ _ _ => ?_) _ _ ?_ | with_reducible refine foldl_fst_sound (fun _ _ _ => ?_) _ _ ?_ | split | dsimp only | (simp only [sound_mk]; refine wf_of_sound ?_)

theorem withVersion_sound {f : State → State} (hf : ∀ s, Sound s → Sound (f s)) (s : State) (h : Sound s) : Sound (withVersion s f) := by
  unfold withVersion
  split
  · exact mboxDeny_sound _ _ h
  · exact hf _ h

theorem writeWatch_sound (s : State) (die : Nat) (n : Nat) (v : Nat) (h : Sound s) : Sound (writeWatch s die n v) := by
  unfold writeWatch
  repeat' first | with_reducible assumption | with_reducible apply wrReg_sound | with_reducible refine foldl_sound (fun _ _ _ => ?_) _ _ ?_ | with_reducible refine foldl_fst_sound (fun _ _ _ => ?_) _ _ ?_ | split | dsimp only | (simp only [sound_mk]; refine wf_of_sound ?_)

theorem refreshPart_sound (s : State) (core : Nat) (part : Nat) (h : Sound s) : Sound (refreshPart s core part) := by
  unfold refreshPart
  repeat' first | with_reducible assumption | with_reducible refine foldl_sound (fun _ _ _ => ?_) _ _ ?_ | with_reducible refine foldl_fst_sound (fun _ _ _ => ?_) _ _ ?_ | split | dsimp only | (simp only [sound_mk]; refine wf_of_sound ?_)

theorem markJoined_sound (s : State) (core : Nat) (part : Nat) (table : List Ready) (h : Sound s) : Sound (markJoined s core part table) := by
  unfold markJoined
  repeat' first | with_reducible assumption | with_reducible refine foldl_sound (fun _ _ _ => ?_) _ _ ?_ | with_reducible refine foldl_fst_sound (fun _ _ _ => ?_) _ _ ?_ | split | dsimp only | (simp only [sound_mk]; refine wf_of_sound ?_)

theorem raiseRendez_sound (s : State) (u : DUnit) (x : Group) (off : Nat) (n : NextWord) (h : Sound s) : Sound (raiseRendez s u x off n) := by
  unfold raiseRendez
  repeat' first | with_reducible assumption | with_reducible apply raiseThread_sound | with_reducible refine foldl_sound (fun _ _ _ => ?_) _ _ ?_ | with_reducible refine foldl_fst_sound (fun _ _ _ => ?_) _ _ ?_ | split | dsimp only | (simp only [sound_mk]; refine wf_of_sound ?_)

theorem rendezPart_sound (s : State) (gs : List (DUnit × Group × NMap NextWord)) (h : Sound s) : Sound (rendezPart s gs) := by
  unfold rendezPart
  repeat' first | with_reducible assumption | with_reducible apply raiseRendez_sound | with_reducible refine foldl_sound (fun _ _ _ => ?_) _ _ ?_ | with_reducible refine foldl_fst_sound (fun _ _ _ => ?_) _ _ ?_ | split | dsimp only | (simp only [sound_mk]; refine wf_of_sound ?_)

theorem occupancyEvents_sound (s : State) (core : Nat) (part : Nat) (h : Sound s) : Sound (occupancyEvents s core part) := by
  unfold occupancyEvents
  repeat' first | with_reducible assumption | with_reducible apply countEvent_sound | with_reducible refine foldl_sound (fun _ _ _ => ?_) _ _ ?_ | with_reducible refine foldl_fst_sound (fun _ _ _ => ?_) _ _ ?_ | split | dsimp only | (simp only [sound_mk]; refine wf_of_sound ?_)

theorem clockEvents_sound (s : State) (core : Nat) (part : Nat) (cands : List Cand) (wide : Option Cand) (waiting : List Ready) (h : Sound s) : Sound (clockEvents s core part cands wide waiting) := by
  unfold clockEvents
  repeat' first | with_reducible assumption | with_reducible apply countEvent_sound | with_reducible refine foldl_sound (fun _ _ _ => ?_) _ _ ?_ | with_reducible refine foldl_fst_sound (fun _ _ _ => ?_) _ _ ?_ | split | dsimp only | (simp only [sound_mk]; refine wf_of_sound ?_)

theorem arbitratePart_sound (s : State) (core : Nat) (part : Nat) (h : Sound s) : Sound (arbitratePart s core part) := by
  unfold arbitratePart
  repeat' first | with_reducible assumption | with_reducible apply refreshPart_sound | with_reducible apply releaseBarriers_sound | with_reducible apply clockEvents_sound | with_reducible apply rendezPart_sound | with_reducible apply markJoined_sound | with_reducible apply modPart_sound | with_reducible refine foldl_sound (fun _ _ _ => ?_) _ _ ?_ | with_reducible refine foldl_fst_sound (fun _ _ _ => ?_) _ _ ?_ | split | dsimp only | (simp only [sound_mk]; refine wf_of_sound ?_)

theorem tripUnit_sound (s : State) (uid : Nat) (h : Sound s) : Sound (tripUnit s uid) := by
  unfold tripUnit
  repeat' first | with_reducible assumption | with_reducible apply cancelLaunch_sound | with_reducible apply modEntryAt_sound | with_reducible apply removeUnit_sound | with_reducible apply clearStop_sound | with_reducible refine foldl_sound (fun _ _ _ => ?_) _ _ ?_ | with_reducible refine foldl_fst_sound (fun _ _ _ => ?_) _ _ ?_ | split | dsimp only | (simp only [sound_mk]; refine wf_of_sound ?_)

theorem tripDie_sound (s : State) (die : Nat) (code : Nat) (h : Sound s) : Sound (tripDie s die code) := by
  unfold tripDie
  repeat' first | with_reducible assumption | with_reducible apply tripUnit_sound | with_reducible apply enterSafe_sound | with_reducible apply wrReg_sound | with_reducible apply settleAll_sound | with_reducible refine foldl_sound (fun _ _ _ => ?_) _ _ ?_ | with_reducible refine foldl_fst_sound (fun _ _ _ => ?_) _ _ ?_ | split | dsimp only | (simp only [sound_mk]; refine wf_of_sound ?_)

theorem takeSpare_sound (s : State) (die : Nat) (ch : Nat) (lane : Nat) (h : Sound s) : Sound (takeSpare s die ch lane) := by
  unfold takeSpare
  repeat' first | with_reducible assumption | with_reducible apply wrReg_sound | with_reducible refine foldl_sound (fun _ _ _ => ?_) _ _ ?_ | with_reducible refine foldl_fst_sound (fun _ _ _ => ?_) _ _ ?_ | split | dsimp only | (simp only [sound_mk]; refine wf_of_sound ?_)

theorem startSwap_sound (s : State) (die : Nat) (ch : Nat) (h : Sound s) : Sound (startSwap s die ch) := by
  unfold startSwap
  repeat' first | with_reducible assumption | with_reducible apply modDie_sound | with_reducible refine foldl_sound (fun _ _ _ => ?_) _ _ ?_ | with_reducible refine foldl_fst_sound (fun _ _ _ => ?_) _ _ ?_ | split | dsimp only | (simp only [sound_mk]; refine wf_of_sound ?_)

theorem atLimit_sound (s : State) (die : Nat) (x : Xfer) (h : Sound s) : Sound (atLimit s die x) := by
  unfold atLimit
  repeat' first | with_reducible assumption | with_reducible apply failXfer_sound | with_reducible apply pushXfer_sound | with_reducible apply startSwap_sound | with_reducible apply takeSpare_sound | with_reducible refine foldl_sound (fun _ _ _ => ?_) _ _ ?_ | with_reducible refine foldl_fst_sound (fun _ _ _ => ?_) _ _ ?_ | split | dsimp only | (simp only [sound_mk]; refine wf_of_sound ?_)

theorem flushChannel_sound (s : State) (die : Nat) (ch : Nat) (h : Sound s) : Sound (flushChannel s die ch) := by
  unfold flushChannel
  repeat' first | with_reducible assumption | with_reducible apply dropLine_sound | with_reducible apply modDie_sound | with_reducible refine foldl_sound (fun _ _ _ => ?_) _ _ ?_ | with_reducible refine foldl_fst_sound (fun _ _ _ => ?_) _ _ ?_ | split | dsimp only | (simp only [sound_mk]; refine wf_of_sound ?_)

theorem plWord_sound (i : Instr) (b : BitVec 4) (f : List Nat → List Word → Nat → Word) (s : State) (h : Sound s) : Sound (plWord i b f s) :=
  laneWord_sound i _ _ (fun uid x ts s => writeResult_sound i _ _ uid x ts s) s h

theorem hitBreaks_sound (c : Cand) (n : NextWord) (sets : List (Nat × List Nat)) (s : State) (h : Sound s) : Sound (hitBreaks c n sets s) := by
  unfold hitBreaks
  repeat' first | with_reducible assumption | with_reducible apply hitGroup_sound | with_reducible refine foldl_sound (fun _ _ _ => ?_) _ _ ?_ | with_reducible refine foldl_fst_sound (fun _ _ _ => ?_) _ _ ?_ | split | dsimp only | (simp only [sound_mk]; refine wf_of_sound ?_)

theorem useSkips_sound (uid pc : Nat) (sets : List (Nat × List Nat)) (s : State) (h : Sound s) : Sound (useSkips uid pc sets s) := by
  unfold useSkips
  repeat' first | with_reducible assumption | with_reducible apply modGroup_sound | with_reducible refine foldl_sound (fun _ _ _ => ?_) _ _ ?_ | with_reducible refine foldl_fst_sound (fun _ _ _ => ?_) _ _ ?_ | split | dsimp only | (simp only [sound_mk]; refine wf_of_sound ?_)

theorem latch_sound (core : Nat) (part : Nat) (c : Cand) (n : NextWord) (k : Kernel) (sets : List (Nat × List Nat)) (s : State) (h : Sound s) : Sound (latch core part c n k sets s) := by
  unfold latch
  repeat' first | with_reducible assumption | with_reducible refine foldl_sound (fun _ _ _ => ?_) _ _ ?_ | with_reducible refine foldl_fst_sound (fun _ _ _ => ?_) _ _ ?_ | split | dsimp only | (simp only [sound_mk]; refine wf_of_sound ?_)

theorem countIssue_sound (core : Nat) (part : Nat) (dom : Nat) (c : Cand) (n : NextWord) (sets : List (Nat × List Nat)) (s : State) (h : Sound s) : Sound (countIssue core part dom c n sets s) := by
  unfold countIssue
  repeat' first | with_reducible assumption | with_reducible apply modPart_sound | with_reducible apply countEvent_sound | with_reducible apply modGroup_sound | with_reducible refine foldl_sound (fun _ _ _ => ?_) _ _ ?_ | with_reducible refine foldl_fst_sound (fun _ _ _ => ?_) _ _ ?_ | split | dsimp only | (simp only [sound_mk]; refine wf_of_sound ?_)

theorem countGroupWord_sound (core : Nat) (part : Nat) (dom : Nat) (c : Cand) (s : State) (h : Sound s) : Sound (countGroupWord core part dom c s) := by
  unfold countGroupWord
  repeat' first | with_reducible assumption | with_reducible apply countEvent_sound | with_reducible refine foldl_sound (fun _ _ _ => ?_) _ _ ?_ | with_reducible refine foldl_fst_sound (fun _ _ _ => ?_) _ _ ?_ | split | dsimp only | (simp only [sound_mk]; refine wf_of_sound ?_)

theorem raiseFetch_sound (uid : Nat) (n : NextWord) (cd : Nat × Nat) (sets : List (Nat × List Nat)) (s : State) (h : Sound s) : Sound (raiseFetch uid n cd sets s) := by
  unfold raiseFetch
  repeat' first | with_reducible assumption | with_reducible apply raiseSync_sound | with_reducible refine foldl_sound (fun _ _ _ => ?_) _ _ ?_ | with_reducible refine foldl_fst_sound (fun _ _ _ => ?_) _ _ ?_ | split | dsimp only | (simp only [sound_mk]; refine wf_of_sound ?_)

theorem readyTraps_sound (s : State) (core : Nat) (h : Sound s) : Sound (readyTraps s core) := by
  unfold readyTraps
  repeat' first | with_reducible assumption | with_reducible apply modGroup_sound | with_reducible refine foldl_sound (fun _ _ _ => ?_) _ _ ?_ | with_reducible refine foldl_fst_sound (fun _ _ _ => ?_) _ _ ?_ | split | dsimp only | (simp only [sound_mk]; refine wf_of_sound ?_)

theorem placeFetch_sound (s : State) (w : Nat) (h : Sound s) : Sound (placeFetch s w) :=
  Memory.wf_writeAll _ _ (Memory.wf_writeAll _ _ h)

end Sys2Proof.Machine
end

