-- ==== Sys2Proof/Laws/Words.lean ====
section
/-! SUPPORT. What the shared shapes of words do: a lane-set word whose threads meet no condition is its effect, a group-set
word likewise; a result sets out, the threads go on. -/

namespace Sys2Proof.Machine

open Sys2Proof

theorem filter_all {α : Type} {l : List α} {p : α → Bool} (h : ∀ a ∈ l, p a = true) : l.filter p = l := List.filter_eq_self.mpr h

/-- A lane-set word of one group whose present threads meet no condition is its effect. -/
theorem laneWord_clean {s : State} {i : Instr} {g : Nat} {x : Group} {ts : List Nat} {dyn : Group → Nat → List (Nat × Nat)}
    {addr : State → Group → Nat → Nat × Nat → Nat} {eff : Nat → Group → List Nat → State → State}
    (hs : s.iss.sets = [(g, ts)]) (hx : groupOf s s.iss.uid g = some x) (hne : ts ≠ [])
    (hc : ∀ t ∈ ts, threadConds s x i dyn t = none) : laneWord i dyn addr eff s = eff s.iss.uid x ts s := by
  have hb : badThreads s x i dyn ts = [] := by
    unfold badThreads
    rw [List.filterMap_eq_nil_iff]
    intro t ht
    rw [hc t ht]; rfl
  have hok : okThreads s x i dyn ts = ts := filter_all fun t ht => by rw [hc t ht]; rfl
  have hemp : ts.isEmpty = false := by cases ts <;> simp_all
  simp only [laneWord, hs, List.foldl_cons, List.foldl_nil, laneGroup, hx, hb, hok, hemp, List.isEmpty_nil, if_true]
  rfl

/-- The conditions of a thread whose names meet none. -/
theorem threadConds_clean {s : State} {x : Group} {i : Instr} {dyn : Group → Nat → List (Nat × Nat)} {t : Nat}
    (h : nameConds x t (s.iss.off / 4) s.iss.spar i = []) (hd : dyn x t = []) : threadConds s x i dyn t = none := by
  simp only [threadConds, h, hd, lowestCond]

/-- A group-set word whose group meets no condition is its effect. -/
theorem groupWord_clean {s : State} {i : Instr} {g : Nat} {ts : List Nat} {x : Group} {dyn : State → Group → List (Nat × Nat)}
    {addr : State → Group → Nat → Nat × Nat → Nat} {eff : Nat → Group → List Nat → State → State}
    (hs : s.iss.sets.head? = some (g, ts)) (hx : groupOf s s.iss.uid g = some x)
    (hn : ∀ t ∈ liveTids x, nameConds x t (s.iss.off / 4) s.iss.spar i = []) (hd : dyn s x = []) :
    groupWord i dyn addr eff s = eff s.iss.uid x (liveTids x) s := by
  have hl : (liveTids x).flatMap (fun t => nameConds x t (s.iss.off / 4) s.iss.spar i) = [] := by
    rw [List.flatMap_eq_nil_iff]; exact hn
  simp only [groupWord, groupSetOf, hs, hx, hl, hd, lowestCond]

@[simp] theorem pushPend_pend (s : State) (c : Nat) (p : Pend) : (coreOf (pushPend s c p) c).pend = (coreOf s c).pend ++ [p] := by
  simp [pushPend]

@[simp] theorem coreOf_advance (s : State) (uid g : Nat) (ts : List Nat) (off : Nat → Nat) (tr : Nat → Bool) (c : Nat) :
    coreOf (advance s uid g ts off tr) c = coreOf s c := rfl

@[simp] theorem coreOf_advanceNext (s : State) (uid g : Nat) (ts : List Nat) (c : Nat) : coreOf (advanceNext s uid g ts) c = coreOf s c := rfl

@[simp] theorem groupOf_pushPend (s : State) (c : Nat) (p : Pend) (uid g : Nat) : groupOf (pushPend s c p) uid g = groupOf s uid g := rfl

@[simp] theorem pushPend_iss (s : State) (c : Nat) (p : Pend) : (pushPend s c p).iss = s.iss := rfl
@[simp] theorem groupOf_seq (s : State) (n uid g : Nat) : groupOf { s with seq := n } uid g = groupOf s uid g := rfl

theorem placesOf_calm {x y : Group} (h : y.calm = x.calm) : placesOf y = placesOf x := by
  have k := congrArg (fun g : Group => g.threads.map (fun h => (h.tid, h.off))) h
  simpa [placesOf, Group.calm, Thread.calm, List.map_map, Function.comp_def] using k

@[simp] theorem goTo_off (c : Core) (hndl off : Nat) (tr : Bool) (h : Thread) : (goTo c hndl off tr h).off = off := by
  unfold goTo; simp only; split <;> rfl

@[simp] theorem goTo_tid (c : Core) (hndl off : Nat) (tr : Bool) (h : Thread) : (goTo c hndl off tr h).tid = h.tid := by
  unfold goTo; simp only; split <;> rfl

theorem modThreads_gidx (x : Group) (ts : List Nat) (f : Thread → Thread) : (modThreads x ts f).gidx = x.gidx := rfl

theorem advance_group {s : State} {uid g : Nat} {ts : List Nat} {off : Nat → Nat} {tr : Nat → Bool} {x : Group}
    (hx : groupOf s uid g = some x) :
    ∃ y, groupOf (advance s uid g ts off tr) uid g = some y ∧ placesOf y = goneOn ts off (placesOf x) := by
  refine ⟨modThreads x ts (fun h => goTo (coreOf s x.core) x.kernel.hndl (off h.tid) (tr h.tid) (issuedBy x h)), ?_, ?_⟩
  · unfold advance
    rw [groupOf_modGroup_same, hx]
    · rfl
    · intro y; rfl
  · unfold placesOf goneOn modThreads
    induction x.threads with
    | nil => rfl
    | cons h l ih =>
      simp only [List.map_cons, ih]
      congr 1
      split <;> simp [issuedBy]

/-- The places of the group's threads after a word's bindings and its advance to the next word. -/
theorem quiet_places {s t : State} (q : Quiet s t) {uid g : Nat} {x : Group} (hx : groupOf s uid g = some x) :
    ∃ y, groupOf t uid g = some y ∧ placesOf y = placesOf x ∧ y.calm = x.calm := by
  obtain ⟨y, hy, hc⟩ := q.group hx
  exact ⟨y, hy, placesOf_calm hc, hc⟩

@[simp] theorem nextOff_seq (s : State) (n : Nat) : nextOff { s with seq := n } = nextOff s := rfl

theorem nextOff_iss {s t : State} (h : t.iss = s.iss) : nextOff t = nextOff s := by simp [nextOff, h]

/-- After a quiet change, a result that sets out and an advance: the result in flight, and where the threads stand. -/
theorem send_and_go {s b : State} (q : Quiet s b) {uid g : Nat} {x : Group} (hx : groupOf s uid g = some x) (c : Nat) (p : Pend)
    (ts : List Nat) (off : Nat → Nat) (tr : Nat → Bool) :
    (coreOf (advance (pushPend b c p) uid g ts off tr) c).pend = (coreOf s c).pend ++ [p] ∧
    ∃ y, groupOf (advance (pushPend b c p) uid g ts off tr) uid g = some y ∧ placesOf y = goneOn ts off (placesOf x) := by
  obtain ⟨y, hy, hp, -⟩ := quiet_places q hx
  rw [coreOf_advance, pushPend_pend, q.pend c]
  rw [← groupOf_pushPend b c p] at hy
  obtain ⟨z, hz, hq⟩ := advance_group (ts := ts) (off := off) (tr := tr) hy
  exact ⟨rfl, z, hz, hp ▸ hq⟩

/-- The effect of a word that writes names: its result sets out, and its threads stand at the next word. -/
theorem writeResult_spec {i : Instr} {lat : Nat} {res : State → Group → List Nat → Nat → List Word} {uid g : Nat} {x : Group} {ok : List Nat}
    {s : State} (hx : groupOf s uid g = some x) :
    (coreOf (writeResult i lat res uid x ok s) x.core).pend = (coreOf s x.core).pend ++
      [⟨s.seq, uid, g, .lane, ok.flatMap (fun t => ((outsOf s.iss.spar i).zip (res s x ok t)).map (fun dv => (t, dv.1.2, [dv.2]))), s.iss.clk + lat⟩] ∧
    ∃ y, groupOf (writeResult i lat res uid x ok s) uid g = some y ∧ placesOf y = goneOn ok (fun _ => nextOff s) (placesOf x) := by
  have hg := groupOf_gidx hx
  have q := beginWord_quiet { s with seq := s.seq + 1 } i uid x.gidx ok false (outsOf s.iss.spar i) s.seq
  simp only [writeResult, advanceNext]
  rw [hg] at q ⊢
  generalize beginWord { s with seq := s.seq + 1 } i uid g ok false (outsOf s.iss.spar i) s.seq = b at q ⊢
  rw [nextOff_iss (s := s) (by rw [pushPend_iss, q.iss])]
  exact send_and_go q (x := x) (by rw [groupOf_seq]; exact hx) _ _ _ _ _

theorem single_results {res : Nat → List Word} {v : Nat → Word} (ts : List Nat) (n : Nat) (hv : ∀ k ∈ ts, res k = [v k]) :
    ts.flatMap (fun t => (List.zip [(NClass.lane, n)] (res t)).map (fun dv => (t, dv.1.2, [dv.2]))) = ts.map (fun k => (k, n, [v k])) := by
  induction ts with
  | nil => rfl
  | cons k l ih =>
    rw [List.flatMap_cons, List.map_cons, hv k List.mem_cons_self, ih fun j hj => hv j (List.mem_cons_of_mem k hj)]
    rfl

/-- A lane-set word of one group with one lane destination: each thread's result sets out, and the threads go on to the next word. -/
theorem laneResult_spec {s : State} {i : Instr} {g n lat : Nat} {x : Group} {ts : List Nat}
    {res : State → Group → List Nat → Nat → List Word} {v : Nat → Word} (one : s.iss.sets = [(g, ts)]) (h : LaneIssue s i g x ts)
    (ho : outsOf s.iss.spar i = [(.lane, n)]) (hv : ∀ k ∈ ts, res s x ts k = [v k]) :
    Sends s (laneResult i lat res s) x.core ⟨s.seq, s.iss.uid, g, .lane, ts.map (fun k => (k, n, [v k])), s.iss.clk + lat⟩ ∧
    GoesOn s (laneResult i lat res s) s.iss.uid g ts (fun _ => nextOff s) := by
  have e : laneResult i lat res s = writeResult i lat res s.iss.uid x ts s :=
    laneWord_clean one h.group h.present fun t ht => threadConds_clean (h.names t ht) rfl
  obtain ⟨h1, y, hy, hp⟩ := writeResult_spec (i := i) (lat := lat) (res := res) (ok := ts) h.group
  rw [e]
  refine ⟨⟨[], [], 0, ?_, by simp [one], by simp⟩, x, y, h.group, hy, hp⟩
  rw [h1, ho, single_results ts n hv]
  simp

end Sys2Proof.Machine
end

