-- ==== Sys2Proof/Laws/State.lean ====
section
/-! SUPPORT. The fields of the state after an update of it: one lemma for each field an update leaves alone, true by
computation, so that no proof unfolds a record update. (What an update does to its own field is in `Laws/Data.lean`.) -/

namespace Sys2Proof.Machine

open Sys2Proof

variable (s : State)

@[simp] theorem wrReg_mem (r : Reg) (v : Nat) : (wrReg s r v).mem = s.mem := rfl
@[simp] theorem wrReg_coh (r : Reg) (v : Nat) : (wrReg s r v).coh = s.coh := rfl
@[simp] theorem wrReg_seq (r : Reg) (v : Nat) : (wrReg s r v).seq = s.seq := rfl
@[simp] theorem wrReg_poison (r : Reg) (v : Nat) : (wrReg s r v).poison = s.poison := rfl
@[simp] theorem wrReg_units (r : Reg) (v : Nat) : (wrReg s r v).units = s.units := rfl
@[simp] theorem wrReg_cores (r : Reg) (v : Nat) : (wrReg s r v).cores = s.cores := rfl
@[simp] theorem wrReg_dies (r : Reg) (v : Nat) : (wrReg s r v).dies = s.dies := rfl
@[simp] theorem wrReg_hub (r : Reg) (v : Nat) : (wrReg s r v).hub = s.hub := rfl
@[simp] theorem wrReg_reports (r : Reg) (v : Nat) : (wrReg s r v).reports = s.reports := rfl
@[simp] theorem wrReg_nextUid (r : Reg) (v : Nat) : (wrReg s r v).nextUid = s.nextUid := rfl
@[simp] theorem wrReg_sched (r : Reg) (v : Nat) : (wrReg s r v).sched = s.sched := rfl
@[simp] theorem wrReg_iss (r : Reg) (v : Nat) : (wrReg s r v).iss = s.iss := rfl
@[simp] theorem wrReg_free (r : Reg) (v : Nat) : (wrReg s r v).free = s.free := rfl

@[simp] theorem setCore_mem (c : Nat) (x : Core) : (setCore s c x).mem = s.mem := rfl
@[simp] theorem setCore_coh (c : Nat) (x : Core) : (setCore s c x).coh = s.coh := rfl
@[simp] theorem setCore_seq (c : Nat) (x : Core) : (setCore s c x).seq = s.seq := rfl
@[simp] theorem setCore_poison (c : Nat) (x : Core) : (setCore s c x).poison = s.poison := rfl
@[simp] theorem setCore_regs (c : Nat) (x : Core) : (setCore s c x).regs = s.regs := rfl
@[simp] theorem setCore_units (c : Nat) (x : Core) : (setCore s c x).units = s.units := rfl
@[simp] theorem setCore_dies (c : Nat) (x : Core) : (setCore s c x).dies = s.dies := rfl
@[simp] theorem setCore_hub (c : Nat) (x : Core) : (setCore s c x).hub = s.hub := rfl
@[simp] theorem setCore_reports (c : Nat) (x : Core) : (setCore s c x).reports = s.reports := rfl
@[simp] theorem setCore_nextUid (c : Nat) (x : Core) : (setCore s c x).nextUid = s.nextUid := rfl
@[simp] theorem setCore_sched (c : Nat) (x : Core) : (setCore s c x).sched = s.sched := rfl
@[simp] theorem setCore_iss (c : Nat) (x : Core) : (setCore s c x).iss = s.iss := rfl
@[simp] theorem setCore_free (c : Nat) (x : Core) : (setCore s c x).free = s.free := rfl

@[simp] theorem modCore_mem (c : Nat) (f : Core → Core) : (modCore s c f).mem = s.mem := rfl
@[simp] theorem modCore_coh (c : Nat) (f : Core → Core) : (modCore s c f).coh = s.coh := rfl
@[simp] theorem modCore_seq (c : Nat) (f : Core → Core) : (modCore s c f).seq = s.seq := rfl
@[simp] theorem modCore_poison (c : Nat) (f : Core → Core) : (modCore s c f).poison = s.poison := rfl
@[simp] theorem modCore_regs (c : Nat) (f : Core → Core) : (modCore s c f).regs = s.regs := rfl
@[simp] theorem modCore_units (c : Nat) (f : Core → Core) : (modCore s c f).units = s.units := rfl
@[simp] theorem modCore_dies (c : Nat) (f : Core → Core) : (modCore s c f).dies = s.dies := rfl
@[simp] theorem modCore_hub (c : Nat) (f : Core → Core) : (modCore s c f).hub = s.hub := rfl
@[simp] theorem modCore_reports (c : Nat) (f : Core → Core) : (modCore s c f).reports = s.reports := rfl
@[simp] theorem modCore_nextUid (c : Nat) (f : Core → Core) : (modCore s c f).nextUid = s.nextUid := rfl
@[simp] theorem modCore_sched (c : Nat) (f : Core → Core) : (modCore s c f).sched = s.sched := rfl
@[simp] theorem modCore_iss (c : Nat) (f : Core → Core) : (modCore s c f).iss = s.iss := rfl
@[simp] theorem modCore_free (c : Nat) (f : Core → Core) : (modCore s c f).free = s.free := rfl

@[simp] theorem modPart_mem (c p : Nat) (f : Part → Part) : (modPart s c p f).mem = s.mem := rfl
@[simp] theorem modPart_coh (c p : Nat) (f : Part → Part) : (modPart s c p f).coh = s.coh := rfl
@[simp] theorem modPart_seq (c p : Nat) (f : Part → Part) : (modPart s c p f).seq = s.seq := rfl
@[simp] theorem modPart_poison (c p : Nat) (f : Part → Part) : (modPart s c p f).poison = s.poison := rfl
@[simp] theorem modPart_regs (c p : Nat) (f : Part → Part) : (modPart s c p f).regs = s.regs := rfl
@[simp] theorem modPart_units (c p : Nat) (f : Part → Part) : (modPart s c p f).units = s.units := rfl
@[simp] theorem modPart_dies (c p : Nat) (f : Part → Part) : (modPart s c p f).dies = s.dies := rfl
@[simp] theorem modPart_hub (c p : Nat) (f : Part → Part) : (modPart s c p f).hub = s.hub := rfl
@[simp] theorem modPart_reports (c p : Nat) (f : Part → Part) : (modPart s c p f).reports = s.reports := rfl
@[simp] theorem modPart_nextUid (c p : Nat) (f : Part → Part) : (modPart s c p f).nextUid = s.nextUid := rfl
@[simp] theorem modPart_sched (c p : Nat) (f : Part → Part) : (modPart s c p f).sched = s.sched := rfl
@[simp] theorem modPart_iss (c p : Nat) (f : Part → Part) : (modPart s c p f).iss = s.iss := rfl
@[simp] theorem modPart_free (c p : Nat) (f : Part → Part) : (modPart s c p f).free = s.free := rfl

@[simp] theorem modDie_mem (d : Nat) (f : Die → Die) : (modDie s d f).mem = s.mem := rfl
@[simp] theorem modDie_coh (d : Nat) (f : Die → Die) : (modDie s d f).coh = s.coh := rfl
@[simp] theorem modDie_seq (d : Nat) (f : Die → Die) : (modDie s d f).seq = s.seq := rfl
@[simp] theorem modDie_poison (d : Nat) (f : Die → Die) : (modDie s d f).poison = s.poison := rfl
@[simp] theorem modDie_regs (d : Nat) (f : Die → Die) : (modDie s d f).regs = s.regs := rfl
@[simp] theorem modDie_units (d : Nat) (f : Die → Die) : (modDie s d f).units = s.units := rfl
@[simp] theorem modDie_cores (d : Nat) (f : Die → Die) : (modDie s d f).cores = s.cores := rfl
@[simp] theorem modDie_hub (d : Nat) (f : Die → Die) : (modDie s d f).hub = s.hub := rfl
@[simp] theorem modDie_reports (d : Nat) (f : Die → Die) : (modDie s d f).reports = s.reports := rfl
@[simp] theorem modDie_nextUid (d : Nat) (f : Die → Die) : (modDie s d f).nextUid = s.nextUid := rfl
@[simp] theorem modDie_sched (d : Nat) (f : Die → Die) : (modDie s d f).sched = s.sched := rfl
@[simp] theorem modDie_iss (d : Nat) (f : Die → Die) : (modDie s d f).iss = s.iss := rfl
@[simp] theorem modDie_free (d : Nat) (f : Die → Die) : (modDie s d f).free = s.free := rfl

@[simp] theorem modUnit_mem (uid : Nat) (f : DUnit → DUnit) : (modUnit s uid f).mem = s.mem := rfl
@[simp] theorem modUnit_coh (uid : Nat) (f : DUnit → DUnit) : (modUnit s uid f).coh = s.coh := rfl
@[simp] theorem modUnit_seq (uid : Nat) (f : DUnit → DUnit) : (modUnit s uid f).seq = s.seq := rfl
@[simp] theorem modUnit_poison (uid : Nat) (f : DUnit → DUnit) : (modUnit s uid f).poison = s.poison := rfl
@[simp] theorem modUnit_regs (uid : Nat) (f : DUnit → DUnit) : (modUnit s uid f).regs = s.regs := rfl
@[simp] theorem modUnit_cores (uid : Nat) (f : DUnit → DUnit) : (modUnit s uid f).cores = s.cores := rfl
@[simp] theorem modUnit_dies (uid : Nat) (f : DUnit → DUnit) : (modUnit s uid f).dies = s.dies := rfl
@[simp] theorem modUnit_hub (uid : Nat) (f : DUnit → DUnit) : (modUnit s uid f).hub = s.hub := rfl
@[simp] theorem modUnit_reports (uid : Nat) (f : DUnit → DUnit) : (modUnit s uid f).reports = s.reports := rfl
@[simp] theorem modUnit_nextUid (uid : Nat) (f : DUnit → DUnit) : (modUnit s uid f).nextUid = s.nextUid := rfl
@[simp] theorem modUnit_sched (uid : Nat) (f : DUnit → DUnit) : (modUnit s uid f).sched = s.sched := rfl
@[simp] theorem modUnit_iss (uid : Nat) (f : DUnit → DUnit) : (modUnit s uid f).iss = s.iss := rfl
@[simp] theorem modUnit_free (uid : Nat) (f : DUnit → DUnit) : (modUnit s uid f).free = s.free := rfl

@[simp] theorem modGroup_mem (uid g : Nat) (f : Group → Group) : (modGroup s uid g f).mem = s.mem := rfl
@[simp] theorem modGroup_coh (uid g : Nat) (f : Group → Group) : (modGroup s uid g f).coh = s.coh := rfl
@[simp] theorem modGroup_seq (uid g : Nat) (f : Group → Group) : (modGroup s uid g f).seq = s.seq := rfl
@[simp] theorem modGroup_poison (uid g : Nat) (f : Group → Group) : (modGroup s uid g f).poison = s.poison := rfl
@[simp] theorem modGroup_regs (uid g : Nat) (f : Group → Group) : (modGroup s uid g f).regs = s.regs := rfl
@[simp] theorem modGroup_cores (uid g : Nat) (f : Group → Group) : (modGroup s uid g f).cores = s.cores := rfl
@[simp] theorem modGroup_dies (uid g : Nat) (f : Group → Group) : (modGroup s uid g f).dies = s.dies := rfl
@[simp] theorem modGroup_hub (uid g : Nat) (f : Group → Group) : (modGroup s uid g f).hub = s.hub := rfl
@[simp] theorem modGroup_reports (uid g : Nat) (f : Group → Group) : (modGroup s uid g f).reports = s.reports := rfl
@[simp] theorem modGroup_nextUid (uid g : Nat) (f : Group → Group) : (modGroup s uid g f).nextUid = s.nextUid := rfl
@[simp] theorem modGroup_sched (uid g : Nat) (f : Group → Group) : (modGroup s uid g f).sched = s.sched := rfl
@[simp] theorem modGroup_iss (uid g : Nat) (f : Group → Group) : (modGroup s uid g f).iss = s.iss := rfl
@[simp] theorem modGroup_free (uid g : Nat) (f : Group → Group) : (modGroup s uid g f).free = s.free := rfl

@[simp] theorem modGroups_mem (uid : Nat) (f : Group → Group) : (modGroups s uid f).mem = s.mem := rfl
@[simp] theorem modGroups_coh (uid : Nat) (f : Group → Group) : (modGroups s uid f).coh = s.coh := rfl
@[simp] theorem modGroups_seq (uid : Nat) (f : Group → Group) : (modGroups s uid f).seq = s.seq := rfl
@[simp] theorem modGroups_poison (uid : Nat) (f : Group → Group) : (modGroups s uid f).poison = s.poison := rfl
@[simp] theorem modGroups_regs (uid : Nat) (f : Group → Group) : (modGroups s uid f).regs = s.regs := rfl
@[simp] theorem modGroups_cores (uid : Nat) (f : Group → Group) : (modGroups s uid f).cores = s.cores := rfl
@[simp] theorem modGroups_dies (uid : Nat) (f : Group → Group) : (modGroups s uid f).dies = s.dies := rfl
@[simp] theorem modGroups_hub (uid : Nat) (f : Group → Group) : (modGroups s uid f).hub = s.hub := rfl
@[simp] theorem modGroups_reports (uid : Nat) (f : Group → Group) : (modGroups s uid f).reports = s.reports := rfl
@[simp] theorem modGroups_nextUid (uid : Nat) (f : Group → Group) : (modGroups s uid f).nextUid = s.nextUid := rfl
@[simp] theorem modGroups_sched (uid : Nat) (f : Group → Group) : (modGroups s uid f).sched = s.sched := rfl
@[simp] theorem modGroups_iss (uid : Nat) (f : Group → Group) : (modGroups s uid f).iss = s.iss := rfl
@[simp] theorem modGroups_free (uid : Nat) (f : Group → Group) : (modGroups s uid f).free = s.free := rfl

@[simp] theorem modHub_mem (f : Hub → Hub) : (modHub s f).mem = s.mem := rfl
@[simp] theorem modHub_coh (f : Hub → Hub) : (modHub s f).coh = s.coh := rfl
@[simp] theorem modHub_seq (f : Hub → Hub) : (modHub s f).seq = s.seq := rfl
@[simp] theorem modHub_poison (f : Hub → Hub) : (modHub s f).poison = s.poison := rfl
@[simp] theorem modHub_regs (f : Hub → Hub) : (modHub s f).regs = s.regs := rfl
@[simp] theorem modHub_units (f : Hub → Hub) : (modHub s f).units = s.units := rfl
@[simp] theorem modHub_cores (f : Hub → Hub) : (modHub s f).cores = s.cores := rfl
@[simp] theorem modHub_dies (f : Hub → Hub) : (modHub s f).dies = s.dies := rfl
@[simp] theorem modHub_reports (f : Hub → Hub) : (modHub s f).reports = s.reports := rfl
@[simp] theorem modHub_nextUid (f : Hub → Hub) : (modHub s f).nextUid = s.nextUid := rfl
@[simp] theorem modHub_sched (f : Hub → Hub) : (modHub s f).sched = s.sched := rfl
@[simp] theorem modHub_iss (f : Hub → Hub) : (modHub s f).iss = s.iss := rfl
@[simp] theorem modHub_free (f : Hub → Hub) : (modHub s f).free = s.free := rfl

@[simp] theorem pushPend_mem (c : Nat) (p : Pend) : (pushPend s c p).mem = s.mem := rfl
@[simp] theorem pushPend_coh (c : Nat) (p : Pend) : (pushPend s c p).coh = s.coh := rfl
@[simp] theorem pushPend_seq (c : Nat) (p : Pend) : (pushPend s c p).seq = s.seq := rfl
@[simp] theorem pushPend_poison (c : Nat) (p : Pend) : (pushPend s c p).poison = s.poison := rfl
@[simp] theorem pushPend_regs (c : Nat) (p : Pend) : (pushPend s c p).regs = s.regs := rfl
@[simp] theorem pushPend_units (c : Nat) (p : Pend) : (pushPend s c p).units = s.units := rfl
@[simp] theorem pushPend_dies (c : Nat) (p : Pend) : (pushPend s c p).dies = s.dies := rfl
@[simp] theorem pushPend_hub (c : Nat) (p : Pend) : (pushPend s c p).hub = s.hub := rfl
@[simp] theorem pushPend_reports (c : Nat) (p : Pend) : (pushPend s c p).reports = s.reports := rfl
@[simp] theorem pushPend_nextUid (c : Nat) (p : Pend) : (pushPend s c p).nextUid = s.nextUid := rfl
@[simp] theorem pushPend_sched (c : Nat) (p : Pend) : (pushPend s c p).sched = s.sched := rfl
@[simp] theorem pushPend_free (c : Nat) (p : Pend) : (pushPend s c p).free = s.free := rfl

@[simp] theorem advance_mem (uid g : Nat) (ts : List Nat) (off : Nat → Nat) (tr : Nat → Bool) : (advance s uid g ts off tr).mem = s.mem := rfl
@[simp] theorem advance_coh (uid g : Nat) (ts : List Nat) (off : Nat → Nat) (tr : Nat → Bool) : (advance s uid g ts off tr).coh = s.coh := rfl
@[simp] theorem advance_seq (uid g : Nat) (ts : List Nat) (off : Nat → Nat) (tr : Nat → Bool) : (advance s uid g ts off tr).seq = s.seq := rfl
@[simp] theorem advance_poison (uid g : Nat) (ts : List Nat) (off : Nat → Nat) (tr : Nat → Bool) : (advance s uid g ts off tr).poison = s.poison := rfl
@[simp] theorem advance_regs (uid g : Nat) (ts : List Nat) (off : Nat → Nat) (tr : Nat → Bool) : (advance s uid g ts off tr).regs = s.regs := rfl
@[simp] theorem advance_cores (uid g : Nat) (ts : List Nat) (off : Nat → Nat) (tr : Nat → Bool) : (advance s uid g ts off tr).cores = s.cores := rfl
@[simp] theorem advance_dies (uid g : Nat) (ts : List Nat) (off : Nat → Nat) (tr : Nat → Bool) : (advance s uid g ts off tr).dies = s.dies := rfl
@[simp] theorem advance_hub (uid g : Nat) (ts : List Nat) (off : Nat → Nat) (tr : Nat → Bool) : (advance s uid g ts off tr).hub = s.hub := rfl
@[simp] theorem advance_reports (uid g : Nat) (ts : List Nat) (off : Nat → Nat) (tr : Nat → Bool) : (advance s uid g ts off tr).reports = s.reports := rfl
@[simp] theorem advance_nextUid (uid g : Nat) (ts : List Nat) (off : Nat → Nat) (tr : Nat → Bool) : (advance s uid g ts off tr).nextUid = s.nextUid := rfl
@[simp] theorem advance_sched (uid g : Nat) (ts : List Nat) (off : Nat → Nat) (tr : Nat → Bool) : (advance s uid g ts off tr).sched = s.sched := rfl
@[simp] theorem advance_iss (uid g : Nat) (ts : List Nat) (off : Nat → Nat) (tr : Nat → Bool) : (advance s uid g ts off tr).iss = s.iss := rfl
@[simp] theorem advance_free (uid g : Nat) (ts : List Nat) (off : Nat → Nat) (tr : Nat → Bool) : (advance s uid g ts off tr).free = s.free := rfl

@[simp] theorem advanceNext_mem (uid g : Nat) (ts : List Nat) : (advanceNext s uid g ts).mem = s.mem := rfl
@[simp] theorem advanceNext_coh (uid g : Nat) (ts : List Nat) : (advanceNext s uid g ts).coh = s.coh := rfl
@[simp] theorem advanceNext_seq (uid g : Nat) (ts : List Nat) : (advanceNext s uid g ts).seq = s.seq := rfl
@[simp] theorem advanceNext_poison (uid g : Nat) (ts : List Nat) : (advanceNext s uid g ts).poison = s.poison := rfl
@[simp] theorem advanceNext_regs (uid g : Nat) (ts : List Nat) : (advanceNext s uid g ts).regs = s.regs := rfl
@[simp] theorem advanceNext_cores (uid g : Nat) (ts : List Nat) : (advanceNext s uid g ts).cores = s.cores := rfl
@[simp] theorem advanceNext_dies (uid g : Nat) (ts : List Nat) : (advanceNext s uid g ts).dies = s.dies := rfl
@[simp] theorem advanceNext_hub (uid g : Nat) (ts : List Nat) : (advanceNext s uid g ts).hub = s.hub := rfl
@[simp] theorem advanceNext_reports (uid g : Nat) (ts : List Nat) : (advanceNext s uid g ts).reports = s.reports := rfl
@[simp] theorem advanceNext_nextUid (uid g : Nat) (ts : List Nat) : (advanceNext s uid g ts).nextUid = s.nextUid := rfl
@[simp] theorem advanceNext_sched (uid g : Nat) (ts : List Nat) : (advanceNext s uid g ts).sched = s.sched := rfl
@[simp] theorem advanceNext_iss (uid g : Nat) (ts : List Nat) : (advanceNext s uid g ts).iss = s.iss := rfl
@[simp] theorem advanceNext_free (uid g : Nat) (ts : List Nat) : (advanceNext s uid g ts).free = s.free := rfl

/-- A register reads the same after an update of anything but the registers. -/
@[simp] theorem rdReg_modCore (c : Nat) (f : Core → Core) (r : Reg) : rdReg (modCore s c f) r = rdReg s r := rfl
@[simp] theorem rdReg_modPart (c p : Nat) (f : Part → Part) (r : Reg) : rdReg (modPart s c p f) r = rdReg s r := rfl
@[simp] theorem rdReg_modUnit (uid : Nat) (f : DUnit → DUnit) (r : Reg) : rdReg (modUnit s uid f) r = rdReg s r := rfl
@[simp] theorem rdReg_modGroup (uid g : Nat) (f : Group → Group) (r : Reg) : rdReg (modGroup s uid g f) r = rdReg s r := rfl
@[simp] theorem rdReg_modDie (d : Nat) (f : Die → Die) (r : Reg) : rdReg (modDie s d f) r = rdReg s r := rfl
@[simp] theorem rdReg_modHub (f : Hub → Hub) (r : Reg) : rdReg (modHub s f) r = rdReg s r := rfl

@[simp] theorem coreOf_wrReg (r : Reg) (v c : Nat) : coreOf (wrReg s r v) c = coreOf s c := rfl
@[simp] theorem coreOf_modDie (d : Nat) (f : Die → Die) (c : Nat) : coreOf (modDie s d f) c = coreOf s c := rfl
@[simp] theorem coreOf_modHub (f : Hub → Hub) (c : Nat) : coreOf (modHub s f) c = coreOf s c := rfl
@[simp] theorem dieOf_wrReg (r : Reg) (v d : Nat) : dieOf (wrReg s r v) d = dieOf s d := rfl
@[simp] theorem dieOf_modCore (c : Nat) (f : Core → Core) (d : Nat) : dieOf (modCore s c f) d = dieOf s d := rfl
@[simp] theorem dieOf_modPart (c p : Nat) (f : Part → Part) (d : Nat) : dieOf (modPart s c p f) d = dieOf s d := rfl
@[simp] theorem dieOf_modUnit (uid : Nat) (f : DUnit → DUnit) (d : Nat) : dieOf (modUnit s uid f) d = dieOf s d := rfl
@[simp] theorem dieOf_modGroup (uid g : Nat) (f : Group → Group) (d : Nat) : dieOf (modGroup s uid g f) d = dieOf s d := rfl
@[simp] theorem dieOf_modHub (f : Hub → Hub) (d : Nat) : dieOf (modHub s f) d = dieOf s d := rfl

@[simp] theorem unitOf_wrReg (r : Reg) (v uid : Nat) : unitOf (wrReg s r v) uid = unitOf s uid := rfl
@[simp] theorem unitOf_modDie (d : Nat) (f : Die → Die) (uid : Nat) : unitOf (modDie s d f) uid = unitOf s uid := rfl
@[simp] theorem unitOf_modHub (f : Hub → Hub) (uid : Nat) : unitOf (modHub s f) uid = unitOf s uid := rfl
@[simp] theorem groupOf_wrReg (r : Reg) (v uid g : Nat) : groupOf (wrReg s r v) uid g = groupOf s uid g := rfl
@[simp] theorem groupOf_modDie (d : Nat) (f : Die → Die) (uid g : Nat) : groupOf (modDie s d f) uid g = groupOf s uid g := rfl
@[simp] theorem groupOf_modHub (f : Hub → Hub) (uid g : Nat) : groupOf (modHub s f) uid g = groupOf s uid g := rfl

end Sys2Proof.Machine
end

