-- ==== Sys2Proof/Tests/Slice0.lean ====
section
/-! SUPPORT. The model's own tests: ill-formed terms refused, words written out from the spec's encodings, results worked by hand
from the spec's rules, and for each claim with hypotheses a state that meets them. -/

namespace Sys2Proof.Tests

open Sys2Proof Sys2Proof.Machine

set_option Elab.async false

/-! What `WellFormed` refuses: one ill-formed term for each check. -/

theorem test_wf_literals : [Instr.ishShl 1 2 32, .ishShr 1 2 32, .ishSar 1 2 32, .ishRot 1 2 32, .fcH16f32 1 2 2, .fcF32h16 1 2 2, .fcBf16f32 1 2 2,
    .fcF32bf16 1 2 2, .fcLt8f32 1 2 4, .fcF32lt8 1 2 4, .jmpLink 0 4, .sr 1 13].all (fun i => !WellFormed i) = true := by decide

theorem test_wf_tiles_and_barriers : [Instr.mxMma 8 1 1, .mxMmag 8 1 1, .mxMcv 8 1 1, .mxZero 8, .mxGet 1 8 1, .mxPut 8 1 1, .mxSto 8 1, .mxRmax 1 8, .mxRscale 8 1,
    .syncBar 64, .syncArr 64, .syncWt 64, .syncOc 5 1, .syncFence 6 1, .syncFence 1 0, .syncFence 1 4].all (fun i => !WellFormed i) = true := by decide

theorem test_wf_engines : [Instr.engCopy 4 1, .pmLoad 16 1, .pmIdent 16 1, .pmIdent 1 4, .pmComp 16 1 1, .pmComp 1 16 1, .pmComp 1 1 16, .pmInv 16 1, .pmInv 1 16,
    .pmRand 16 1 1, .pmRand 1 1 4, .pmCyc 1 16, .pmSave 1 16, .pmRest 16 1, .ctrRd 1 16].all (fun i => !WellFormed i) = true := by decide

theorem test_wf_events : [Instr.qportSubmit 0 4096 (List.replicate 128 0), .qportSubmit 0 64 (List.replicate 128 0), .qportSubmit 0 0 [], .domtabRun 224 0 0,
    .domtabRun 0 8 0, .pcSample 0 12, .pcSample 224 0, .dvfsRequest 8 0 0, .dvfsRequest 0 7 0, .flashWrite 10 0, .tlbInvalidate 8 0, .watchWrite 8 0 0,
    .watchWrite 0 8 0, .lswapWrite 0 64 0, .lswapWrite 8 0 0, .hbmTransfer 8 0 false, .hbmTransfer 0 (3 * 2 ^ 30) false, .sampctlWrite 224 0, .chainStart 224 0,
    .chainStart 0 5, .ctrselWrite 224 0 0 0, .ctrselWrite 0 12 0 0, .ctrselWrite 0 0 16 0, .registerWrite (.brk 0 0 4) 0, .registerWrite (.wintab 0 1024) 0,
    .remWindowAccess ⟨8, 0, true, 0, 0, []⟩, .remWindowAccess ⟨0, 1024, true, 0, 0, []⟩].all (fun i => !WellFormed i) = true := by decide

/-! Words written out bit by bit from the encoding tables (R118, R120, R124, R125): every instruction's, by its op. -/

/-- Every word of the list decodes to the instruction beside it. -/
def allDecode (l : List (Nat × Instr)) : Bool := l.all (fun p => match decode p.1 with | .ok i => i == p.2 | .error _ => false)

theorem test_decode_lane_op_00 : allDecode [(0x001965FE, .iaAdd 0x65 0x4b 0x7e), (0x003965FE, .iaSub 0x65 0x4b 0x7e), (0x005965FE, .iaMul 0x65 0x4b 0x7e), (0x007965FE, .iaMulh 0x65 0x4b 0x7e), (0x009965FE, .iaMulhn 0x65 0x4b 0x7e), (0x00B965FE, .iaMin 0x65 0x4b 0x7e),
    (0x00D965FE, .iaMax 0x65 0x4b 0x7e), (0x00F965FE, .iaMinn 0x65 0x4b 0x7e), (0x011965FE, .iaMaxn 0x65 0x4b 0x7e), (0x013965FE, .iaAnd 0x65 0x4b 0x7e), (0x015965FE, .iaOr 0x65 0x4b 0x7e), (0x017965FE, .iaXor 0x65 0x4b 0x7e),
    (0x019965FE, .iaShl 0x65 0x4b 0x7e), (0x01B965FE, .iaShr 0x65 0x4b 0x7e), (0x01D965FE, .iaSar 0x65 0x4b 0x7e), (0x01F965FE, .iaRot 0x65 0x4b 0x7e)] = true := by decide +kernel
theorem test_decode_lane_op_01 : allDecode [(0x021965FE, .icEq 0x65 0x4b 0x7e), (0x023965FE, .icNe 0x65 0x4b 0x7e), (0x025965FE, .icLt 0x65 0x4b 0x7e), (0x027965FE, .icLe 0x65 0x4b 0x7e), (0x029965FE, .icLtn 0x65 0x4b 0x7e), (0x02B965FE, .icLen 0x65 0x4b 0x7e)] = true := by decide +kernel
theorem test_decode_lane_op_02 : allDecode [(0x05965DA3, .iai 0x65 0x4b 0x5a3)] = true := by decide +kernel
theorem test_decode_lane_op_03 : allDecode [(0x06010181, .ishShl 4 3 1), (0x06210181, .ishShr 4 3 1), (0x06410181, .ishSar 4 3 1), (0x06610181, .ishRot 4 3 1)] = true := by decide +kernel
theorem test_decode_lane_op_04 : allDecode [(0x0996FFF1, .lim 0x65 0x2fff1)] = true := by decide +kernel
theorem test_decode_lane_op_05 : allDecode [(0x0B96FFF1, .lih 0x65 0x2fff1)] = true := by decide +kernel
theorem test_decode_lane_op_06 : allDecode [(0x0C1965FE, .faAdd 0x65 0x4b 0x7e), (0x0C3965FE, .faSub 0x65 0x4b 0x7e), (0x0C5965FE, .faMul 0x65 0x4b 0x7e), (0x0C7965FE, .faFma 0x65 0x4b 0x7e), (0x0C9965FE, .faFms 0x65 0x4b 0x7e), (0x0CB965FE, .faMin 0x65 0x4b 0x7e),
    (0x0CD965FE, .faMax 0x65 0x4b 0x7e), (0x0CF96580, .faAbs 0x65 0x4b), (0x0D196580, .faNeg 0x65 0x4b), (0x0D3965FE, .faEq 0x65 0x4b 0x7e), (0x0D5965FE, .faLt 0x65 0x4b 0x7e), (0x0D7965FE, .faLe 0x65 0x4b 0x7e)] = true := by decide +kernel
theorem test_decode_lane_op_07 : allDecode [(0x0E1965FE, .fhHadd 0x65 0x4b 0x7e), (0x0E3965FE, .fhHmul 0x65 0x4b 0x7e), (0x0E5965FE, .fhHfma 0x65 0x4b 0x7e), (0x0E7965FE, .fhHmin 0x65 0x4b 0x7e), (0x0E9965FE, .fhHmax 0x65 0x4b 0x7e), (0x0EB965FE, .fhBadd 0x65 0x4b 0x7e),
    (0x0ED965FE, .fhBmul 0x65 0x4b 0x7e), (0x0EF965FE, .fhBfma 0x65 0x4b 0x7e), (0x0F1965FE, .fhBmin 0x65 0x4b 0x7e), (0x0F3965FE, .fhBmax 0x65 0x4b 0x7e)] = true := by decide +kernel
theorem test_decode_lane_op_08 : allDecode [(0x10196580, .fcF32i 0x65 0x4b), (0x10396580, .fcF32n 0x65 0x4b), (0x10596580, .fcIf32 0x65 0x4b), (0x10796580, .fcNf32 0x65 0x4b), (0x10810181, .fcH16f32 4 3 1), (0x10A10181, .fcF32h16 4 3 1),
    (0x10C10181, .fcBf16f32 4 3 1), (0x10E10181, .fcF32bf16 4 3 1), (0x11010181, .fcLt8f32 4 3 1), (0x11210181, .fcF32lt8 4 3 1)] = true := by decide +kernel
theorem test_decode_lane_op_09 : allDecode [(0x12196580, .fxRcp 0x65 0x4b), (0x12396580, .fxRsqrt 0x65 0x4b), (0x12596580, .fxSqrt 0x65 0x4b), (0x12796580, .fxExp2 0x65 0x4b), (0x12996580, .fxLog2 0x65 0x4b), (0x12B96580, .fxSinpi 0x65 0x4b),
    (0x12D96580, .fxCospi 0x65 0x4b), (0x12F96580, .fxTanh 0x65 0x4b), (0x13196580, .fxCeil 0x65 0x4b), (0x13396580, .fxFloor 0x65 0x4b), (0x13596580, .fxXexp 0x65 0x4b), (0x137965FE, .fxLdexp 0x65 0x4b 0x7e)] = true := by decide +kernel
theorem test_decode_lane_op_0A : allDecode [(0x141965FE, .xlShfl 0x65 0x4b 0x7e), (0x143965FE, .xlShflx 0x65 0x4b 0x7e), (0x14596580, .xlAny 0x65 0x4b), (0x14796580, .xlAll 0x65 0x4b), (0x14996580, .xlBallotl 0x65 0x4b), (0x14B96580, .xlBallh 0x65 0x4b),
    (0x14D96580, .xlScan 0x65 0x4b), (0x14F96580, .xlRed 0x65 0x4b), (0x15196580, .xlRedmax 0x65 0x4b), (0x15396580, .xlFred 0x65 0x4b), (0x15596580, .xlFredmax 0x65 0x4b), (0x15796580, .xlMatch 0x65 0x4b),
    (0x15996580, .xlPopc 0x65 0x4b)] = true := by decide +kernel
theorem test_decode_lane_op_0B : allDecode [(0x1796FFF1, .brz 0x65 0x2fff1)] = true := by decide +kernel
theorem test_decode_lane_op_0C : allDecode [(0x1996FFF1, .brnz 0x65 0x2fff1)] = true := by decide +kernel
theorem test_decode_lane_op_0D : allDecode [(0x1A02FFF1, .jmp 0x2fff1), (0x1A12FFF1, .jmpLink 4 0x2fff1)] = true := by decide +kernel
theorem test_decode_lane_op_0E : allDecode [(0x1C003280, .ctlJr 0x65), (0x1C200000, .ctlExit)] = true := by decide +kernel
theorem test_decode_lane_op_0F : allDecode [(0x1E1965FE, .ldN8 0x65 0x4b 0x7e), (0x1E3965FE, .ldI8 0x65 0x4b 0x7e), (0x1E5965FE, .ldN16 0x65 0x4b 0x7e), (0x1E7965FE, .ldI16 0x65 0x4b 0x7e), (0x1E9965FE, .ldB32 0x65 0x4b 0x7e), (0x1EB965FE, .ldB64 0x65 0x4b 0x7e),
    (0x1ED965FE, .ldB128 0x65 0x4b 0x7e)] = true := by decide +kernel
theorem test_decode_lane_op_10 : allDecode [(0x201965FE, .stB8 0x65 0x4b 0x7e), (0x203965FE, .stB16 0x65 0x4b 0x7e), (0x205965FE, .stB32 0x65 0x4b 0x7e), (0x207965FE, .stB64 0x65 0x4b 0x7e), (0x209965FE, .stB128 0x65 0x4b 0x7e)] = true := by decide +kernel
theorem test_decode_lane_op_11 : allDecode [(0x221965FE, .atAdd 0x65 0x4b 0x7e), (0x223965FE, .atMin 0x65 0x4b 0x7e), (0x225965FE, .atMax 0x65 0x4b 0x7e), (0x227965FE, .atMinn 0x65 0x4b 0x7e), (0x229965FE, .atMaxn 0x65 0x4b 0x7e), (0x22B965FE, .atAnd 0x65 0x4b 0x7e),
    (0x22D965FE, .atOr 0x65 0x4b 0x7e), (0x22F965FE, .atXor 0x65 0x4b 0x7e), (0x231965FE, .atXchg 0x65 0x4b 0x7e), (0x233965FE, .atCas 0x65 0x4b 0x7e), (0x235965FE, .atFadd 0x65 0x4b 0x7e)] = true := by decide +kernel
theorem test_decode_lane_op_12 : allDecode [(0x241965FE, .sel 0x65 0x4b 0x7e)] = true := by decide +kernel
theorem test_decode_lane_op_13 : allDecode [(0x26010003, .sr 4 3)] = true := by decide +kernel
theorem test_decode_lane_op_14 : allDecode [(0x281965FE, .ixRd 0x65 0x4b 0x7e), (0x283965FE, .ixWr 0x65 0x4b 0x7e)] = true := by decide +kernel
theorem test_decode_lane_op_15 : allDecode [(0x2A19658E, .plApply 0x65 0x4b 14), (0x2A39658E, .plApplyi 0x65 0x4b 14), (0x2A59400B, .plIdx 0x65 11), (0x2A79400B, .plPos 0x65 11), (0x2A99400B, .plCyclen 0x65 11), (0x2AB9400B, .plCycmin 0x65 11)] = true := by decide +kernel
theorem test_decode_lane_op_16 : allDecode [(0x2C010181, .mxMma 4 3 1), (0x2C210181, .mxMmag 4 3 1), (0x2C410181, .mxMcv 4 3 1), (0x2C610000, .mxZero 4), (0x2C810181, .mxGet 4 3 1), (0x2CA10181, .mxPut 4 3 1),
    (0x2CC10180, .mxSto 4 3), (0x2CE10180, .mxRmax 4 3), (0x2D010180, .mxRscale 4 3)] = true := by decide +kernel
theorem test_decode_lane_op_17 : allDecode [(0x2E000000, .sysNop), (0x2E200065, .sysBrk 0x65), (0x2E400065, .sysTrap 0x65)] = true := by decide +kernel
theorem test_decode_spar : allDecode [(0x7F4A7948, .spar 10 5 3 12 1 0 4 2)] = true := by decide +kernel
theorem test_decode_group_op_00 : allDecode [(0x801965FE, .uaAdd 0x65 0x4b 0x7e), (0x803965FE, .uaSub 0x65 0x4b 0x7e), (0x805965FE, .uaMul 0x65 0x4b 0x7e), (0x807965FE, .uaAnd 0x65 0x4b 0x7e), (0x809965FE, .uaOr 0x65 0x4b 0x7e), (0x80B965FE, .uaXor 0x65 0x4b 0x7e),
    (0x80D965FE, .uaShl 0x65 0x4b 0x7e), (0x80F965FE, .uaShr 0x65 0x4b 0x7e), (0x811965FE, .uaMin 0x65 0x4b 0x7e), (0x813965FE, .uaMax 0x65 0x4b 0x7e), (0x815965FE, .uaMinn 0x65 0x4b 0x7e), (0x817965FE, .uaMaxn 0x65 0x4b 0x7e)] = true := by decide +kernel
theorem test_decode_group_op_01 : allDecode [(0x821965FE, .ucEq 0x65 0x4b 0x7e), (0x823965FE, .ucNe 0x65 0x4b 0x7e), (0x825965FE, .ucLt 0x65 0x4b 0x7e), (0x827965FE, .ucLtn 0x65 0x4b 0x7e)] = true := by decide +kernel
theorem test_decode_group_op_02 : allDecode [(0x85965DA3, .uai 0x65 0x4b 0x5a3)] = true := by decide +kernel
theorem test_decode_group_op_03 : allDecode [(0x8796FFF1, .ulim 0x65 0x2fff1)] = true := by decide +kernel
theorem test_decode_group_op_04 : allDecode [(0x8996FFF1, .ulih 0x65 0x2fff1)] = true := by decide +kernel
theorem test_decode_group_op_05 : allDecode [(0x8B96FFF1, .ubrz 0x65 0x2fff1)] = true := by decide +kernel
theorem test_decode_group_op_06 : allDecode [(0x8D96FFF1, .ubrnz 0x65 0x2fff1)] = true := by decide +kernel
theorem test_decode_group_op_07 : allDecode [(0x8E010000, .syncBar 4), (0x8E210000, .syncArr 4), (0x8E410000, .syncWt 4), (0x8E610180, .syncOc 4 3), (0x8E810180, .syncFence 4 3), (0x8EA032CB, .syncMwait 0x65 0x4b),
    (0x8EC00000, .syncTrig), (0x8EE00000, .syncDwait)] = true := by decide +kernel
theorem test_decode_group_op_08 : allDecode [(0x9000C180, .engCopy 3 3), (0x90203280, .engQuant 0x65), (0x90403280, .engPut 0x65), (0x90603280, .engGet 0x65)] = true := by decide +kernel
theorem test_decode_group_op_09 : allDecode [(0x92010180, .pmLoad 4 3), (0x92210180, .pmIdent 4 3), (0x92410181, .pmComp 4 3 1), (0x92610180, .pmInv 4 3), (0x92810181, .pmRand 4 3 1), (0x92A10180, .pmCyc 4 3),
    (0x92C10180, .pmSave 4 3), (0x92E10180, .pmRest 4 3)] = true := by decide +kernel
theorem test_decode_group_op_0A : allDecode [(0x94196580, .obRsv 0x65 0x4b), (0x94203280, .obRel 0x65), (0x94403280, .obRec 0x65)] = true := by decide +kernel
theorem test_decode_group_op_0B : allDecode [(0x96194000, .modeRd 0x65), (0x96203280, .modeWr 0x65)] = true := by decide +kernel
theorem test_decode_group_op_0C : allDecode [(0x98003280, .gateCall 0x65), (0x98200000, .gateRet)] = true := by decide +kernel
theorem test_decode_group_op_0D : allDecode [(0x9A010180, .ctrRd 4 3), (0x9A203280, .ctrMark 0x65)] = true := by decide +kernel
theorem test_decode_group_op_0E : allDecode [(0x9C1965FE, .uldB32 0x65 0x4b 0x7e), (0x9C3965FE, .uldB64 0x65 0x4b 0x7e)] = true := by decide +kernel
theorem test_decode_group_op_0F : allDecode [(0x9E1965FE, .ustB32 0x65 0x4b 0x7e)] = true := by decide +kernel

theorem test_decode_refuses : [0x30000000, 0x02C00000, 0x0CF96581, 0x06010020, 0x10810182, 0xA0000000, 0xC0000000, 0x8E810204].all
    (fun w => match decode w with | .ok _ => false | .error _ => true) = true := by decide +kernel

/-! Results of single words, worked by hand from the rules: a group of eight threads after reset, thread k's value of a lane name given. -/

/-- The eight threads of the group that is placed. -/
def octet : List Nat := [0, 1, 2, 3, 4, 5, 6, 7]

/-- The machine right after reset with one word placed, and that word's issue by the eight threads in progress. -/
def issuing (i : Instr) : State :=
  { State.reset.withFetchWord 32 ((encode i).getD 0) with
    iss := ⟨0, 0, 1, 0, noSpar, 0, BitVec.ofNat 32 ((encode i).getD 0), [(0, octet)], 0⟩ }

/-- The state with the group changed. -/
def onGroup (f : Group → Group) (s : State) : State := modGroup s 1 0 f

/-- The state with thread k's value of lane name `n` set to `f k`. -/
def lanes (n : Nat) (f : Nat → Word) (s : State) : State :=
  onGroup (fun x => modName x .lane n (fun m => { m with entries := m.entries.zipIdx.map (fun e => { e.1 with words := [f e.2] }) })) s

/-- The state with the uniform name `n` set. -/
def uni (n : Nat) (v : Word) (s : State) : State :=
  onGroup (fun x => modName x .uniform n (fun m => { m with entries := m.entries.map (fun e => { e with words := [v] }) })) s

/-- The next state, where there is one. -/
def after (i : Instr) (s : State) : Option State := match exec i s with | .next t => some t | _ => none

/-- A result that has set out: its class, the clock it is due, and thread, name and value of each write. -/
structure Sent where
  cls : NClass
  due : Nat
  vals : List (Nat × Nat × List Word)
deriving DecidableEq, Repr

/-- The results that have set out. -/
def sent (i : Instr) (s : State) : List Sent := ((after i s).map (fun t => (coreOf t 0).pend.map (fun p => Sent.mk p.cls p.due p.vals))).getD []

/-- One lane word on threads that all hold A and B: what each thread receives, when all receive the same. -/
def ab (i : Instr) (A B : Word) : Option (Nat × Word) :=
  match sent i (lanes 3 (fun _ => B) (lanes 2 (fun _ => A) (issuing i))) with
  | [⟨.lane, due, vs⟩] => if vs.length = 8 ∧ vs.all (fun v => v.2.1 == 1 && v.2.2 == (vs.head?.map (fun v => v.2.2)).getD []) then
      vs.head?.map (fun v => (due, (v.2.2[0]?).getD 0)) else none
  | _ => none

theorem test_integer_add_wraps : ab (.iaAdd 1 2 3) 0xFFFFFFFF 2 = some (2, 1) ∧ ab (.iaSub 1 2 3) 0 1 = some (2, 0xFFFFFFFF) := by decide +kernel
theorem test_integer_multiply : ab (.iaMul 1 2 3) 0x10001 0x10001 = some (4, 0x20001) ∧ ab (.iaMulh 1 2 3) 0xFFFFFFFF 2 = some (4, 0xFFFFFFFF) ∧
    ab (.iaMulhn 1 2 3) 0xFFFFFFFF 2 = some (4, 1) := by decide +kernel
theorem test_integer_order : ab (.iaMin 1 2 3) 0xFFFFFFFF 1 = some (2, 0xFFFFFFFF) ∧ ab (.iaMax 1 2 3) 0xFFFFFFFF 1 = some (2, 1) ∧
    ab (.iaMinn 1 2 3) 0xFFFFFFFF 1 = some (2, 1) ∧ ab (.iaMaxn 1 2 3) 0xFFFFFFFF 1 = some (2, 0xFFFFFFFF) ∧ ab (.icLt 1 2 3) 0x80000000 0 = some (2, 1) ∧
    ab (.icLtn 1 2 3) 0x80000000 0 = some (2, 0) ∧ ab (.icLe 1 2 3) 5 5 = some (2, 1) ∧ ab (.icLen 1 2 3) 6 5 = some (2, 0) ∧ ab (.icEq 1 2 3) 5 5 = some (2, 1) ∧
    ab (.icNe 1 2 3) 5 5 = some (2, 0) := by decide +kernel
theorem test_integer_bits : ab (.iaAnd 1 2 3) 0xC 0xA = some (2, 8) ∧ ab (.iaOr 1 2 3) 0xC 0xA = some (2, 0xE) ∧ ab (.iaXor 1 2 3) 0xC 0xA = some (2, 6) := by decide +kernel
theorem test_integer_shift_by_width : ab (.iaShl 1 2 3) 1 32 = some (2, 0) ∧ ab (.iaShr 1 2 3) 0x80000000 32 = some (2, 0) ∧
    ab (.iaSar 1 2 3) 0x80000000 33 = some (2, 0xFFFFFFFF) ∧ ab (.iaRot 1 2 3) 0x80000001 33 = some (2, 3) := by decide +kernel
theorem test_integer_shift_by_literal : ab (.ishShl 1 2 31) 3 0 = some (2, 0x80000000) ∧ ab (.ishShr 1 2 31) 0x80000000 0 = some (2, 1) ∧
    ab (.ishSar 1 2 31) 0x80000000 0 = some (2, 0xFFFFFFFF) ∧ ab (.ishRot 1 2 4) 0x80000001 0 = some (2, 0x18) := by decide +kernel
theorem test_integer_literals : ab (.iai 1 2 0x7FF) 5 0 = some (2, 4) ∧ ab (.lim 1 0x3FFFF) 0 0 = some (2, 0xFFFFFFFF) ∧
    ab (.lih 2 0x3FFFF) 0x3FFF 0 = none ∧ ab (.lih 1 0x20001) 0 0 = some (2, 0x80004000) := by decide +kernel

theorem test_float_add_mul : ab (.faAdd 1 2 3) 0x3F800000 0x40000000 = some (4, 0x40400000) ∧ ab (.faSub 1 2 3) 0x3F800000 0x3F800000 = some (4, 0) ∧
    ab (.faMul 1 2 3) 0x40400000 0xC0000000 = some (4, 0xC0C00000) ∧ ab (.faAdd 1 2 3) 0x7F800000 0xFF800000 = some (4, 0x7FC00000) := by decide +kernel
theorem test_float_fused : ab (.faFma 1 2 3) 0x40000000 0x40400000 = some (4, 0x40C00000) ∧ ab (.faFms 1 2 3) 0x40000000 0x40400000 = some (4, 0xC0C00000) := by decide +kernel
theorem test_float_order : ab (.faMin 1 2 3) 0x80000000 0 = some (4, 0x80000000) ∧ ab (.faMax 1 2 3) 0xBF800000 0x40000000 = some (4, 0x40000000) ∧
    ab (.faEq 1 2 3) 0x80000000 0 = some (4, 1) ∧ ab (.faLt 1 2 3) 0x7FC00000 0 = some (4, 0) ∧ ab (.faLe 1 2 3) 0x3F800000 0x3F800000 = some (4, 1) := by decide +kernel
theorem test_float_sign : ab (.faAbs 1 2) 0xBF800000 0 = some (4, 0x3F800000) ∧ ab (.faNeg 1 2) 0x3F800000 0 = some (4, 0xBF800000) := by decide +kernel
theorem test_packed : ab (.fhHadd 1 2 3) 0x3C003C00 0x40003C00 = some (4, 0x42004000) ∧ ab (.fhHmul 1 2 3) 0x40004000 0x3C00BC00 = some (4, 0x4000C000) ∧
    ab (.fhHmin 1 2 3) 0x3C00C000 0x40003C00 = some (4, 0x3C00C000) ∧ ab (.fhHmax 1 2 3) 0x3C00C000 0x40003C00 = some (4, 0x40003C00) ∧
    ab (.fhBadd 1 2 3) 0x3F803F80 0x40003F80 = some (4, 0x40404000) ∧ ab (.fhBmul 1 2 3) 0x40003F80 0x40004000 = some (4, 0x40804000) ∧
    ab (.fhBmin 1 2 3) 0x3F80C000 0x40003F80 = some (4, 0x3F80C000) ∧ ab (.fhBmax 1 2 3) 0x3F80C000 0x40003F80 = some (4, 0x40003F80) ∧
    ab (.fhHfma 1 2 3) 0x40004000 0x3C004000 = some (4, 0x40004400) ∧ ab (.fhBfma 1 2 3) 0x40004000 0x3F804000 = some (4, 0x40004080) := by decide +kernel
theorem test_conversions : ab (.fcF32i 1 2) 0xC0200000 0 = some (4, 0xFFFFFFFE) ∧ ab (.fcF32n 1 2) 0xBF800000 0 = some (4, 0) ∧
    ab (.fcIf32 1 2) 0xFFFFFFFF 0 = some (4, 0xBF800000) ∧ ab (.fcNf32 1 2) 0xFFFFFFFF 0 = some (4, 0x4F800000) ∧
    ab (.fcH16f32 1 2 1) 0x3C000000 0 = some (4, 0x3F800000) ∧ ab (.fcBf16f32 1 2 0) 0x00003F80 0 = some (4, 0x3F800000) ∧
    ab (.fcF32h16 1 2 1) 0x3F800000 0 = some (4, 0x3C000000) ∧ ab (.fcF32bf16 1 2 0) 0x3F800000 0 = some (4, 0x3F80) := by decide +kernel
theorem test_functions : ab (.fxRcp 1 2) 0x40000000 0 = some (8, 0x3F000000) ∧ ab (.fxSqrt 1 2) 0x40800000 0 = some (8, 0x40000000) ∧
    ab (.fxRsqrt 1 2) 0x40800000 0 = some (8, 0x3F000000) ∧ ab (.fxCeil 1 2) 0x3FC00000 0 = some (4, 0x40000000) ∧
    ab (.fxFloor 1 2) 0xBFC00000 0 = some (4, 0xC0000000) ∧ ab (.fxLdexp 1 2 3) 0x3F800000 3 = some (4, 0x41000000) := by decide +kernel
theorem test_functions_exact : ab (.fxExp2 1 2) 0x40400000 0 = some (8, 0x41000000) ∧ ab (.fxLog2 1 2) 0x41000000 0 = some (8, 0x40400000) ∧
    ab (.fxSinpi 1 2) 0x3F000000 0 = some (8, 0x3F800000) ∧ ab (.fxCospi 1 2) 0x3F800000 0 = some (8, 0xBF800000) ∧ ab (.fxTanh 1 2) 0x7F800000 0 = some (8, 0x3F800000) ∧
    ab (.fxXexp 1 2) 0x41000000 0 = some (4, 3) := by decide +kernel

/-! The claims' hypotheses: a state that meets them, for each claim and each of its clauses. -/

theorem and2 {a b : Bool} (h : (a && b) = true) : a = true ∧ b = true := by simpa using h

/-- The issue in progress is `i`'s, clean, and `p` holds of its group and unit. -/
def laneWith (s : State) (i : Instr) (ts : List Nat) (p : Group → DUnit → Bool) : Bool :=
  match groupOf s s.iss.uid 0, unitOf s s.iss.uid with
  | some x, some u => decide (s.iss.sets = [(0, ts)]) && !ts.isEmpty && ts.all (fun t => (nameConds x t (s.iss.off / 4) s.iss.spar i).isEmpty) && p x u
  | _, _ => false

theorem laneWith_issue {s : State} {i : Instr} {ts : List Nat} {p : Group → DUnit → Bool} (h : laneWith s i ts p = true) :
    ∃ x u, LaneIssue s i 0 x ts ∧ unitOf s s.iss.uid = some u ∧ p x u = true := by
  unfold laneWith at h
  split at h
  · next x u hx hu =>
    simp only [Bool.and_eq_true, decide_eq_true_eq, List.all_eq_true, List.isEmpty_iff] at h
    have k := h.1.1.1
    exact ⟨x, u, ⟨by rw [k]; exact List.mem_singleton.mpr rfl, by rw [k]; exact List.nodup_singleton 0, .inl k, hx, by rintro rfl; simp at h, h.1.2⟩, hu, h.2⟩
  · cases h

/-- The issue in progress is the group-set word `i`'s, clean, and `p` holds of its group and unit. -/
def groupWith (s : State) (i : Instr) (p : Group → DUnit → Bool) : Bool :=
  match groupOf s s.iss.uid 0, unitOf s s.iss.uid, s.iss.sets with
  | some x, some u, [(0, _)] => (liveTids x).all (fun t => (nameConds x t (s.iss.off / 4) s.iss.spar i).isEmpty) && p x u
  | _, _, _ => false

theorem groupWith_issue {s : State} {i : Instr} {p : Group → DUnit → Bool} (h : groupWith s i p = true) :
    ∃ x u, GroupIssue s i 0 x ∧ unitOf s s.iss.uid = some u ∧ p x u = true := by
  unfold groupWith at h
  split at h
  · next x u ts hx hu hs =>
    simp only [Bool.and_eq_true, List.all_eq_true, List.isEmpty_iff] at h
    exact ⟨x, u, ⟨⟨ts, hs⟩, hx, h.1⟩, hu, h.2⟩
  · cases h

/-- A clean issue of a lane word that a table lists. -/
theorem listed {op : Instr → LaneOp → Prop} {i : Instr} {o : LaneOp} (k : op i o) (h : laneWith (issuing i) i octet (fun _ _ => true) = true) :
    ∃ s i o g x ts, op i o ∧ LaneIssue s i g x ts :=
  let ⟨x, _, l, _⟩ := laneWith_issue h
  ⟨_, i, o, 0, x, octet, k, l⟩

/-- The unit has a second group like the first, and the issue is of both. -/
def paired (s : State) : State :=
  { modUnit s 1 (fun u => { u with groups := u.groups ++ u.groups.map (fun x => { x with gidx := 1 }) }) with iss := { s.iss with sets := [(0, octet), (1, octet)] } }

theorem witness_IntegerWordResults : (∃ s i o g x ts, IntOp i o ∧ LaneIssue s i g x ts) ∧
    ∃ s i o x ts, IntOp i o ∧ LaneIssue s i 1 x ts ∧ s.iss.sets.length = 2 := by
  refine ⟨listed (.iaSub 127 0 127) (by decide +kernel), ?_⟩
  have h : (match groupOf (paired (issuing (.iaSub 127 0 127))) 1 1 with
    | some x => octet.all (fun t => (nameConds x t 0 noSpar (.iaSub 127 0 127)).isEmpty) && x.names.all (fun m => slotState (paired (issuing (.iaSub 127 0 127))) x.core m.owner != 2)
    | none => false) = true := by decide +kernel
  split at h
  · next x hx =>
    obtain ⟨h1, h2⟩ := and2 h
    exact ⟨paired (issuing (.iaSub 127 0 127)), .iaSub 127 0 127, _, x, octet, .iaSub 127 0 127, ⟨by decide, by decide, .inr (fun m k => by simpa using List.all_eq_true.mp h2 m k), hx, by decide,
      fun t k => List.isEmpty_iff.mp (List.all_eq_true.mp h1 t k)⟩, by decide⟩
  · cases h

theorem test_two_groups : (sent (.iaSub 1 2 3) (paired (issuing (.iaSub 1 2 3)))).map (fun p => (p.due, p.vals.length)) = [(2, 8), (2, 8)] := by decide +kernel
theorem witness_FloatWordResults : ∃ s i o g x ts, FloatOp i o ∧ LaneIssue s i g x ts := listed (.faFma 127 0 127) (by decide +kernel)
theorem witness_PackedWordResults : ∃ s i o g x ts, PackedOp i o ∧ LaneIssue s i g x ts := listed (.fhBfma 127 0 127) (by decide +kernel)
theorem witness_ConversionWordResults : ∃ s i o g x ts, ConvOp i o ∧ LaneIssue s i g x ts := listed (.fcF32lt8 127 0 3) (by decide +kernel)
theorem witness_FunctionWordResults : ∃ s i o g x ts, FunOp i o ∧ LaneIssue s i g x ts := listed (.fxLdexp 127 0 127) (by decide +kernel)

theorem witness_SelectAndIdentityWordResults : (∃ s i o g x ts, SelOp i o ∧ LaneIssue s i g x ts) ∧
    ∃ (s : State) (d b : BitVec 7) (g : Nat) (x : Group) (ts : List Nat) (u : DUnit) (v : Nat → Nat), LaneIssue s (.sr d b) g x ts ∧ unitOf s s.iss.uid = some u ∧ ∀ k ∈ ts, SrSel s u x k b.toNat (v k) :=
  ⟨listed (.sel 127 0 127) (by decide +kernel),
    let ⟨x, u, l, h, _⟩ := laneWith_issue (s := issuing (.sr 1 12)) (i := .sr 1 12) (ts := octet) (p := fun _ _ => true) (by decide +kernel)
    ⟨_, 1, 12, 0, x, octet, u, _, l, h, fun _ _ => .timeHigh⟩⟩

theorem witness_CrossLaneWordResults : ∃ s i d a b f g x ts, XlOp i d a b f ∧ LaneIssue s i g x ts :=
  let ⟨x, _, l, _⟩ := laneWith_issue (s := issuing (.xlShfl 1 2 3)) (i := .xlShfl 1 2 3) (ts := octet) (p := fun _ _ => true) (by decide +kernel)
  ⟨_, _, 1, 2, 3, _, 0, x, octet, .shfl 1 2 3, l⟩

/-- The permutation register `n` of the group set to words. -/
def perm (n : Nat) (ws : List Word) (s : State) : State :=
  onGroup (fun x => modName x .perm n (fun m => { m with entries := m.entries.map (fun e => { e with words := ws }) })) s

/-- A register of size code `c`, its switches straight but for switch 0 of stage 0. -/
def oneSwitch (c : Word) : List Word := 1 :: List.replicate 10 0 ++ [c]

theorem witness_PermuteLaneWordResults : ∃ s i d a b f g x ts, PlOp i d a b f ∧ LaneIssue s i g x ts ∧
    permSize (entryOf x .perm b.toNat 0).words = x.width ∧ permOk (entryOf x .perm b.toNat 0).words = true :=
  let ⟨x, _, l, _, h⟩ := laneWith_issue (s := perm 15 (oneSwitch 0) (issuing (.plApply 1 2 15))) (i := .plApply 1 2 15) (ts := octet)
    (p := fun x _ => permSize (entryOf x .perm 15 0).words == x.width && permOk (entryOf x .perm 15 0).words) (by decide +kernel)
  ⟨_, _, 1, 2, 15, _, 0, x, octet, .apply 1 2 15, l, by simp at h; exact h.1, by simp at h; exact h.2⟩

/-- The state with one name more, bound and full. -/
def alsoNamed (c : NClass) (n : Nat) (s : State) : State :=
  onGroup (fun x => { x with names := x.names ++ [givenName 40 (c, n)], kernel := { x.kernel with names := x.kernel.names ++ [⟨c, n, false, 0, [(0, 3)]⟩] } }) s

theorem witness_IndexedWordResults : (∃ s d a b g x ts, LaneIssue s (.ixRd d a b) g x ts) ∧ ∃ s d a b g x ts, LaneIssue s (.ixWr d a b) g x ts :=
  let ⟨x, _, l, _⟩ := laneWith_issue (s := alsoNamed .lane 2047 (lanes 2 (fun _ => 2044) (issuing (.ixRd 1 2 3)))) (i := .ixRd 1 2 3) (ts := octet)
    (p := fun _ _ => true) (by decide +kernel)
  let ⟨y, _, m, _⟩ := laneWith_issue (s := alsoNamed .lane 2047 (lanes 2 (fun _ => 2044) (issuing (.ixWr 1 2 3)))) (i := .ixWr 1 2 3) (ts := octet)
    (p := fun _ _ => true) (by decide +kernel)
  ⟨⟨_, 1, 2, 3, 0, x, octet, l⟩, ⟨_, 1, 2, 3, 0, y, octet, m⟩⟩

/-- Where the threads of the group stand after a word. -/
def stand (i : Instr) (s : State) : List Nat := ((after i s).bind (fun t => groupOf t 1 0)).elim [] (fun x => x.threads.map (fun h => h.off))

theorem test_cross_lane : sent (.xlScan 1 2) (lanes 2 (fun k => BitVec.ofNat 32 (k + 1)) (issuing (.xlScan 1 2))) =
      [⟨.lane, 6, [(0, 1, [0]), (1, 1, [1]), (2, 1, [3]), (3, 1, [6]), (4, 1, [10]), (5, 1, [15]), (6, 1, [21]), (7, 1, [28])]⟩] ∧
    sent (.xlBallotl 1 2) (lanes 2 (fun k => BitVec.ofNat 32 (k % 2)) (issuing (.xlBallotl 1 2))) = [⟨.lane, 6, octet.map (fun k => (k, 1, [0xAA]))⟩] ∧
    sent (.xlShflx 1 2 3) (lanes 3 (fun _ => 1) (lanes 2 (fun k => BitVec.ofNat 32 k) (issuing (.xlShflx 1 2 3)))) =
      [⟨.lane, 6, [(0, 1, [1]), (1, 1, [0]), (2, 1, [3]), (3, 1, [2]), (4, 1, [5]), (5, 1, [4]), (6, 1, [7]), (7, 1, [6])]⟩] := by decide +kernel
theorem test_permute_lane : sent (.plIdx 1 0) (perm 0 (oneSwitch 0) (issuing (.plIdx 1 0))) =
    [⟨.lane, 6, [(0, 1, [1]), (1, 1, [0]), (2, 1, [2]), (3, 1, [3]), (4, 1, [4]), (5, 1, [5]), (6, 1, [6]), (7, 1, [7])]⟩] := by decide +kernel
theorem test_select : ab (.sel 1 2 3) 5 6 = some (2, 6) := by decide +kernel
theorem test_identity : sent (.sr 1 0) (issuing (.sr 1 0)) = [⟨.lane, 2, octet.map (fun k => (k, 1, [BitVec.ofNat 32 k]))⟩] := by decide +kernel
theorem test_indexed : sent (.ixWr 1 2 3) (alsoNamed .lane 7 (lanes 1 (fun k => BitVec.ofNat 32 (9 * k)) (lanes 2 (fun _ => 4) (issuing (.ixWr 1 2 3))))) =
    [⟨.lane, 2, octet.map (fun k => (k, 7, [BitVec.ofNat 32 (9 * k)]))⟩] := by decide +kernel
theorem test_branch : stand (.brz 2 3) (lanes 2 (fun k => BitVec.ofNat 32 (k % 2)) (issuing (.brz 2 3))) = [12, 4, 12, 4, 12, 4, 12, 4] ∧
    stand (.brnz 2 3) (lanes 2 (fun k => BitVec.ofNat 32 (k % 2)) (issuing (.brnz 2 3))) = [4, 12, 4, 12, 4, 12, 4, 12] := by decide +kernel
theorem test_jump : stand (.jmp 2) (issuing (.jmp 2)) = List.replicate 8 8 ∧ stand (.jmpLink 5 2) (issuing (.jmpLink 5 2)) = List.replicate 8 8 ∧
    sent (.jmpLink 5 2) (issuing (.jmpLink 5 2)) = [⟨.lane, 2, octet.map (fun k => (k, 5, [4]))⟩] ∧
    stand (.ctlJr 2) (lanes 2 (fun _ => 12) (issuing (.ctlJr 2))) = List.replicate 8 12 := by decide +kernel
theorem test_exit : ((after .ctlExit (issuing .ctlExit)).bind (fun t => groupOf t 1 0)).map (fun x => (x.ended, x.threads.map (fun h => h.exited))) =
    some (true, List.replicate 8 true) := by decide +kernel
theorem test_nop : stand .sysNop (issuing .sysNop) = List.replicate 8 4 ∧ stand (.sysBrk 0) (issuing (.sysBrk 0)) = List.replicate 8 4 := by decide +kernel

theorem witness_BranchAndJumpWords : (∃ s a off g x ts, LaneIssue s (.brz a off) g x ts ∧ ∀ k ∈ ts, laneVal x s.iss.spar.ax a k = 0 → Inside x (jumpTo s off)) ∧
    (∃ s a off g x ts, LaneIssue s (.brnz a off) g x ts ∧ ∀ k ∈ ts, laneVal x s.iss.spar.ax a k ≠ 0 → Inside x (jumpTo s off)) ∧
    (∃ s off g x ts, LaneIssue s (.jmp off) g x ts ∧ Inside x (jumpTo s off)) ∧
    (∃ s a off g x ts, a ≠ 0 ∧ LaneIssue s (.jmpLink a off) g x ts ∧ Inside x (jumpTo s off)) ∧
    ∃ s a g x ts, LaneIssue s (.ctlJr a) g x ts ∧ ∀ k ∈ ts, (laneVal x s.iss.spar.ax a k).toNat % 4 = 0 ∧ (laneVal x s.iss.spar.ax a k).toNat < 4 * x.kernel.nwords :=
  let ins := fun (off : BitVec 18) (x : Group) (_ : DUnit) => decide (0 ≤ jumpTo (issuing (.jmp off)) off) && decide (jumpTo (issuing (.jmp off)) off < 4 * x.kernel.nwords)
  let ⟨x1, _, l1, _, h1⟩ := laneWith_issue (s := issuing (.brz 2 3)) (i := .brz 2 3) (ts := octet) (p := ins 3) (by decide +kernel)
  let ⟨x2, _, l2, _, h2⟩ := laneWith_issue (s := lanes 2 (fun _ => 1) (issuing (.brnz 2 0))) (i := .brnz 2 0) (ts := octet) (p := ins 0) (by decide +kernel)
  let ⟨x3, _, l3, _, h3⟩ := laneWith_issue (s := issuing (.jmp 3)) (i := .jmp 3) (ts := octet) (p := ins 3) (by decide +kernel)
  let ⟨x4, _, l4, _, h4⟩ := laneWith_issue (s := issuing (.jmpLink 127 0)) (i := .jmpLink 127 0) (ts := octet) (p := ins 0) (by decide +kernel)
  let ⟨x5, _, l5, _, h5⟩ := laneWith_issue (s := lanes 2 (fun _ => 12) (issuing (.ctlJr 2))) (i := .ctlJr 2) (ts := octet)
    (p := fun x _ => octet.all (fun k => decide ((laneVal x 0 2 k).toNat % 4 = 0 ∧ (laneVal x 0 2 k).toNat < 4 * x.kernel.nwords))) (by decide +kernel)
  ⟨⟨_, 2, 3, 0, x1, octet, l1, fun _ _ _ => by simp [ins] at h1; exact ⟨h1.1, h1.2⟩⟩, ⟨_, 2, 0, 0, x2, octet, l2, fun _ _ _ => by simp [ins] at h2; exact ⟨h2.1, h2.2⟩⟩,
    ⟨_, 3, 0, x3, octet, l3, by simp [ins] at h3; exact ⟨h3.1, h3.2⟩⟩, ⟨_, 127, 0, 0, x4, octet, by decide, l4, by simp [ins] at h4; exact ⟨h4.1, h4.2⟩⟩,
    ⟨_, 2, 0, x5, octet, l5, fun k hk => of_decide_eq_true (List.all_eq_true.mp h5 k hk)⟩⟩

theorem witness_ExitWord : (∃ s g x ts, LaneIssue s .ctlExit g x ts ∧ ∀ h ∈ x.threads, h.exited = true ∨ h.tid ∈ ts) :=
  let ⟨x, _, l, _, h⟩ := laneWith_issue (s := issuing .ctlExit) (i := .ctlExit) (ts := octet) (p := fun x _ => x.threads.all (fun h => h.exited || octet.contains h.tid))
    (by decide +kernel)
  ⟨_, 0, x, octet, l, by simpa [List.all_eq_true] using h⟩

/-- The state with the register set. -/
def reg (r : Reg) (v : Nat) (s : State) : State := wrReg s r v

theorem witness_NopAndBreakWords : (∃ s g x ts, LaneIssue s .sysNop g x ts) ∧
    (∃ s b g x ts, LaneIssue s (.sysBrk b) g x ts ∧ bitN (rdReg s (.dbgctl x.core x.slot)) 63 = false) ∧
    ∃ s b g x ts u, LaneIssue s (.sysBrk b) g x ts ∧ unitOf s s.iss.uid = some u ∧ u.chk = false ∧ u.cancel = 0 ∧ x.ended = false ∧ x.dbg.mode = 0 ∧
      x.trap = none ∧ bitN (rdReg s (.dbgctl x.core x.slot)) 63 = true :=
  let ⟨x1, _, l1, _⟩ := laneWith_issue (s := issuing .sysNop) (i := .sysNop) (ts := octet) (p := fun _ _ => true) (by decide +kernel)
  let ⟨x2, _, l2, _, h2⟩ := laneWith_issue (s := issuing (.sysBrk 1)) (i := .sysBrk 1) (ts := octet)
    (p := fun x _ => !bitN (rdReg (issuing (.sysBrk 1)) (.dbgctl x.core x.slot)) 63) (by decide +kernel)
  let ⟨x3, u, l3, hu, h3⟩ := laneWith_issue (s := reg (.dbgctl 0 0) (2 ^ 63) (issuing (.sysBrk 1))) (i := .sysBrk 1) (ts := octet)
    (p := fun x u => decide (u.chk = false ∧ u.cancel = 0 ∧ x.ended = false ∧ x.dbg.mode = 0 ∧ x.trap = none ∧
      bitN (rdReg (reg (.dbgctl 0 0) (2 ^ 63) (issuing (.sysBrk 1))) (.dbgctl x.core x.slot)) 63 = true)) (by decide +kernel)
  ⟨⟨_, 0, x1, octet, l1⟩, ⟨_, 1, 0, x2, octet, l2, by simpa using h2⟩, ⟨_, 1, 0, x3, octet, u, l3, hu, of_decide_eq_true h3⟩⟩

theorem witness_TrapAndIllegalWords :
    (∃ s b g x ts u, LaneIssue s (.sysTrap b) g x ts ∧ unitOf s s.iss.uid = some u ∧ u.cancel = 0 ∧ x.trap = none ∧ (∀ h ∈ x.threads, h.inHandler = false) ∧
      (∀ k ∈ ts, (threadOf x k).isSome = true) ∧ ∃ h ∈ x.threads, h.exited = false) ∧
    ∃ s w g x ts u e, (g, ts) ∈ s.iss.sets ∧ (s.iss.sets.map (·.1)).Nodup ∧ groupOf s s.iss.uid g = some x ∧ ts ≠ [] ∧ sparBroken s = false ∧ decode (w : Word).toNat = .error e ∧
      unitOf s s.iss.uid = some u ∧ u.cancel = 0 ∧ x.trap = none ∧ (∀ h ∈ x.threads, h.inHandler = false) ∧
      ∀ k ∈ ts, (threadOf x k).any (fun h => !h.exited) = true :=
  let ⟨x, u, l, hu, h⟩ := laneWith_issue (s := issuing (.sysTrap 127)) (i := .sysTrap 127) (ts := octet)
    (p := fun x u => decide (u.cancel = 0 ∧ x.trap = none ∧ (∀ h ∈ x.threads, h.inHandler = false) ∧ (∀ k ∈ octet, (threadOf x k).isSome = true) ∧
      ∃ h ∈ x.threads, h.exited = false)) (by decide +kernel)
  let ⟨y, v, m, hv, k⟩ := laneWith_issue (s := issuing .sysNop) (i := .sysNop) (ts := octet)
    (p := fun x u => decide (u.cancel = 0 ∧ x.trap = none ∧ (∀ h ∈ x.threads, h.inHandler = false) ∧ ∀ k ∈ octet, (threadOf x k).any (fun h => !h.exited) = true))
    (by decide +kernel)
  ⟨⟨_, 127, 0, x, octet, u, l, hu, of_decide_eq_true h⟩,
    ⟨_, 0x30000000, 0, y, octet, v, .opUnused, m.sets, m.groups, m.group, m.present, by decide +kernel, by rfl, hv, of_decide_eq_true k⟩⟩

theorem test_trap : ((after (.sysTrap 5) (issuing (.sysTrap 5))).bind (fun t => groupOf t 1 0)).bind (fun x => x.trap.map (fun r => (r.cond.cause, r.cond.detail, r.fatal))) =
    some (7, 5, true) := by decide +kernel
theorem test_illegal : ((after (.illegalWord 0x30000000) (issuing .sysNop)).bind (fun t => groupOf t 1 0)).bind (fun x => x.trap.map (fun r => (r.cond.cause, r.cond.lmask))) =
    some (1, octet) := by decide +kernel
theorem test_spar : (after (.spar 1 2 3 4 1 0 5 2) (issuing .sysNop)).map (fun t => t.iss.spar) = some ⟨true, 1, 2, 3, 4, true, false, 5, 2⟩ := by decide +kernel

/-- An entry of a thread's queue: kind, order, scope, address, size, data. -/
structure Queued where
  kind : MemKind
  ord : Nat
  scope : Nat
  va : Nat
  size : Nat
  data : List Byte
deriving DecidableEq, Repr

/-- The entries of thread `k`'s queue after a word. -/
def queued (k : Nat) (i : Instr) (s : State) : List Queued :=
  (((after i s).bind (fun t => groupOf t 1 0)).bind (fun x => threadOf x k)).elim [] (fun h => h.tq.map (fun e => ⟨e.kind, e.ord, e.scope, e.va, e.size, e.data⟩))

theorem test_load : queued 7 (.ldB64 1 2 0x7F) (lanes 2 (fun k => BitVec.ofNat 32 (8 * k)) (issuing (.ldB64 1 2 0x7F))) = [⟨.load true, 0, 4, 48, 8, []⟩] := by decide +kernel
theorem test_store : queued 0 (.stB16 1 2 3) (lanes 1 (fun _ => 0x01020304) (issuing (.stB16 1 2 3))) = [⟨.store, 0, 4, 6, 2, [4, 3]⟩] := by decide +kernel
theorem test_atomic : queued 1 (.atCas 1 2 3) (lanes 1 (fun _ => 7) (lanes 3 (fun _ => 9) (lanes 2 (fun k => BitVec.ofNat 32 (0 * k)) (issuing (.atCas 1 2 3))))) =
    [⟨.atomic 9 9 7, 0, 4, 38654705664, 4, []⟩] := by decide +kernel

theorem witness_LoadWords : ∃ s i d a off size fn g x ts, LdOp i d a off size fn ∧ LaneIssue s i g x ts ∧ ts.Nodup ∧ ∀ l ∈ (coreOf s x.core).loads, l.id ≠ s.seq :=
  let ⟨x, _, l, _, h⟩ := laneWith_issue (s := issuing (.ldB128 124 0 0x40)) (i := .ldB128 124 0 0x40) (ts := octet)
    (p := fun x _ => decide (∀ l ∈ (coreOf (issuing (.ldB128 124 0 0x40)) x.core).loads, l.id ≠ (issuing (.ldB128 124 0 0x40)).seq)) (by decide +kernel)
  ⟨_, _, 124, 0, 0x40, 16, 6, 0, x, octet, .b128 124 0 0x40, l, by decide, of_decide_eq_true h⟩
theorem witness_StoreWords : ∃ s i d a off size g x ts, StOp i d a off size ∧ LaneIssue s i g x ts ∧ ts.Nodup :=
  let ⟨x, _, l, _⟩ := laneWith_issue (s := issuing (.stB128 124 0 0x40)) (i := .stB128 124 0 0x40) (ts := octet) (p := fun _ _ => true) (by decide +kernel)
  ⟨_, _, 124, 0, 0x40, 16, 0, x, octet, .b128 124 0 0x40, l, by decide⟩
theorem witness_AtomicWords : ∃ s i d a b fn g x ts, AtOp i d a b fn ∧ LaneIssue s i g x ts ∧ ts.Nodup ∧ ∀ l ∈ (coreOf s x.core).loads, l.id ≠ s.seq :=
  let ⟨x, _, l, _, h⟩ := laneWith_issue (s := issuing (.atFadd 1 2 4)) (i := .atFadd 1 2 4) (ts := octet)
    (p := fun x _ => decide (∀ l ∈ (coreOf (issuing (.atFadd 1 2 4)) x.core).loads, l.id ≠ (issuing (.atFadd 1 2 4)).seq)) (by decide +kernel)
  ⟨_, _, 1, 2, 4, 10, 0, x, octet, .fadd 1 2 4, l, by decide, of_decide_eq_true h⟩
theorem witness_UniformMemoryWords : (∃ s g x l, minOf (liveTids x) = some l ∧ (∀ r ∈ (coreOf s x.core).loads, r.id ≠ s.seq) ∧ GroupIssue s (.uldB32 1 2 0x40) g x) ∧
    (∃ s g x l, minOf (liveTids x) = some l ∧ (∀ r ∈ (coreOf s x.core).loads, r.id ≠ s.seq) ∧ GroupIssue s (.uldB64 126 2 0x40) g x) ∧
    ∃ s g x l, minOf (liveTids x) = some l ∧ (∀ r ∈ (coreOf s x.core).loads, r.id ≠ s.seq) ∧ GroupIssue s (.ustB32 1 2 0x40) g x :=
  let p := fun (i : Instr) (x : Group) (_ : DUnit) => decide (minOf (liveTids x) = some 0 ∧ ∀ r ∈ (coreOf (issuing i) x.core).loads, r.id ≠ (issuing i).seq)
  let ⟨x, _, l, _, h⟩ := groupWith_issue (s := issuing (.uldB32 1 2 0x40)) (i := .uldB32 1 2 0x40) (p := p (.uldB32 1 2 0x40)) (by decide +kernel)
  let ⟨y, _, m, _, k⟩ := groupWith_issue (s := issuing (.uldB64 126 2 0x40)) (i := .uldB64 126 2 0x40) (p := p (.uldB64 126 2 0x40)) (by decide +kernel)
  let ⟨z, _, n, _, j⟩ := groupWith_issue (s := issuing (.ustB32 1 2 0x40)) (i := .ustB32 1 2 0x40) (p := p (.ustB32 1 2 0x40)) (by decide +kernel)
  ⟨⟨_, 0, x, 0, (of_decide_eq_true h).1, (of_decide_eq_true h).2, l⟩, ⟨_, 0, y, 0, (of_decide_eq_true k).1, (of_decide_eq_true k).2, m⟩,
    ⟨_, 0, z, 0, (of_decide_eq_true j).1, (of_decide_eq_true j).2, n⟩⟩

/-- A clean issue of the group-set word `i` in state `s`. -/
theorem grouped {i : Instr} {s : State} (h : groupWith s i (fun _ _ => true) = true) : ∃ s g x, GroupIssue s i g x :=
  let ⟨x, _, l, _⟩ := groupWith_issue h
  ⟨s, 0, x, l⟩

/-- What a uniform word of A and B sends, with the clock it is due. -/
def uab (i : Instr) (A B : Word) : Option (Nat × Word) :=
  match sent i (uni 3 B (uni 2 A (issuing i))) with
  | [⟨.uniform, due, [(0, 1, [v])]⟩] => some (due, v)
  | _ => none

theorem test_uniform : uab (.uaAdd 1 2 3) 0xFFFFFFFF 2 = some (2, 1) ∧ uab (.uaSub 1 2 3) 0 1 = some (2, 0xFFFFFFFF) ∧ uab (.uaMul 1 2 3) 0x10000 0x10001 = some (2, 0x10000) ∧
    uab (.uaShl 1 2 3) 1 32 = some (2, 0) ∧ uab (.uaShr 1 2 3) 0x80000000 31 = some (2, 1) ∧ uab (.uaMin 1 2 3) 0xFFFFFFFF 1 = some (2, 0xFFFFFFFF) ∧
    uab (.uaMinn 1 2 3) 0xFFFFFFFF 1 = some (2, 1) ∧ uab (.ucLt 1 2 3) 0x80000000 0 = some (2, 1) ∧ uab (.ucLtn 1 2 3) 0x80000000 0 = some (2, 0) := by decide +kernel
theorem test_uniform_literals : uab (.uai 1 2 0x7FF) 5 0 = some (2, 4) ∧ uab (.ulim 1 0x20000) 0 0 = some (2, 0xFFFE0000) ∧ uab (.ulih 1 0x3FFFF) 0 0 = some (2, 0xFFFFC000) := by
  decide +kernel
theorem test_uniform_branch : stand (.ubrz 2 3) (issuing (.ubrz 2 3)) = List.replicate 8 12 ∧ stand (.ubrnz 2 3) (issuing (.ubrnz 2 3)) = List.replicate 8 4 := by decide +kernel
theorem test_mode : uab (.modeRd 1) 0 0 = some (2, 1) ∧
    ((after (.modeWr 2) (uni 2 0xFFFFFFFF (issuing (.modeWr 2)))).bind (fun t => groupOf t 1 0)).map (fun x => x.fmode) = some 9 := by decide +kernel
theorem test_fence : queued 0 (.syncFence 5 2) (issuing (.syncFence 5 2)) = [⟨.fence, 2, 5, 0, 0, []⟩] := by decide +kernel
theorem test_wait : ((after (.syncOc 3 7) (issuing (.syncOc 3 7))).bind (fun t => groupOf t 1 0)).map (fun x => x.wait.kind) = some (.oc 3 7) := by decide +kernel

theorem witness_UniformWordResults : ∃ s i d a b f g x, UniOp i d a b f ∧ GroupIssue s i g x :=
  let ⟨x, _, l, _⟩ := groupWith_issue (s := issuing (.uaAdd 127 0 127)) (i := .uaAdd 127 0 127) (p := fun _ _ => true) (by decide +kernel)
  ⟨_, _, 127, 0, 127, _, 0, x, .add 127 0 127, l⟩

theorem witness_UniformBranchWords :
    (∃ s a off g x, GroupIssue s (.ubrz a off) g x ∧ (uniVal x s.iss.spar.ax a = 0 → Inside x (jumpTo s off)) ∧ uniVal x s.iss.spar.ax a = 0) ∧
    ∃ s a off g x, GroupIssue s (.ubrnz a off) g x ∧ (uniVal x s.iss.spar.ax a ≠ 0 → Inside x (jumpTo s off)) ∧ uniVal x s.iss.spar.ax a ≠ 0 :=
  let ⟨x, _, l, _, h⟩ := groupWith_issue (s := issuing (.ubrz 2 3)) (i := .ubrz 2 3)
    (p := fun x _ => decide (0 ≤ jumpTo (issuing (.ubrz 2 3)) 3 ∧ jumpTo (issuing (.ubrz 2 3)) 3 < 4 * x.kernel.nwords ∧ uniVal x 0 2 = 0)) (by decide +kernel)
  let ⟨y, _, m, _, k⟩ := groupWith_issue (s := uni 2 1 (issuing (.ubrnz 2 0))) (i := .ubrnz 2 0)
    (p := fun x _ => decide (0 ≤ jumpTo (uni 2 1 (issuing (.ubrnz 2 0))) 0 ∧ jumpTo (uni 2 1 (issuing (.ubrnz 2 0))) 0 < 4 * x.kernel.nwords ∧ uniVal x 0 2 ≠ 0)) (by decide +kernel)
  have h := of_decide_eq_true h
  have k := of_decide_eq_true k
  ⟨⟨_, 2, 3, 0, x, l, fun _ => ⟨h.1, h.2.1⟩, h.2.2⟩, ⟨_, 2, 0, 0, y, m, fun _ => ⟨k.1, k.2.1⟩, k.2.2⟩⟩

theorem witness_ModeAndCounterWords : (∃ s g x, GroupIssue s (.modeRd 1) g x) ∧ (∃ s g x, GroupIssue s (.modeWr 2) g x) ∧ (∃ s g x, GroupIssue s (.ctrRd 1 15) g x) ∧
    ∃ s g x, GroupIssue s (.ctrMark 2) g x ∧ (bitN (rdReg s (.sring x.core x.slot)) 124 = false ∨ bitN (rdReg s (.sring x.core x.slot)) 127 = false) :=
  let ⟨x, _, l, _, h⟩ := groupWith_issue (s := issuing (.ctrMark 2)) (i := .ctrMark 2)
    (p := fun x _ => decide (bitN (rdReg (issuing (.ctrMark 2)) (.sring x.core x.slot)) 124 = false)) (by decide +kernel)
  ⟨grouped (s := issuing (.modeRd 1)) (by decide +kernel), grouped (s := issuing (.modeWr 2)) (by decide +kernel), grouped (s := issuing (.ctrRd 1 15)) (by decide +kernel),
    ⟨_, 0, x, l, .inl (of_decide_eq_true h)⟩⟩

/-- The state with a reservation of the group in its partition. -/
def reserved (r : Rsv) (s : State) : State := modPart s 0 0 (fun p => { p with rsvs := p.rsvs ++ [r] })

/-- A reservation of slot 32: 8 KiB from KiB 184. -/
def lastRsv : Rsv := ⟨32, 184, 8, 1, 0, 0, 0, 0⟩

/-- The handle of `lastRsv`. -/
def lastHandle : Word := 0xB80820

/-- The state of an output-buffer word on `lastRsv`. -/
def withRsv (i : Instr) : State := reserved lastRsv (uni 2 lastHandle (issuing i))

/-- The group inside a gable call. -/
def inGable (s : State) : State := onGroup (fun x => { x with gstack := [⟨0, x.kernel, 4, 1, [], 0, 0, 0, 0, 0, 0, [], [], []⟩] }) s

theorem witness_WaitingWords : (∃ s i p k g x, WaitOp s x i p k ∧ p ∧ GroupIssue s i g x ∧ i = .syncOc 4 127) ∧ (∃ s i p k g x, WaitOp s x i p k ∧ p ∧ GroupIssue s i g x ∧ i = .obRel 2) ∧
    (∃ s i p k g x, WaitOp s x i p k ∧ p ∧ GroupIssue s i g x ∧ i = .obRec 2) ∧ (∃ s i p k g x, WaitOp s x i p k ∧ p ∧ GroupIssue s i g x ∧ i = .gateRet) ∧
    (∃ s i p k g x, WaitOp s x i p k ∧ p ∧ GroupIssue s i g x ∧ i = .syncDwait) ∧ (∃ s i p k g x, WaitOp s x i p k ∧ p ∧ GroupIssue s i g x ∧ i = .gateCall 2) ∧
    ∃ s a b g l x h, GroupIssue s (.syncMwait a b) g x ∧ minOf (liveTids x) = some l ∧ threadOf x l = some h :=
  let rel := fun (i : Instr) (x : Group) (_ : DUnit) => decide (lastRsv ∈ (partOf (coreOf (withRsv i) x.core) x.part).rsvs ∧ lastRsv.uid = (withRsv i).iss.uid ∧ lastRsv.g = x.gidx ∧
      (uniVal x (withRsv i).iss.spar.ax 2).toNat = lastRsv.start * 2 ^ 16 + lastRsv.size * 2 ^ 8 + lastRsv.slot)
  let ⟨x1, _, l1, _⟩ := groupWith_issue (s := issuing (.syncOc 4 127)) (i := .syncOc 4 127) (p := fun _ _ => true) (by decide +kernel)
  let ⟨x2, _, l2, _, h2⟩ := groupWith_issue (s := withRsv (.obRel 2)) (i := .obRel 2) (p := rel (.obRel 2)) (by decide +kernel)
  let ⟨x3, _, l3, _, h3⟩ := groupWith_issue (s := withRsv (.obRec 2)) (i := .obRec 2) (p := rel (.obRec 2)) (by decide +kernel)
  let ⟨x4, _, l4, _, h4⟩ := groupWith_issue (s := inGable (issuing .gateRet)) (i := .gateRet) (p := fun x _ => decide (x.gstack ≠ [])) (by decide +kernel)
  let ⟨x5, _, l5, _⟩ := groupWith_issue (s := issuing .syncDwait) (i := .syncDwait) (p := fun _ _ => true) (by decide +kernel)
  let ⟨x6, _, l6, _⟩ := groupWith_issue (s := issuing (.gateCall 2)) (i := .gateCall 2) (p := fun _ _ => true) (by decide +kernel)
  let ⟨x7, _, l7, _, h7⟩ := groupWith_issue (s := issuing (.syncMwait 2 4)) (i := .syncMwait 2 4) (p := fun x _ => decide (minOf (liveTids x) = some 0) && (threadOf x 0).isSome) (by decide +kernel)
  have h7 := and2 h7
  let ⟨t, ht⟩ := Option.isSome_iff_exists.mp h7.2
  ⟨⟨_, _, _, _, 0, x1, .oc 4 127, trivial, l1, rfl⟩, ⟨_, _, _, _, 0, x2, .obRel 2 lastRsv, of_decide_eq_true h2, l2, rfl⟩, ⟨_, _, _, _, 0, x3, .obRec 2 lastRsv, of_decide_eq_true h3, l3, rfl⟩,
    ⟨_, _, _, _, 0, x4, .gateRet, of_decide_eq_true h4, l4, rfl⟩, ⟨_, _, _, _, 0, x5, .dwait, trivial, l5, rfl⟩, ⟨_, _, _, _, 0, x6, .gateCall 2, trivial, l6, rfl⟩,
    ⟨_, 2, 4, 0, 0, x7, t, l7, of_decide_eq_true h7.1, ht⟩⟩

theorem witness_FenceAndBarrierWords : (∃ s g x, GroupIssue s (.syncFence 5 3) g x) ∧ (∃ s g x, GroupIssue s .syncTrig g x) ∧
    (∃ s g x u, unitOf s s.iss.uid = some u ∧ GroupIssue s (.syncBar 63) g x) ∧
    (∃ s g x u, unitOf s s.iss.uid = some u ∧ GroupIssue s (.syncArr 63) g x ∧ (u.chk = true ∧ ∃ b, u.bars.find? (fun b => b.num == (63 : BitVec 7).toNat) = some b ∧ b.zero = true)) ∧
    (∃ s g x u, unitOf s s.iss.uid = some u ∧ GroupIssue s (.syncArr 63) g x ∧ ¬(u.chk = true ∧ ∃ b, u.bars.find? (fun b => b.num == (63 : BitVec 7).toNat) = some b ∧ b.zero = true)) ∧
    (∃ s g x u, unitOf s s.iss.uid = some u ∧ GroupIssue s (.syncWt 63) g x ∧ ∃ a ∈ x.arrs, a.bar = 63) ∧
    ∃ s g x u, unitOf s s.iss.uid = some u ∧ GroupIssue s (.syncWt 63) g x ∧ ¬∃ a ∈ x.arrs, a.bar = 63 :=
  let arr := fun (s : State) => onGroup (fun x => { x with arrs := [⟨63, 1, none⟩] }) s
  let ⟨x1, u1, l1, h1, _⟩ := groupWith_issue (s := issuing (.syncBar 63)) (i := .syncBar 63) (p := fun _ _ => true) (by decide +kernel)
  let ⟨x2, u2, l2, h2, k2⟩ := groupWith_issue (s := modUnit (issuing (.syncArr 63)) 1 (fun u => { u with chk := true })) (i := .syncArr 63)
    (p := fun _ u => u.chk && decide (u.bars.find? (fun b => b.num == 63) = some ⟨63, 0, 0, 0, 1, true, [], []⟩)) (by decide +kernel)
  let ⟨x3, u3, l3, h3, k3⟩ := groupWith_issue (s := issuing (.syncArr 63)) (i := .syncArr 63) (p := fun _ u => !u.chk) (by decide +kernel)
  let ⟨x4, u4, l4, h4, k4⟩ := groupWith_issue (s := arr (issuing (.syncWt 63))) (i := .syncWt 63) (p := fun x _ => x.arrs.any (fun a => a.bar == 63)) (by decide +kernel)
  let ⟨x5, u5, l5, h5, k5⟩ := groupWith_issue (s := issuing (.syncWt 63)) (i := .syncWt 63) (p := fun x _ => decide (x.arrs = [])) (by decide +kernel)
  have k2 := and2 k2
  ⟨grouped (s := issuing (.syncFence 5 3)) (by decide +kernel), grouped (s := issuing .syncTrig) (by decide +kernel), ⟨_, 0, x1, u1, h1, l1⟩,
    ⟨_, 0, x2, u2, h2, l2, k2.1, _, of_decide_eq_true k2.2, rfl⟩, ⟨_, 0, x3, u3, h3, l3, fun h => by simp [h.1] at k3⟩,
    ⟨_, 0, x4, u4, h4, l4, by simpa [List.any_eq_true] using k4⟩, ⟨_, 0, x5, u5, h5, l5, by simp [of_decide_eq_true k5]⟩⟩

/-- The state whose unit has a buffer of 128 bytes at offset 0 on core 0. -/
def buffered (s : State) : State := modUnit s 1 (fun u => { u with bufs := [⟨0, 0, 0, 128⟩] })

theorem witness_EngineWords :
    (∃ s d a g x u, bitN (dpCpch (rdReg s (.dpart x.core x.slot))) (d : BitVec 7).toNat = true ∧ GroupIssue s (.engCopy d a) g x ∧ unitOf s s.iss.uid = some u ∧
      (uniVal x s.iss.spar.ax a).toNat % 32 = 0 ∧ InBuffer u x.core (uniVal x s.iss.spar.ax a).toNat 32 ∧ (coreOf s x.core).chans.length = 5) ∧
    (∃ s a g x u, GroupIssue s (.engQuant a) g x ∧ unitOf s s.iss.uid = some u ∧ (uniVal x s.iss.spar.ax a).toNat % 32 = 0 ∧
      InBuffer u x.core (uniVal x s.iss.spar.ax a).toNat 32 ∧ (coreOf s x.core).chans.length = 5) ∧
    (∃ s a g x u, GroupIssue s (.engPut a) g x ∧ unitOf s s.iss.uid = some u ∧ u.chk = false ∧ (uniVal x s.iss.spar.ax a).toNat % 64 = 0 ∧
      InBuffer u x.core (uniVal x s.iss.spar.ax a).toNat 64) ∧
    ∃ s a g x u, GroupIssue s (.engGet a) g x ∧ unitOf s s.iss.uid = some u ∧ u.chk = false ∧ (uniVal x s.iss.spar.ax a).toNat % 64 = 0 ∧
      InBuffer u x.core (uniVal x s.iss.spar.ax a).toNat 64 :=
  let at_ := fun (i : Instr) (off : Word) => buffered (uni 2 off (issuing i))
  let ok := fun (s : State) (off n : Nat) (x : Group) (u : DUnit) => decide (u.bufs = [⟨0, 0, 0, 128⟩] ∧ x.core = 0 ∧ u.chk = false ∧ (uniVal x s.iss.spar.ax 2).toNat = off ∧ off + n ≤ 128 ∧
    (coreOf s x.core).chans.length = 5 ∧ bitN (dpCpch (rdReg s (.dpart x.core x.slot))) 3 = true)
  let ⟨x1, u1, l1, h1, k1⟩ := groupWith_issue (s := at_ (.engCopy 3 2) 96) (i := .engCopy 3 2) (p := ok (at_ (.engCopy 3 2) 96) 96 32) (by decide +kernel)
  let ⟨x2, u2, l2, h2, k2⟩ := groupWith_issue (s := at_ (.engQuant 2) 96) (i := .engQuant 2) (p := ok (at_ (.engQuant 2) 96) 96 32) (by decide +kernel)
  let ⟨x3, u3, l3, h3, k3⟩ := groupWith_issue (s := at_ (.engPut 2) 64) (i := .engPut 2) (p := ok (at_ (.engPut 2) 64) 64 64) (by decide +kernel)
  let ⟨x4, u4, l4, h4, k4⟩ := groupWith_issue (s := at_ (.engGet 2) 64) (i := .engGet 2) (p := ok (at_ (.engGet 2) 64) 64 64) (by decide +kernel)
  have k1 := of_decide_eq_true k1
  have k2 := of_decide_eq_true k2
  have k3 := of_decide_eq_true k3
  have k4 := of_decide_eq_true k4
  have inb : ∀ {u : DUnit} {x : Group} {v n : Nat}, u.bufs = [⟨0, 0, 0, 128⟩] → x.core = 0 → v + n ≤ 128 → InBuffer u x.core v n := fun hb hc hv =>
    ⟨⟨0, 0, 0, 128⟩, by rw [hb]; exact List.mem_singleton.mpr rfl, hc.symm, Nat.zero_le _, by simpa using hv⟩
  ⟨⟨_, 3, 2, 0, x1, u1, k1.2.2.2.2.2.2, l1, h1, by rw [k1.2.2.2.1], inb k1.1 k1.2.1 (k1.2.2.2.1 ▸ k1.2.2.2.2.1), k1.2.2.2.2.2.1⟩,
    ⟨_, 2, 0, x2, u2, l2, h2, by rw [k2.2.2.2.1], inb k2.1 k2.2.1 (k2.2.2.2.1 ▸ k2.2.2.2.2.1), k2.2.2.2.2.2.1⟩,
    ⟨_, 2, 0, x3, u3, l3, h3, k3.2.2.1, by rw [k3.2.2.2.1], inb k3.1 k3.2.1 (k3.2.2.2.1 ▸ k3.2.2.2.2.1)⟩,
    ⟨_, 2, 0, x4, u4, l4, h4, k4.2.2.1, by rw [k4.2.2.2.1], inb k4.1 k4.2.1 (k4.2.2.2.1 ▸ k4.2.2.2.2.1)⟩⟩

theorem witness_SolverWords : ∃ s i dst g op x, SolverOp s x i dst op ∧ GroupIssue s i g x :=
  let ⟨x, _, l, _⟩ := groupWith_issue (s := issuing (.pmComp 15 0 15)) (i := .pmComp 15 0 15) (p := fun _ _ => true) (by decide +kernel)
  ⟨_, _, 15, 0, _, x, .comp 15 0 15, l⟩

theorem witness_DirectPermutationWords : (∃ s g x, GroupIssue s (.pmIdent 15 3) g x) ∧
    (∃ s g x, GroupIssue s (.pmInv 15 0) g x ∧ permOk (permVal x 0) = true) ∧ ∃ s g x, GroupIssue s (.pmCyc 1 15) g x ∧ permOk (permVal x 15) = true :=
  let ⟨x, _, l, _, h⟩ := groupWith_issue (s := perm 0 (oneSwitch 3) (issuing (.pmInv 15 0))) (i := .pmInv 15 0) (p := fun x _ => permOk (permVal x 0)) (by decide +kernel)
  let ⟨y, _, m, _, k⟩ := groupWith_issue (s := perm 15 (oneSwitch 0) (issuing (.pmCyc 1 15))) (i := .pmCyc 1 15) (p := fun x _ => permOk (permVal x 15)) (by decide +kernel)
  ⟨grouped (s := issuing (.pmIdent 15 3)) (by decide +kernel), ⟨_, 0, x, l, h⟩, ⟨_, 0, y, m, k⟩⟩

theorem witness_InverseByReversedStages : (∃ ws : List Word, ws.length = 12 ∧ permOk ws = true ∧ permSize ws = 8) ∧ (∃ ws : List Word, ws.length = 12 ∧ permOk ws = true ∧ permSize ws = 64) ∧
    ∃ (c : Nat) (m : List Nat), c = 3 ∧ c < 4 ∧ m.length = 8 * 2 ^ c ∧ m.Nodup ∧ (∀ v ∈ m, v < 8 * 2 ^ c) ∧ m[0]? = some 63 :=
  ⟨⟨oneSwitch 0, by decide⟩, ⟨oneSwitch 3, by decide⟩, ⟨3, (List.range 64).reverse, by decide +kernel⟩⟩

theorem test_solver_settings : permMap (permOf 0 [6, 3, 0, 7, 1, 5, 2, 4]) = [6, 3, 0, 7, 1, 5, 2, 4] := by decide +kernel

theorem test_permutation_words : sent (.pmIdent 4 2) (issuing (.pmIdent 4 2)) = [⟨.perm, 2, [(0, 4, List.replicate 11 0 ++ [2])]⟩] ∧
    uab (.pmCyc 1 0) 0 0 = some (4, 8) := by decide +kernel

theorem witness_ArrayWords : ∃ s i tile w op g x ts, ArrayOp s x ts i tile w op ∧ LaneIssue s i g x ts :=
  let ⟨x, _, l, _⟩ := laneWith_issue (s := issuing (.mxMcv 7 1 9)) (i := .mxMcv 7 1 9) (ts := octet) (p := fun _ _ => true) (by decide +kernel)
  ⟨_, _, 7, _, _, 0, x, octet, .mcv 7 1 9, l⟩

theorem witness_ReserveWord :
    (∃ s d a g k x n st, GroupIssue s (.obRsv d a) g x ∧ k = (uniVal x s.iss.spar.ax a).toNat ∧ 1 ≤ k ∧ k ≤ 192 ∧
      (((partOf (coreOf s x.core) x.part).rsvs.filter (fun r => r.owner == x.slot)).map (fun r => r.size)).sum + k ≤ dpObuf (rdReg s (.dpart x.core x.slot)) ∧
      SlotFree (partOf (coreOf s x.core) x.part).rsvs n ∧ (∀ m < n, ¬SlotFree (partOf (coreOf s x.core) x.part).rsvs m) ∧
      RunFree (partOf (coreOf s x.core) x.part).rsvs k st ∧ ∀ m < st, ¬RunFree (partOf (coreOf s x.core) x.part).rsvs k m) ∧
    ∃ s d a g k x, GroupIssue s (.obRsv d a) g x ∧ k = (uniVal x s.iss.spar.ax a).toNat ∧ 1 ≤ k ∧ k ≤ 192 ∧
      ¬(((partOf (coreOf s x.core) x.part).rsvs.filter (fun r => r.owner == x.slot)).map (fun r => r.size)).sum + k ≤ dpObuf (rdReg s (.dpart x.core x.slot)) :=
  let first : Rsv := ⟨1, 0, 1, 1, 0, 0, 0, 0⟩
  let s1 := reserved first (uni 2 191 (issuing (.obRsv 1 2)))
  let s2 := reserved first (uni 2 192 (issuing (.obRsv 1 2)))
  let p := fun (s : State) (v : Nat) (x : Group) (_ : DUnit) => decide (v = (uniVal x s.iss.spar.ax 2).toNat ∧ (partOf (coreOf s x.core) x.part).rsvs = [first] ∧ x.slot = 0 ∧
    dpObuf (rdReg s (.dpart x.core x.slot)) = 192)
  let ⟨x, _, l, _, h⟩ := groupWith_issue (s := s1) (i := .obRsv 1 2) (p := p s1 191) (by decide +kernel)
  let ⟨y, _, m, _, k⟩ := groupWith_issue (s := s2) (i := .obRsv 1 2) (p := p s2 192) (by decide +kernel)
  have h := of_decide_eq_true h
  have k := of_decide_eq_true k
  ⟨⟨s1, 1, 2, 0, 191, x, 2, 1, l, h.1, by decide, by decide, by rw [h.2.1, h.2.2.2, h.2.2.1]; decide, by rw [h.2.1]; exact ⟨by decide, by decide, by decide⟩,
      by rw [h.2.1]; intro m hm f; have h1 := f.1; have := f.2.2 first (List.mem_singleton.mpr rfl); exact this (by show 1 = m; omega),
      by rw [h.2.1]; exact ⟨by decide, by intro j _ r hr; rw [List.mem_singleton.mp hr]; rintro ⟨_, h2⟩; have : 1 + j < 0 + 1 := h2; omega⟩,
      by rw [h.2.1]; intro m hm f; exact f.2 0 (by decide) first (List.mem_singleton.mpr rfl) ⟨Nat.zero_le _, by show m + 0 < 0 + 1; omega⟩⟩,
    ⟨s2, 1, 2, 0, 192, y, m, k.1, by decide, by decide, by rw [k.2.1, k.2.2.2, k.2.2.1]; decide⟩⟩

theorem test_reserve : uab (.obRsv 1 2) 192 0 = some (2, 0xC001) ∧ uab (.obRsv 1 2) 193 0 = none := by decide +kernel

/-- The machine right after reset with one unit of eight threads on core 0. -/
def resting : State := State.reset.withFetchWord 32 0x1E200000

/-- The unit and its group, of which `p` holds. -/
def having (s : State) (p : DUnit → Group → Bool) : Bool :=
  match unitOf s 1, groupOf s 1 0 with
  | some u, some x => p u x
  | _, _ => false

theorem having_of {s : State} {p : DUnit → Group → Bool} (h : having s p = true) : ∃ u x, unitOf s 1 = some u ∧ groupOf s 1 0 = some x ∧ p u x = true := by
  unfold having at h
  split at h
  · next u x hu hx => exact ⟨u, x, hu, hx, h⟩
  · cases h

/-- The first byte of the core's scratchpad, as the unit addresses it. -/
def scratch : Nat := 255 * 2 ^ 48

/-- A queue entry of a kind at an address. -/
def entry (id : Nat) (k : MemKind) (va size : Nat) (data : List Byte) : TqEntry :=
  ⟨id, k, 0, 4, va, size, data, 50, 0, none, none, none, 0, 0, 0, 0, false, 0, [0], false⟩

/-- The state with thread 0's queue given. -/
def queue (l : List TqEntry) (s : State) : State := onGroup (fun x => modThread x 0 (fun h => { h with tq := l })) s

/-- The state with core 0 changed. -/
def core (f : Core → Core) (s : State) : State := modCore s 0 f

/-- The state with the unit changed. -/
def unit (f : DUnit → DUnit) (s : State) : State := modUnit s 1 f

/-- Entry `id` of thread 0 may take its step, and `p` holds of it. -/
def taking (s : State) (id : Nat) (p : DUnit → Group → Thread → TqEntry → Bool) : Bool :=
  having s (fun u x => (threadOf x 0).any (fun h => (h.tq.find? (fun e => e.id == id)).any (fun e =>
    e.parked.isNone && !tqHalted s u x && eligible s x h e && !lineWaits s x e && p u x h e)))

theorem taking_of {s : State} {id : Nat} {p : DUnit → Group → Thread → TqEntry → Bool} (h : taking s id p = true) :
    ∃ u x h e, MayTake s 1 0 0 id u x h e ∧ p u x h e = true := by
  obtain ⟨u, x, hu, hx, h⟩ := having_of h
  simp only [Option.any_eq_true, Bool.and_eq_true, Bool.not_eq_true', Option.isNone_iff_eq_none] at h
  obtain ⟨t, ht, e, he, ⟨⟨⟨hp, hg⟩, hl⟩, hw⟩, h⟩ := h
  exact ⟨u, x, t, e, ⟨hu, hx, ht, he, hp, hg, hl, hw⟩, h⟩

/-- Nothing is wrong with the memory. -/
def memGood (s : State) : Bool :=
  (List.range 8).all (fun d => decide (bitN (rdReg s (.injctl d)) 63 = false ∧ (dieOf s d).flips = [] ∧ (dieOf s d).stuck = [] ∧ (dieOf s d).swaps = [] ∧ (dieOf s d).xfers = []) &&
    (List.range 64).all (fun c => !chanFailed s d c) && (dieOf s d).coded.all (fun sec => decide (sec ∈ s.poison)))

theorem memGood_of {s : State} (h : memGood s = true) : MemoryGood s := by
  simp only [memGood, List.all_eq_true, List.mem_range, Bool.and_eq_true, decide_eq_true_eq, Bool.not_eq_true'] at h
  exact ⟨fun d hd => (h d hd).1.1, fun d hd c hc => (h d hd).1.2 c hc, fun d hd => (h d hd).2⟩

/-- A pooled store or atomic. -/
def pooled (id : Nat) (k : MemKind) (pa : Nat) (data : List Byte) (size : Nat) (path : Bool) : PoolEntry :=
  ⟨id, 1, 0, 0, k, scratch, pa, data, size, 0, 4, 50, path, false, false, 0, 0, 0, none⟩

theorem test_store_to_pool : (after (.storeToPool 1 0 0 9) (queue [entry 9 .store scratch 4 [1, 2, 3, 4]] resting)).map
    (fun t => (coreOf t 0).pool.map (fun p => (p.id, p.pa, p.data))) = some [(9, scratchPa 0 0, [1, 2, 3, 4])] := by decide +kernel
theorem test_store_performs : ((after (.performAtHome 0 9) (core (fun c => { c with pool := [pooled 9 .store (scratchPa 0 8) [1, 2, 3, 4] 4 true] }) resting)).map
    (fun t => (List.range 6).map (fun j => Memory.read t.mem (scratchPa 0 7 + j)))) = some [0, 1, 2, 3, 4, 0] := by decide +kernel
theorem test_atomic_performs : ((after (.performAtHome 0 9) (core (fun c => { c with pool := [pooled 9 (.atomic 0 5 0) (scratchPa 0 8) [] 4 true] }) resting)).map
    (fun t => (List.range 4).map (fun j => Memory.read t.mem (scratchPa 0 8 + j)))) = some [5, 0, 0, 0] := by decide +kernel
theorem test_load_satisfied : ((after (.loadSatisfy 1 0 0 9 []) (core (fun c => { c with loads := [⟨50, 1, false, 4, [3], [((0, 0), none, false)], false, 0⟩] })
    (queue [entry 9 (.load false) scratch 4 []] { resting with mem := Memory.writeAll resting.mem (scratchPa 0 0) [1, 2, 3, 4] }))).map
    (fun t => (coreOf t 0).loads.map (fun l => l.mem.map (fun m => m.2.1)))) = some [[some [0x04030201]]] := by decide +kernel

theorem witness_StoreTransitions :
    (∃ s uid g k id u x h e pa, MayTake s uid g k id u x h e ∧ e.kind.pools = true ∧ e.pooled = false ∧ drained s u x e = true ∧ lowerLaneWaits s u x e = false ∧ entryCheck s u x e = .ok pa ∧
      (bufferedPa u pa = true → e.kind = .store → (coreOf s x.core).cbuf + 1 ≤ 8192)) ∧
    (∃ s core id p, (coreOf s core).pool.find? (fun p => p.id == id) = some p ∧ p.onPath = false ∧ p.buffered = false ∧ p.after = none ∧
      ∀ q ∈ (coreOf s core).pool.takeWhile (fun q => q.id != id), q.onPath = false → overlap q.pa q.size p.pa p.size = false) ∧
    (∃ s core id p l, (coreOf s core).pool.find? (fun p => p.id == id) = some p ∧ p.onPath = false ∧ p.after = some l ∧ l ≠ [] ∧ (∀ q ∈ (coreOf s core).pool, q.id ∉ l) ∧
      ∀ q ∈ (coreOf s core).pool.takeWhile (fun q => q.id != id), q.onPath = false → overlap q.pa q.size p.pa p.size = false) ∧
    (∃ s core id p, (coreOf s core).pool.find? (fun p => p.id == id) = some p ∧ p.onPath = true ∧ MemoryGood s ∧
      (∀ q ∈ (coreOf s core).pool.takeWhile (fun q => q.id != id), overlap q.pa q.size p.pa p.size = false) ∧ p.kind = .store) ∧
    ∃ s core id p fn b e, (coreOf s core).pool.find? (fun p => p.id == id) = some p ∧ p.onPath = true ∧ MemoryGood s ∧
      (∀ q ∈ (coreOf s core).pool.takeWhile (fun q => q.id != id), overlap q.pa q.size p.pa p.size = false) ∧ p.kind = .atomic fn b e ∧ p.pa + 4 ≤ 2 ^ 52 ∧
      ∀ j < 4, (p.pa + j) / 64 ∉ s.poison :=
  let s := queue [entry 8 .store scratch 4 [0, 0, 0, 0], entry 9 .store (scratch + 4) 4 [1, 2, 3, 4]] resting
  let ⟨u, x, h, e, m, k⟩ := taking_of (s := s) (id := 9) (p := fun u x h e => e.kind.pools && !e.pooled && drained s u x e && !lowerLaneWaits s u x e &&
    (match entryCheck s u x e with | .ok pa => pa == scratchPa 0 4 | .error _ => false) && !bufferedPa u (scratchPa 0 4)) (by decide +kernel)
  let pool := fun l => core (fun c => { c with pool := l }) resting
  ⟨⟨s, 1, 0, 0, 9, u, x, h, e, scratchPa 0 4, m, by
      simp only [Bool.and_eq_true, Bool.not_eq_true'] at k
      obtain ⟨⟨⟨⟨⟨a, n⟩, b⟩, c⟩, d⟩, f⟩ := k
      refine ⟨a, n, b, c, ?_, fun g => by rw [f] at g; cases g⟩
      split at d
      · next q => rw [q, beq_iff_eq.mp d]
      · cases d⟩,
    ⟨pool [pooled 7 .store 0 [1] 1 false, pooled 9 .store 1 [2] 1 false], 0, 9, pooled 9 .store 1 [2] 1 false, by decide +kernel⟩,
    ⟨pool [pooled 7 .store 0 [1] 1 false, { pooled 9 .store 1 [2] 1 false with buffered := true, after := some [6] }], 0, 9,
      { pooled 9 .store 1 [2] 1 false with buffered := true, after := some [6] }, [6], by decide +kernel⟩,
    ⟨pool [pooled 7 .store 0 [1] 1 false, pooled 9 .store 1 [2] 1 true], 0, 9, pooled 9 .store 1 [2] 1 true, by decide +kernel, by decide, memGood_of (by decide +kernel), by decide +kernel⟩,
    ⟨pool [pooled 9 (.atomic 10 1 0) (2 ^ 52 - 4) [] 4 true], 0, 9, pooled 9 (.atomic 10 1 0) (2 ^ 52 - 4) [] 4 true, 10, 1, 0, by decide +kernel, by decide, memGood_of (by decide +kernel), by decide +kernel⟩⟩

/-- Two results of lane name 1 whose time has come. -/
def ripe : Pend := ⟨9, 1, 0, .lane, [(0, 1, [7]), (7, 1, [8])], 0⟩

/-- A load set of lane name 1: thread 0 has its value, thread 7's access was parked. -/
def halfLoaded : LoadSet := ⟨9, 1, false, 4, [1], [((0, 0), some [7], false), ((0, 7), none, true)], false, 0⟩

/-- The states in which they are due. -/
def ripeState : State := core (fun c => { c with pend := [ripe] }) (State.reset.withFetchWord 32 ((encode (.iaSub 1 2 3)).getD 0))

@[inherit_doc ripeState]
def loadedState : State := core (fun c => { c with loads := [halfLoaded], clk := 1 }) (State.reset.withFetchWord 32 ((encode (.iaSub 1 2 3)).getD 0))

/-- Lane name 1 is bound and thread `k`'s entry is held. -/
def bound1 (x : Group) (k : Nat) : Bool :=
  (nameOf x .lane 1).any (fun m => decide (m.res ≠ []) && decide (entIx .lane k < m.entries.length)) && (entryOf x .lane 1 k).held && !(entryOf x .lane 1 k).drop

theorem bound1_of {x : Group} {k : Nat} (h : bound1 x k = true) : Bound x .lane 1 k := by
  simp only [bound1, Bool.and_eq_true, Option.any_eq_true, decide_eq_true_eq, Bool.not_eq_true'] at h
  obtain ⟨⟨⟨m, hm, a, b⟩, c⟩, d⟩ := h
  exact ⟨⟨m, hm, a, b⟩, c, d⟩

theorem witness_ResultsArrive_result : ∃ s core id p x, (coreOf s core).pend.find? (fun p => p.id == id) = some p ∧ groupOf s p.uid p.g = some x ∧ p.due ≤ (coreOf s core).clk ∧
    nextWrite x p.cls (p.vals.map (fun v => (v.1, v.2.1))) id = true ∧ (p.vals.map (fun v => (entIx p.cls v.1, v.2.1))).Nodup ∧ ∀ v ∈ p.vals, Bound x p.cls v.2.1 v.1 := by
  obtain ⟨_, x, -, hx, h⟩ := having_of (s := ripeState) (p := fun _ x => nextWrite x ripe.cls (ripe.vals.map (fun v => (v.1, v.2.1))) 9 && (bound1 x 0 && bound1 x 7)) (by decide +kernel)
  have h2 := and2 (and2 h).2
  refine ⟨ripeState, 0, 9, ripe, x, by decide +kernel, hx, by decide +kernel, (and2 h).1, by decide +kernel, fun v hv => ?_⟩
  simp only [ripe, List.mem_cons, List.not_mem_nil, or_false] at hv
  rcases hv with rfl | rfl
  · exact bound1_of h2.1
  · exact bound1_of h2.2

theorem witness_ResultsArrive_load : ∃ s core l g x, (coreOf s core).loads.find? (fun r => r.id == l.id) = some l ∧ l.uniform = false ∧ loadReady s l = true ∧ l.last < clkOf s core ∧ l.dsts.Nodup ∧
    (l.mem.map (fun m => m.1)).Nodup ∧ groupOf s l.uid g = some x ∧ ∀ m ∈ l.mem, m.1.1 = g → m.2.1 ≠ none → ∀ n ∈ l.dsts, Bound x .lane n m.1.2 := by
  obtain ⟨_, x, -, hx, h⟩ := having_of (s := loadedState) (p := fun _ x => loadReady loadedState halfLoaded && bound1 x 0) (by decide +kernel)
  refine ⟨loadedState, 0, halfLoaded, 0, x, by decide +kernel, rfl, (and2 h).1, by decide +kernel, by decide +kernel, by decide +kernel, hx, fun m hm _ hn n hd => ?_⟩
  simp only [halfLoaded, List.mem_cons, List.not_mem_nil, or_false] at hm hd
  subst hd
  rcases hm with rfl | rfl
  · exact bound1_of (and2 h).2
  · simp at hn


/-- Three levels of tables, at PA 2048, 4096 and 8192 (R72): entry 254 leads to the second, 511 to the third, 511 maps a gibibyte at PA 0, writable and executable. -/
def tableCells : List Host.Cell := [(4080, 0x01), (4081, 0x10), (8184, 0x01), (8185, 0x20), (12280, 0x1B)]

/-- They map the last gibibyte below the apertures in address space 5. -/
def tabled : State := reg (.asroot 0 0) (2 ^ 63 + 2 ^ 41 * 5 + 1) { resting with mem := tableCells }

/-- The highest address that is walked. -/
def lastVa : Nat := 255 * 2 ^ 48 - 1

theorem test_walk : (match walk tabled 0 5 lastVa with | .ok e => decide (e = ⟨5, lastVa / 2 ^ 30, 30, 0, true, true⟩) | .error _ => false) = true ∧
    (match walk tabled 0 6 lastVa with | .error e => decide (e = (0x12, 5)) | .ok _ => false) = true ∧
    (match walk tabled 0 5 (lastVa - 2 ^ 30) with | .error e => decide (e = (0x12, 1)) | .ok _ => false) = true := by decide +kernel

theorem witness_LoadFenceAndRequest_walk : ∃ s core asid va e, MemoryGood s ∧ walk s (dieOfCore core) asid va = .ok e := by
  have h : (match walk tabled (dieOfCore 27) 5 lastVa with | .ok _ => true | .error _ => false) = true := by decide +kernel
  split at h
  · next e w => exact ⟨tabled, 27, 5, lastVa, e, memGood_of (by decide +kernel), w⟩
  · cases h

/-- What the claim asks of a load of thread 0 that reads from `pa`, in a state with the one load set `l`. -/
def loadOk (s : State) (l : LoadSet) (pa : Nat) (u : DUnit) (x : Group) (h : Thread) (e : TqEntry) (with_ : List Satisfied) : Bool :=
  (match entryCheck s u x e with | .ok a => a == pa | .error _ => false) &&
  decide (e.kind = .load false ∧ (∀ p ∈ (coreOf s x.core).pool, overlap p.pa p.size pa e.size = true → p.kind = .store) ∧
    (∀ j < e.size, newestStore s x.core 1 (pa + j) = none → (pa + j) / 64 ∉ s.poison ∧ cohOf s (pa + j) ≠ []) ∧
    (coreOf s x.core).loads.filter (fun r => r.id == e.set) = [l] ∧ satisfiedWith s u x h e pa = ⟨x, h, e, pa⟩ :: with_)

/-- What they say. -/
def LoadOk (s : State) (l : LoadSet) (pa : Nat) (u : DUnit) (x : Group) (h : Thread) (e : TqEntry) (with_ : List Satisfied) : Prop :=
  entryCheck s u x e = .ok pa ∧ e.kind = .load false ∧ (∀ p ∈ (coreOf s x.core).pool, overlap p.pa p.size pa e.size = true → p.kind = .store) ∧
    (∀ j < e.size, newestStore s x.core 1 (pa + j) = none → (pa + j) / 64 ∉ s.poison ∧ cohOf s (pa + j) ≠ []) ∧
    (coreOf s x.core).loads.filter (fun r => r.id == e.set) = [l] ∧ satisfiedWith s u x h e pa = ⟨x, h, e, pa⟩ :: with_

theorem loadOk_of {s : State} {l : LoadSet} {pa : Nat} {u : DUnit} {x : Group} {h : Thread} {e : TqEntry} {w : List Satisfied} (k : loadOk s l pa u x h e w = true) :
    LoadOk s l pa u x h e w := by
  obtain ⟨k1, k2⟩ := and2 k
  refine ⟨?_, of_decide_eq_true k2⟩
  split at k1
  · next q => rw [q, beq_iff_eq.mp k1]
  · cases k1

/-- A load set of two threads. -/
def pairSet : LoadSet := ⟨50, 1, false, 4, [3], [((0, 0), none, false), ((0, 1), none, false)], false, 0⟩

/-- Threads 0 and 1 have loads of one word at one place. -/
def pairState : State := core (fun c => { c with loads := [pairSet] })
  (onGroup (fun x => modThread x 1 (fun h => { h with tq := [{ entry 10 (.load false) (scratch + 4) 4 [] with lane := 2 }] })) (queue [entry 9 (.load false) (scratch + 4) 4 []] resting))

theorem witness_LoadFenceAndRequest_load :
    (∃ s u x h e l, MayTake s 1 0 0 9 u x h e ∧ MemoryGood s ∧ LoadOk s l (scratchPa 0 4) u x h e [] ∧ l.uid = 1 ∧ l.uniform = false ∧
      newestStore s x.core 1 (scratchPa 0 5) ≠ none ∧ newestStore s x.core 1 (scratchPa 0 7) = none) ∧
    ∃ s u x h e l h' e', MayTake s 1 0 0 9 u x h e ∧ MemoryGood s ∧ LoadOk s l (scratchPa 0 4) u x h e [⟨x, h', e', scratchPa 0 4⟩] ∧ l.uid = 1 ∧ l.uniform = false ∧
      threadOf x 1 = some h' ∧ e'.kind = .load false ∧ mayLoad s u ⟨x, h', e', scratchPa 0 4⟩ = true ∧
      ∀ j < e'.size, newestStore s x.core 1 (scratchPa 0 4 + j) = none → (scratchPa 0 4 + j) / 64 ∉ s.poison ∧ cohOf s (scratchPa 0 4 + j) ≠ [] := by
  let l : LoadSet := ⟨50, 1, false, 4, [3], [((0, 0), none, false)], false, 0⟩
  let s : State := core (fun c => { c with loads := [l], pool := [pooled 7 .store (scratchPa 0 4) [1, 2] 2 false] }) (queue [entry 9 (.load false) (scratch + 4) 4 []] resting)
  obtain ⟨u, x, h, e, m, k⟩ := taking_of (s := s) (id := 9) (p := fun u x h e => loadOk s l (scratchPa 0 4) u x h e [] &&
    decide (newestStore s x.core 1 (scratchPa 0 5) ≠ none ∧ newestStore s x.core 1 (scratchPa 0 7) = none)) (by decide +kernel)
  obtain ⟨v, y, i, f, n, j⟩ := taking_of (s := pairState) (id := 9) (p := fun u x h e => (threadOf x 1).any (fun h' => (h'.tq.head?).any (fun e' =>
    loadOk pairState pairSet (scratchPa 0 4) u x h e [⟨x, h', e', scratchPa 0 4⟩] && decide (e'.kind = .load false ∧ mayLoad pairState u ⟨x, h', e', scratchPa 0 4⟩ = true ∧
      ∀ j < e'.size, newestStore pairState x.core 1 (scratchPa 0 4 + j) = none → (scratchPa 0 4 + j) / 64 ∉ pairState.poison ∧ cohOf pairState (scratchPa 0 4 + j) ≠ [])))) (by decide +kernel)
  simp only [Option.any_eq_true] at j
  obtain ⟨h', hh, e', -, j⟩ := j
  exact ⟨⟨s, u, x, h, e, l, m, memGood_of (by decide +kernel), loadOk_of (and2 k).1, rfl, rfl, of_decide_eq_true (and2 k).2⟩,
    pairState, v, y, i, f, pairSet, h', e', n, memGood_of (by decide +kernel), loadOk_of (and2 j).1, rfl, rfl, hh, of_decide_eq_true (and2 j).2⟩

theorem witness_LoadFenceAndRequest_fence : ∃ s uid g k id u x h e, MayTake s uid g k id u x h e ∧ e.kind = .fence ∧ drained s u x e = true := by
  obtain ⟨u, x, h, e, m, k⟩ := taking_of (s := queue [{ entry 9 .fence 0 0 [] with ord := 3, scope := 5, snap := some [] }] resting) (id := 9)
    (p := fun u x _ e => drained (queue [{ entry 9 .fence 0 0 [] with ord := 3, scope := 5, snap := some [] }] resting) u x e && decide (e.kind = .fence)) (by decide +kernel)
  exact ⟨_, 1, 0, 0, 9, u, x, h, e, m, of_decide_eq_true (and2 k).2, (and2 k).1⟩

theorem witness_LoadFenceAndRequest_line : ∃ s core part line mask rest, (partOf (coreOf s core) part).lines = (line, mask) :: rest ∧
    (partOf (coreOf s core) part).portFree ≤ clkOf s core :=
  ⟨modPart resting 223 11 (fun p => { p with lines := [(7, 15)] }), 223, 11, 7, 15, [], by decide +kernel, by decide +kernel⟩

/-- The four scratchpad sectors of a line are on chip and take no miss-status entry; of a line of memory every sector that is not in the L1 takes one (R81). -/
theorem test_miss_entries : missSectors (reg (.domtab 0 0) (2 ^ 125 + 2 ^ 92 * 5) tabled) 0 0 5 (scratch / 256) 15 = [] ∧
    missSectors (reg (.domtab 0 0) (2 ^ 125 + 2 ^ 92 * 5) tabled) 0 0 5 (lastVa / 256) 5 = [2 ^ 24 - 4, 2 ^ 24 - 2] := by decide +kernel

theorem test_fence_acquires : ((after (.fenceRemove 1 0 0 9) (queue [{ entry 9 .fence 0 0 [] with ord := 1, scope := 5 }] { resting with coh := [(64, [(0, 0), (3, 1)])] })).bind
    (fun t => (groupOf t 1 0).bind (fun x => threadOf x 0))).map (fun h => (h.tq.length, h.floors)) = some (0, [(64, 1)]) ∧
    ((after (.fenceRemove 1 0 0 9) (onGroup (fun x => { x with arrs := [⟨3, 0, none⟩] }) (queue [{ entry 9 .fence 0 0 [] with ord := 2, scope := 1, snap := some [] }] resting))).bind
      (fun t => groupOf t 1 0)).map (fun x => x.arrs) = some [⟨3, 0, some (0, 2)⟩] := by decide +kernel

/-- The unit and the group may be released, and `p` holds of them. -/
theorem releasing_of {s : State} {p : DUnit → Group → Bool} (h : having s (fun u x => canRelease s u x && p u x) = true) :
    ∃ u x, MayRelease s 1 0 u x ∧ p u x = true := by
  obtain ⟨u, x, hu, hx, h⟩ := having_of h
  exact ⟨u, x, ⟨hu, hx, (and2 h).1⟩, (and2 h).2⟩

/-- The group waits. -/
def waiting (k : WaitKind) (s : State) : State := onGroup (fun x => { x with wait := ⟨k, 4, 0, false⟩ }) s

/-- A launch of domain 0. -/
def launch0 : Launch :=
  { dom := 0, lid := 3, pasid := 5, asid := 5, kind := 0, wcode := 0, prio := 0, kimg := 0, kidx := 0, usize := 8, ucnt := 1, spsz := 0, argb := 0, aff := 2 ^ 8 - 1
    astr := 0, spill := 0, shreq := 0, prods := [], nextUnit := 0, order := 3, checked := false, held := false, triggered := false, ended := 0, told := [] }

/-- The state with launches and levels. -/
def hub (f : Hub → Hub) (s : State) : State := { s with hub := f s.hub }

theorem test_dwait : ((after (.dwaitRelease 1 0) (waiting .dwait resting)).bind (fun t => groupOf t 1 0)).map (fun x => (x.wait.kind, x.threads.map (fun h => h.off))) =
    some (.none, List.replicate 8 4) := by decide +kernel
theorem test_barrier_completes : ((after (.barrierArrival 1 0 3) (onGroup (fun x => { x with arrs := [⟨3, 7, some (0, 2)⟩] }) (core (fun c => { c with clk := 2 })
    (unit (fun u => { u with bars := [⟨3, 0, 0, 0, 1, false, [], []⟩] }) resting)))).bind (fun t => unitOf t 1)).map (fun u => u.bars.map (fun b => (b.ph, b.cnt))) = some [(1, 0)] := by
  decide +kernel

theorem witness_Waits_dwait : ∃ s uid g u x, MayRelease s uid g u x ∧ x.wait.kind = .dwait ∧ u.prods ≠ [] ∧
    ∀ p ∈ u.prods, ∀ l, s.hub.launches.find? (fun l => l.order == p) = some l → l.triggered = true := by
  obtain ⟨u, x, m, h⟩ := releasing_of (s := hub (fun h => { h with launches := [{ launch0 with triggered := true }] }) (waiting .dwait (unit (fun u => { u with prods := [3] }) resting)))
    (p := fun u x => decide (x.wait.kind = .dwait ∧ u.prods = [3])) (by decide +kernel)
  obtain ⟨h, k⟩ := of_decide_eq_true h
  refine ⟨_, 1, 0, u, x, m, h, by simp [k], ?_⟩
  intro p hp l hl
  rw [k, List.mem_singleton] at hp
  subst hp
  cases hl
  rfl

theorem witness_Waits_oc : ∃ s uid g u x cls n, MayRelease s uid g u x ∧ x.wait.kind = .oc cls n ∧ (x.oc[cls]?).getD 0 ≤ n ∧ n = 127 := by
  obtain ⟨u, x, m, h⟩ := releasing_of (s := onGroup (fun x => { x with oc := [0, 0, 0, 0, 127] }) (waiting (.oc 4 127) resting))
    (p := fun _ x => decide (x.wait.kind = .oc 4 127 ∧ (x.oc[4]?).getD 0 ≤ 127)) (by decide +kernel)
  obtain ⟨h, k⟩ := of_decide_eq_true h
  exact ⟨_, 1, 0, u, x, 4, 127, m, h, k, rfl⟩

theorem witness_Waits_obRel : ∃ s uid g u x slot, MayRelease s uid g u x ∧ x.wait.kind = .obRel slot ∧ (x.oc[1]?).getD 0 = 0 := by
  obtain ⟨u, x, m, h⟩ := releasing_of (s := reserved lastRsv (waiting (.obRel 32) resting)) (p := fun _ x => decide (x.wait.kind = .obRel 32 ∧ (x.oc[1]?).getD 0 = 0)) (by decide +kernel)
  exact ⟨_, 1, 0, u, x, 32, m, of_decide_eq_true h⟩

theorem witness_Waits_obRec : ∃ s uid g u x slot w, MayRelease s uid g u x ∧ x.wait.kind = .obRec slot w ∧ (x.oc[1]?).getD 0 = 0 := by
  obtain ⟨u, x, m, h⟩ := releasing_of (s := reserved lastRsv (waiting (.obRec 32 6) resting)) (p := fun _ x => decide (x.wait.kind = .obRec 32 6 ∧ (x.oc[1]?).getD 0 = 0)) (by decide +kernel)
  exact ⟨_, 1, 0, u, x, 32, 6, m, of_decide_eq_true h⟩

theorem witness_Waits_mwait : (∃ s uid g u x va cmp l h, MayRelease s uid g u x ∧ x.wait.woken = true ∧ x.wait.kind = .mwait va cmp false ∧ minOf (liveTids x) = some l ∧ threadOf x l = some h) ∧
    ∃ s uid g u x va cmp l h, MayRelease s uid g u x ∧ x.wait.since + 65536 ≤ clkOf s x.core ∧ x.wait.kind = .mwait va cmp false ∧ minOf (liveTids x) = some l ∧ threadOf x l = some h := by
  have lead : ∀ {s : State} {q : Group → Bool}, having s (fun u x => canRelease s u x && (q x && decide (x.wait.kind = .mwait 8 1 false ∧ minOf (liveTids x) = some 0) && (threadOf x 0).isSome)) = true →
      ∃ u x h, MayRelease s 1 0 u x ∧ q x = true ∧ x.wait.kind = .mwait 8 1 false ∧ minOf (liveTids x) = some 0 ∧ threadOf x 0 = some h := fun h => by
    obtain ⟨u, x, m, h⟩ := releasing_of h
    obtain ⟨t, ht⟩ := Option.isSome_iff_exists.mp (and2 h).2
    exact ⟨u, x, t, m, (and2 (and2 h).1).1, (of_decide_eq_true (and2 (and2 h).1).2).1, (of_decide_eq_true (and2 (and2 h).1).2).2, ht⟩
  obtain ⟨u, x, t, m, a, b, c, d⟩ := lead (s := onGroup (fun x => { x with wait := ⟨.mwait 8 1 false, 4, 0, true⟩ }) resting) (q := fun x => x.wait.woken) (by decide +kernel)
  obtain ⟨v, y, r, n, e, f, g, k⟩ := lead (s := core (fun c => { c with clk := 65536 }) (waiting (.mwait 8 1 false) resting))
    (q := fun x => decide (x.wait.since + 65536 ≤ clkOf (core (fun c => { c with clk := 65536 }) (waiting (.mwait 8 1 false) resting)) x.core)) (by decide +kernel)
  exact ⟨⟨_, 1, 0, u, x, 8, 1, 0, t, m, a, b, c, d⟩, ⟨_, 1, 0, v, y, 8, 1, 0, r, n, of_decide_eq_true e, f, g, k⟩⟩

theorem witness_Arrival : ∃ s uid g u x n a b, unitOf s uid = some u ∧ groupOf s uid g = some x ∧ u.cancel = 0 ∧ u.rollPhase = 0 ∧ x.arrs.find? (fun a => a.bar == n) = some a ∧
    u.bars.find? (fun b => b.num == n) = some b ∧ (u.chk && b.zero) = false ∧ ∃ c n, a.due = some (c, n) ∧ n ≤ clkOf s c := by
  obtain ⟨u, x, hu, hx, h⟩ := having_of (s := onGroup (fun x => { x with arrs := [⟨63, 7, some (0, 2)⟩] }) (core (fun c => { c with clk := 2 })
      (unit (fun u => { u with bars := [⟨63, 0, 0, 0, 1, false, [], []⟩] }) resting)))
    (p := fun u x => decide (u.cancel = 0 ∧ u.rollPhase = 0 ∧ x.arrs.find? (fun a => a.bar == 63) = some ⟨63, 7, some (0, 2)⟩ ∧
      u.bars.find? (fun b => b.num == 63) = some ⟨63, 0, 0, 0, 1, false, [], []⟩ ∧ (u.chk && false) = false)) (by decide +kernel)
  obtain ⟨a, b, c, d, e⟩ := of_decide_eq_true h
  exact ⟨_, 1, 0, u, x, 63, _, _, hu, hx, a, b, c, d, e, 0, 2, rfl, by decide +kernel⟩

theorem witness_Trigger : ∃ s uid g u x, unitOf s uid = some u ∧ groupOf s uid g = some x ∧ 2 ≤ x.trigger ∧ fencesDone x (x.trigger - 2) = true := by
  obtain ⟨u, x, hu, hx, h⟩ := having_of (s := onGroup (fun x => { x with trigger := 2 }) resting) (p := fun _ x => decide (2 ≤ x.trigger ∧ fencesDone x (x.trigger - 2) = true)) (by decide +kernel)
  exact ⟨_, 1, 0, u, x, hu, hx, of_decide_eq_true h⟩

/-- A page of address space 5: the lowest of the gibibyte that `tabled` maps, and an image in it. -/
def lowVa : Nat := 255 * 2 ^ 48 - 2 ^ 30

/-- An image of one kernel of four words at PA 2^20, its bytes that are not 0: the header (R132), the four entries of its section table at byte 64
(R133), and its kernel table entry at byte 272 (R135), of 4 words, without handler, of every width, units of up to 8 threads. -/
def imageCells : List Host.Cell :=
  [(1048576, 0x4B), (1048577, 0x4A), (1048578, 0x4F), (1048580, 1), (1048584, 2), (1048586, 4), (1048592, 64), (1048600, 0x80), (1048601, 1),
   (1048640, 1), (1048645, 1), (1048649, 1), (1048656, 16), (1048672, 2), (1048676, 8), (1048680, 0x10), (1048681, 1), (1048688, 64),
   (1048704, 3), (1048708, 8), (1048712, 0x50), (1048713, 1), (1048736, 4), (1048740, 8), (1048744, 0x50), (1048745, 1),
   (1048856, 4), (1048860, 0xFF), (1048861, 0xFF), (1048862, 0xFF), (1048863, 0xFF), (1048864, 15), (1048868, 8)]

/-- The state with tables and the image in address space 5. -/
def imaged : State := { tabled with mem := tableCells ++ imageCells }

/-- A gable descriptor at PA 2^15, its bytes that are not 0: domain 1, FLAGS 1, kernel 0 of the image at 255 * 2^48 - 2^30 + 2^20, entry 2 (R193). -/
def gableCells : List Host.Cell := [(32768, 1), (32770, 1), (32778, 0x10), (32779, 0xC0), (32780, 0xFF), (32781, 0xFF), (32782, 0xFE), (32784, 2)]

/-- The group at a gable call of index 0, its fences done; the callee's domain 1 runs in slot 1. -/
def calling (size : Nat) : State :=
  waiting (.gateCall 0 9) (reg (.domtab 0 1) (2 ^ 125 + 2 ^ 112 + 2 ^ 92 * 5) (reg (.domtab 0 0) (2 ^ 125 + 2 ^ 42 * (2 ^ 15 + 2 ^ 9) + 2 ^ 32 * size)
    { tabled with mem := tableCells ++ gableCells ++ imageCells }))

theorem witness_GableCallsAndReturns_fences : (∃ s u x, MayRelease s 1 0 u x ∧ x.wait.kind = .gateCall 7 0 ∧ ∀ n ∈ x.oc, n = 0) ∧
    ∃ s u x, MayRelease s 1 0 u x ∧ x.wait.kind = .gateRet 0 ∧ ∀ n ∈ x.oc, n = 0 := by
  obtain ⟨u, x, m, h⟩ := releasing_of (s := waiting (.gateCall 7 0) resting) (p := fun _ x => decide (x.wait.kind = .gateCall 7 0 ∧ ∀ n ∈ x.oc, n = 0)) (by decide +kernel)
  obtain ⟨v, y, n, k⟩ := releasing_of (s := waiting (.gateRet 0) resting) (p := fun _ x => decide (x.wait.kind = .gateRet 0 ∧ ∀ n ∈ x.oc, n = 0)) (by decide +kernel)
  exact ⟨⟨_, u, x, m, of_decide_eq_true h⟩, ⟨_, v, y, n, of_decide_eq_true k⟩⟩

theorem witness_GableCallsAndReturns_absent : ∃ s u x n tag, MayRelease s 1 0 u x ∧ x.wait.kind = .gateCall n tag ∧ tag ≠ 0 ∧ fencesDone x tag = true ∧
    domGsize (rdReg s (.domtab x.core x.slot)) ≤ n ∧ x.trap = none ∧ (∀ h ∈ x.threads, h.inHandler = false) ∧ ∃ h ∈ x.threads, h.exited = false := by
  obtain ⟨u, x, m, h⟩ := releasing_of (s := calling 0) (p := fun _ x => decide (x.wait.kind = .gateCall 0 9 ∧ 9 ≠ 0 ∧ fencesDone x 9 = true ∧
    domGsize (rdReg (calling 0) (.domtab x.core x.slot)) ≤ 0 ∧ x.trap = none ∧ (∀ h ∈ x.threads, h.inHandler = false) ∧ ∃ h ∈ x.threads, h.exited = false)) (by decide +kernel)
  exact ⟨_, u, x, 0, 9, m, of_decide_eq_true h⟩

/-- A uniform name 1 of the caller that holds 7. -/
def carried : NameSt := ⟨.uniform, 1, [4], false, false, false, false, none, false, 0, true, 0, false, 0, [{ noEntry .uniform with words := [7], full := true, held := true }]⟩

/-- The bytes of the descriptor and of the image of a callee with two names. -/
def namedCells : List Host.Cell :=
  [(32768, 1), (32770, 1), (32778, 0x10), (32779, 0xc0), (32780, 0xff), (32781, 0xff), (32782, 0xfe), (32784, 2), (32788, 1), (32800, 2), (1048576, 0x4b),
   (1048577, 0x4a), (1048578, 0x4f), (1048580, 1), (1048584, 2), (1048586, 4), (1048592, 0x40), (1048600, 0x80), (1048601, 1), (1048640, 1), (1048645, 1),
   (1048649, 1), (1048656, 0x10), (1048672, 2), (1048676, 8), (1048680, 0x10), (1048681, 1), (1048688, 0x40), (1048704, 3), (1048708, 8), (1048712, 0x50),
   (1048713, 1), (1048720, 0x20), (1048736, 4), (1048740, 8), (1048744, 0x70), (1048745, 1), (1048752, 0x10), (1048856, 4), (1048860, 0xff),
   (1048861, 0xff), (1048862, 0xff), (1048863, 0xff), (1048864, 0xf), (1048868, 8), (1048876, 2), (1048912, 3), (1048918, 1), (1048928, 1), (1048930, 1),
   (1048934, 1), (1048936, 1), (1048948, 3), (1048952, 1), (1048956, 3)]

/-- The same call where the callee declares lane name 3, live in [0, 3], and uniform name 1, live in [1, 3], which the descriptor shares (RROWS 1, UMASK 2): the NAME
section takes 32 bytes at 336 and LIFE 16 at 368 (R136). The caller has uniform name 1; the callee's slot has one row of lane registers. -/
def callingNamed : State :=
  let s := reg (.dpart 0 1) 1 (onGroup (fun x => { x with names := [carried] }) (calling 1))
  { s with mem := tableCells ++ namedCells }

/-- All names of the callee fit. -/
def fits (s : State) (x : Group) (d : Gable) (k : Kernel) : Bool :=
  (List.range 64).all (fun n => !sharedIn d .lane n || (nameOf x .lane n).isSome) && (List.range 32).all (fun n => !sharedIn d .uniform n || (nameOf x .uniform n).isSome) &&
  decide ((∀ m ∈ x.names, sharedIn d m.cls m.num = true → ∃ e ∈ m.entries, e.held = true) ∧ (k.names.map (fun r => (r.cls, r.num))).Nodup ∧
    bindSize x.width .lane * ((declared k .lane).filter (fun r => !sharedIn d .lane r.num)).length ≤ rowsFor x d.rrows ∧
    ((declared k .uniform).filter (fun r => !sharedIn d .uniform r.num)).length ≤ d.runi ∧ (∀ h ∈ holders s x.core x.part .uniform, h.name.res.length = 1) ∧
    spilledOn s x.core ≤ 8192 ∧ (s.units.map (fun u => u.uid)).Nodup ∧ ∀ u ∈ s.units, (u.groups.map (fun y => y.gidx)).Nodup)

theorem fits_of {s : State} {x : Group} {d : Gable} {k : Kernel} (h : fits s x d k = true) : CalleeFits s x d k := by
  obtain ⟨h, c⟩ := and2 h
  obtain ⟨a, b⟩ := and2 h
  obtain ⟨c1, c2, c3, c4, c5, c6, c7⟩ := of_decide_eq_true c
  refine ⟨fun c n hs hn => ?_, c1, c2, c3, c4, c5, c6, c7⟩
  cases c
  · have k := List.all_eq_true.mp a n (List.mem_range.mpr (of_decide_eq_true (and2 hs).1))
    rw [hs, hn] at k
    cases k
  · have k := List.all_eq_true.mp b n (List.mem_range.mpr (of_decide_eq_true (and2 hs).1))
    rw [hs, hn] at k
    cases k
  · cases hs
  · cases hs

/-- The descriptor of the call. -/
def namedGable : Gable := ⟨1, 1, 0, lowVa + 2 ^ 20, 2, 1, 0, 0, 2, 0, 0, 0⟩

/-- Its kernel, from the table entry and the NAME and LIFE records of the image (R135, R136). -/
def namedKernel : Kernel := ⟨lowVa + 2 ^ 20, 0, 256, 4, 2 ^ 32 - 1, 15, false, 8, [⟨.lane, 3, false, 0, [(0, 3)]⟩, ⟨.uniform, 1, false, 0, [(1, 3)]⟩], [], [], []⟩

/-- The image, and its section table. -/
def namedImg : Img := ⟨0, 5, lowVa + 2 ^ 20⟩

@[inherit_doc namedImg]
def namedSects : List Sect := [⟨1, 0, 256, 256, 16, 0⟩, ⟨2, 0, 8, 272, 64, 0⟩, ⟨3, 0, 8, 336, 32, 0⟩, ⟨4, 0, 8, 368, 16, 0⟩]

theorem named_sections : sections callingNamed namedImg = namedSects := by decide +kernel
theorem named_header : headerOk callingNamed namedImg = true := by decide +kernel
theorem named_entry : (imgFld callingNamed namedImg 24 8 = 384 ∧ imgFld callingNamed namedImg 16 8 = 64) ∧ entryOk callingNamed namedImg namedSects 0 = true := by decide +kernel
theorem named_records : recordsOk callingNamed namedImg namedSects = true := by decide +kernel
theorem named_kernel : readKernel callingNamed namedImg namedSects 0 = namedKernel := by decide +kernel

theorem named_loads : loadKernel callingNamed namedImg 0 = some namedKernel := by
  unfold loadKernel
  dsimp only
  rw [named_sections, named_kernel, named_header, named_entry.1.1, named_entry.1.2, named_entry.2, named_records]
  decide +kernel

/-- What the call is checked for beside the image. -/
def namedRest (x : Group) : Bool :=
  decide (x.core = 0 ∧ domAsid (rdReg callingNamed (.domtab 0 1)) = 5 ∧ ¬0 ≥ domGsize (rdReg callingNamed (.domtab x.core x.slot)) ∧ slotOfDom callingNamed x.core 1 = some 1 ∧
    bitN namedKernel.widths (gableCheck.widthIx x.width) = true ∧ ¬(rowsFor x namedGable.rrows > quotaOf (rdReg callingNamed (.dpart x.core 1)) .lane ∨ namedGable.runi > quotaOf (rdReg callingNamed (.dpart x.core 1)) .uniform) ∧
    ¬x.gstack.length ≥ 4)

theorem named_check {x : Group} (h : namedRest x = true) : gableCheck callingNamed x 0 namedGable = .ok (1, namedKernel) := by
  obtain ⟨a, b, c, d, e, f, g⟩ := of_decide_eq_true h
  unfold gableCheck
  rw [if_neg c, if_neg (by decide +kernel), show namedGable.tdom = 1 from rfl, d]
  dsimp only
  rw [show (⟨dieOfCore x.core, domAsid (rdReg callingNamed (.domtab x.core 1)), namedGable.kimg⟩ : Img) = namedImg from by rw [a, b]; rfl, show namedGable.kidx = 0 from rfl, named_loads]
  dsimp only
  rw [if_neg (by rw [e]; decide), if_neg f, if_neg g]

theorem witness_GableCallsAndReturns_entry : ∃ s u x n tag pa d sl k, MayRelease s 1 0 u x ∧ resultsDue s 1 0 x.core = false ∧ x.wait.kind = .gateCall n tag ∧ tag ≠ 0 ∧ fencesDone x tag = true ∧
    n < domGsize (rdReg s (.domtab x.core x.slot)) ∧ memCheck s x.core x.asid .engRead false (domGbase (rdReg s (.domtab x.core x.slot)) + 64 * n) 64 = .ok pa ∧
    d = gableOf (homeRead s pa 64) ∧ gableCheck s x n d = .ok (sl, k) ∧ gableRoom s x d sl = true ∧ CalleeFits s x d k ∧ sharedIn d .uniform 1 = true ∧
    k.names = [⟨.lane, 3, false, 0, [(0, 3)]⟩, ⟨.uniform, 1, false, 0, [(1, 3)]⟩] := by
  obtain ⟨u, x, m, h⟩ := releasing_of (s := callingNamed) (p := fun _ x => decide (x.wait.kind = .gateCall 0 9 ∧ fencesDone x 9 = true ∧ 0 < domGsize (rdReg callingNamed (.domtab x.core x.slot)) ∧
      resultsDue callingNamed 1 0 x.core = false) &&
    (match memCheck callingNamed x.core x.asid .engRead false (domGbase (rdReg callingNamed (.domtab x.core x.slot)) + 64 * 0) 64 with | .ok pa => pa == 2 ^ 15 | .error _ => false) &&
    namedRest x && fits callingNamed x namedGable namedKernel && gableRoom callingNamed x namedGable 1) (by decide +kernel)
  obtain ⟨h, hr⟩ := and2 h
  obtain ⟨h, hf⟩ := and2 h
  obtain ⟨h, hg⟩ := and2 h
  obtain ⟨h, hm⟩ := and2 h
  obtain ⟨a, b, c, d⟩ := of_decide_eq_true h
  split at hm
  · next pa q =>
    rw [beq_iff_eq.mp hm] at q
    exact ⟨_, u, x, 0, 9, 2 ^ 15, namedGable, 1, namedKernel, m, d, a, by decide, b, c, q, by decide +kernel, named_check hg, hr, fits_of hf, by decide +kernel, rfl⟩
  · cases hm

theorem witness_GableCallsAndReturns_return : ∃ s u x tag f rest, MayRelease s 1 0 u x ∧ x.wait.kind = .gateRet tag ∧ tag ≠ 0 ∧ x.wait.woken = false ∧ fencesDone x tag = true ∧
    x.gstack = f :: rest ∧ slotRuns s x.core f.slot = true := by
  obtain ⟨u, x, m, h⟩ := releasing_of (s := inGable (waiting (.gateRet 9) resting)) (p := fun _ x => decide (x.wait.kind = .gateRet 9 ∧ x.wait.woken = false ∧ fencesDone x 9 = true) &&
    (match x.gstack with | f :: _ => slotRuns (inGable (waiting (.gateRet 9) resting)) x.core f.slot | [] => false)) (by decide +kernel)
  obtain ⟨a, b, c⟩ := of_decide_eq_true (and2 h).1
  have h := (and2 h).2
  split at h
  · next f rest e => exact ⟨_, u, x, 9, f, rest, m, a, by decide, b, c, e, h⟩
  · cases h


/-- A condition of cause 7 (`sys.trap`) with all eight threads. -/
def cond7 : Cond := ⟨7, 1, .sync, 0, 0, 0x30A00001, 0, false, false, octet, octet, [], 0, 0, 0, false⟩

/-- The slot has a frame area whose first frame is at VA 2^21, and core 0 is at clock 9. -/
def framed (s : State) : State := reg (.tframe 0 0) (2 ^ 127 + 2 ^ 64) (core (fun c => { c with clk := 9 }) s)

/-- The group takes a trap. -/
def trapped (r : Trap) (s : State) : State := onGroup (fun x => { x with trap := some r }) s

theorem test_frame_then_handler :
    (((after (.trapFrameWrite 1 0) (framed (trapped ⟨cond7, false, 0, false, 0, 0, none, 0, true, false⟩ resting))).map (fun t => (List.range 2).map (fun j => Memory.read t.mem (8 + j)))).isSome &&
      decide (((after (.trapFrameWrite 1 0) (framed (trapped ⟨cond7, false, 0, false, 0, 0, none, 0, true, false⟩ resting))).bind (fun t => groupOf t 1 0)).bind (fun x => x.trap.map (fun r => (r.frame, r.frameClk))) = some (1, 9)) &&
      decide (((after (.handlerEntry 1 0) (framed (trapped ⟨cond7, false, 1, false, 0, 8, none, 0, true, false⟩ (onGroup (fun x => { x with kernel := { x.kernel with hndl := 3 } }) resting)))).bind
        (fun t => groupOf t 1 0)).map (fun x => x.threads.map (fun h => (h.off, h.inHandler))) = some (List.replicate 8 (12, true)))) = true := by decide +kernel

theorem witness_TrapsTaken_frame : ∃ s uid g u x r va pa, unitOf s uid = some u ∧ groupOf s uid g = some x ∧ x.trap = some r ∧ r.frame = 0 ∧ r.ready = true ∧ r.dbg = 0 ∧ wordsDone s u x = true ∧
    u.cancel = 0 ∧ MemoryGood s ∧ (r.bcast = true → x.pause = none) ∧ frameVa s x = some va ∧ vlocOf va = .mapped ∧ memCheck s x.core x.asid .engWrite false va 2048 = .ok pa ∧ (r.fatal = false ∨ x.gstack = []) := by
  obtain ⟨u, x, hu, hx, h⟩ := having_of (s := framed (trapped ⟨cond7, true, 0, false, 0, 0, none, 0, true, false⟩ resting))
    (p := fun u x => decide (x.trap = some ⟨cond7, true, 0, false, 0, 0, none, 0, true, false⟩ ∧ wordsDone (framed (trapped ⟨cond7, true, 0, false, 0, 0, none, 0, true, false⟩ resting)) u x = true ∧
      u.cancel = 0 ∧ frameVa (framed (trapped ⟨cond7, true, 0, false, 0, 0, none, 0, true, false⟩ resting)) x = some (2 ^ 21) ∧ x.gstack = []) &&
      (match memCheck (framed (trapped ⟨cond7, true, 0, false, 0, 0, none, 0, true, false⟩ resting)) x.core x.asid .engWrite false (2 ^ 21) 2048 with | .ok pa => pa == 0 | .error _ => false))
    (by decide +kernel)
  obtain ⟨a, b, c, d, e⟩ := of_decide_eq_true (and2 h).1
  have h := (and2 h).2
  split at h
  · next pa q => exact ⟨_, 1, 0, u, x, _, 2 ^ 21, pa, hu, hx, a, rfl, rfl, rfl, b, c, memGood_of (by decide +kernel), (fun h => by cases h), d, by decide +kernel, q, .inr e⟩
  · cases h

theorem witness_TrapsTaken_handler : ∃ s uid g u x r, unitOf s uid = some u ∧ groupOf s uid g = some x ∧ x.trap = some r ∧ r.frame = 1 ∧ r.fatal = false ∧ r.frameClk < clkOf s x.core ∧
    canRelease s u x = true ∧ x.dbg.mode = 0 ∧ u.rollPhase = 0 ∧ x.stopAt = none := by
  obtain ⟨u, x, hu, hx, h⟩ := having_of (s := framed (trapped ⟨cond7, false, 1, false, 0, 8, none, 0, true, false⟩ resting))
    (p := fun u x => decide (x.trap = some ⟨cond7, false, 1, false, 0, 8, none, 0, true, false⟩ ∧ 8 < clkOf (framed (trapped ⟨cond7, false, 1, false, 0, 8, none, 0, true, false⟩ resting)) x.core ∧
      canRelease (framed (trapped ⟨cond7, false, 1, false, 0, 8, none, 0, true, false⟩ resting)) u x = true ∧ x.dbg.mode = 0 ∧ u.rollPhase = 0 ∧ x.stopAt = none)) (by decide +kernel)
  obtain ⟨a, b, c⟩ := of_decide_eq_true h
  exact ⟨_, 1, 0, u, x, _, hu, hx, a, rfl, rfl, b, c⟩

theorem witness_TrapsTaken_held : ∃ s uid g u x c, unitOf s uid = some u ∧ groupOf s uid g = some x ∧ x.trap = none ∧ inHandler x = false ∧ x.dbg.mode = 0 ∧ u.cancel = 0 ∧
    threadHeld x = [] ∧ oldestCond x.heldConds = some c := by
  obtain ⟨u, x, hu, hx, h⟩ := having_of (s := onGroup (fun x => { x with heldConds := [{ cond7 with kind := .async, cause := 0x22 }] }) resting)
    (p := fun u x => decide (x.trap = none ∧ inHandler x = false ∧ x.dbg.mode = 0 ∧ u.cancel = 0 ∧ threadHeld x = [] ∧
      oldestCond x.heldConds = some { cond7 with kind := .async, cause := 0x22 })) (by decide +kernel)
  exact ⟨_, 1, 0, u, x, _, hu, hx, of_decide_eq_true h⟩

theorem witness_TrapsTaken_stop : (∃ s uid g u x c, unitOf s uid = some u ∧ groupOf s uid g = some x ∧ x.stopAt = some (0, c, 1) ∧ c ≤ clkOf s 0) ∧
    ∃ s uid g u x c k, unitOf s uid = some u ∧ groupOf s uid g = some x ∧ x.stopAt = some (0, c, k) ∧ k ≠ 1 ∧ c ≤ clkOf s 0 ∧ x.trap = none := by
  obtain ⟨u, x, hu, hx, h⟩ := having_of (s := framed (onGroup (fun x => { x with stopAt := some (0, 9, 1) }) resting))
    (p := fun _ x => decide (x.stopAt = some (0, 9, 1) ∧ 9 ≤ clkOf (framed (onGroup (fun x => { x with stopAt := some (0, 9, 1) }) resting)) 0)) (by decide +kernel)
  obtain ⟨v, y, hv, hy, k⟩ := having_of (s := framed (onGroup (fun x => { x with stopAt := some (0, 9, 2) }) resting))
    (p := fun _ x => decide (x.stopAt = some (0, 9, 2) ∧ 2 ≠ 1 ∧ 9 ≤ clkOf (framed (onGroup (fun x => { x with stopAt := some (0, 9, 2) }) resting)) 0 ∧ x.trap = none)) (by decide +kernel)
  exact ⟨⟨_, 1, 0, u, x, 9, hu, hx, of_decide_eq_true h⟩, ⟨_, 1, 0, v, y, 9, 2, hv, hy, of_decide_eq_true k⟩⟩

/-- The state with the unit and a second one, its twin. -/
def twins (f : DUnit → DUnit) (s : State) : State :=
  let u := f (givenUnit 1 0x1E200000)
  { s with units := [{ u with chk := true, twin := some 2 }, { u with chk := true, uid := 2, twin := some 1, primary := false }] }

theorem witness_UnitsStopAndRollBack_fatal : ∃ s uid u, unitOf s uid = some u ∧ u.fatalClk ≠ none ∧ u.cancel = 0 ∧ ∀ v ∈ pairOf s uid, ∃ w, unitOf s v = some w ∧ w.groups.all frameSettled = true := by
  obtain ⟨u, x, hu, hx, h⟩ := having_of (s := unit (fun u => { u with fatalClk := some (0, 0) }) (trapped ⟨cond7, true, 1, false, 0, 8, none, 0, true, false⟩ resting))
    (p := fun u _ => decide (u.fatalClk ≠ none ∧ u.cancel = 0 ∧ u.groups.all frameSettled = true ∧
      pairOf (unit (fun u => { u with fatalClk := some (0, 0) }) (trapped ⟨cond7, true, 1, false, 0, 8, none, 0, true, false⟩ resting)) 1 = [1])) (by decide +kernel)
  obtain ⟨a, b, c, d⟩ := of_decide_eq_true h
  exact ⟨_, 1, u, hu, a, b, by rw [d]; intro v hv; rw [List.mem_singleton.mp hv]; exact ⟨u, hu, c⟩⟩

/-- A buffered store of the primary, of four bytes at byte 8 of core 0's scratchpad. -/
def heldStore (id : Nat) : PoolEntry := { pooled id .store (scratchPa 0 8) [1, 2, 3, 4] 4 false with buffered := true }

/-- A store of no checked unit, of one byte at byte 16. -/
def openStore : PoolEntry := { pooled 7 .store (scratchPa 0 16) [5] 1 false with uid := 3 }

/-- The twins have ended, and core 0's POOL has a store of another unit and two buffered stores of the primary. -/
def ended : State :=
  core (fun c => { c with pool := [openStore, heldStore 8, heldStore 9] })
    (twins (fun u => { u with groups := u.groups.map (fun x => { x with ended := true }) }) resting)

/-- The same, the twin's signature another (R331). -/
def endedUnequal : State := modGroup ended 2 0 (fun x => { x with engItems := [(1, [7])] })

theorem ended_core (c : Nat) (h : c ≠ 0) : coreOf ended c = coreOf resting c := coreOf_modCore_other _ _ h

theorem resting_core (c : Nat) (h : c ≠ 0) : coreOf resting c = Core.reset := by
  have k : resting.cores.map (fun e => e.1) = [0] := by decide +kernel
  unfold coreOf
  generalize resting.cores = l at k
  match l, k with
  | [(n, x)], k =>
    simp only [List.map_cons, List.map_nil, List.cons.injEq, and_true] at k
    subst k
    simp [mget, Ne.symm h]

theorem witness_UnitsStopAndRollBack_commit :
    (∃ s uid u v w, unitOf s uid = some u ∧ u.twin = some v ∧ v ≠ uid ∧ unitOf s v = some w ∧ w.twin = some uid ∧ u.chk = true ∧ w.primary = !u.primary ∧ 
      (∀ d, d = u ∨ d = w → d.rollPhase = 0 ∧ d.cancel = 0 ∧ ∀ x ∈ d.groups, x.ended = true ∧ (∀ n ∈ x.oc, n = 0) ∧ (∀ h ∈ x.threads, h.tq = []) ∧
        (∀ l ∈ (coreOf s x.core).loads, l.uid = d.uid → ∀ m ∈ l.mem, m.1.1 ≠ x.gidx) ∧ ∀ p ∈ (coreOf s x.core).pend, p.uid = d.uid → p.g ≠ x.gidx) ∧
      unitSig u = unitSig w ∧ u.primary = true ∧ (∀ c, ((coreOf s c).pool.map (fun e => e.id)).Nodup) ∧ (unitCores u).Nodup ∧
      ∃ c ∈ unitCores u, ∃ pre e post, (coreOf s c).pool = pre ++ e :: post ∧ e.uid = u.uid ∧ e.buffered = true ∧ e.after = none ∧ (∃ d ∈ pre, d.uid = u.uid ∧ d.buffered = true ∧ d.after = none) ∧
        ∃ d ∈ pre, d.buffered = false) ∧
    ∃ s uid u v w, unitOf s uid = some u ∧ u.twin = some v ∧ v ≠ uid ∧ unitOf s v = some w ∧ w.twin = some uid ∧ u.chk = true ∧ w.primary = !u.primary ∧ 
      (∀ d, d = u ∨ d = w → d.rollPhase = 0 ∧ d.cancel = 0 ∧ ∀ x ∈ d.groups, x.ended = true ∧ (∀ n ∈ x.oc, n = 0) ∧ (∀ h ∈ x.threads, h.tq = []) ∧
        (∀ l ∈ (coreOf s x.core).loads, l.uid = d.uid → ∀ m ∈ l.mem, m.1.1 ≠ x.gidx) ∧ ∀ p ∈ (coreOf s x.core).pend, p.uid = d.uid → p.g ≠ x.gidx) ∧
      unitSig u ≠ unitSig w ∧ u.rolls < retryOf s u.home := by
  refine ⟨⟨ended, 1, _, 2, _, rfl, rfl, by decide, rfl, rfl, rfl, rfl, ?_, by decide +kernel, rfl, fun c => ?_, by decide +kernel, 0, by decide +kernel, [openStore, heldStore 8], heldStore 9, [],
      by decide +kernel, rfl, rfl, rfl, ⟨heldStore 8, by decide +kernel, rfl, rfl, rfl⟩, openStore, by decide +kernel, rfl⟩,
    endedUnequal, 1, _, 2, _, rfl, rfl, by decide, rfl, rfl, rfl, rfl, ?_, by decide +kernel, by decide +kernel⟩
  · rintro d (rfl | rfl) <;> decide +kernel
  · by_cases h : c = 0
    · subst h; decide +kernel
    · rw [ended_core c h, resting_core c h]; exact List.nodup_nil
  · rintro d (rfl | rfl) <;> decide +kernel

/-- The commit has the primary's buffered stores perform after those that stand before them, one at a time (R187, R332, R337). -/
theorem test_final_commit : (after (.finalCommit 1) ended).map (fun t => (decide (t.mem = ended.mem), (coreOf t 0).pool.map (fun p => (p.id, p.after)))) =
    some (true, [(7, none), (8, some [7]), (9, some [7, 8])]) := by decide +kernel

theorem test_committed_store_performs : ((after (.poolToPath 0 9) (core (fun c => { c with pool := [{ heldStore 9 with after := some [7, 8] }] }) resting)).bind (fun t => after (.performAtHome 0 9) t)).map
    (fun t => (List.range 6).map (fun j => Memory.read t.mem (scratchPa 0 7 + j))) = some [0, 1, 2, 3, 4, 0] ∧
    (after (.poolToPath 0 9) (core (fun c => { c with pool := [openStore, { heldStore 9 with after := some [7, 8] }] }) resting)).map (fun t => (coreOf t 0).pool.map (fun p => p.onPath)) =
      some [false, false] := by decide +kernel

/-- A checkpoint of the unit, with one range of its buffers. -/
def checkpoint : Checkpoint := ⟨(givenUnit 1 0x1E200000).groups, [], [(2 ^ 20, [1, 2])], []⟩

theorem witness_UnitsStopAndRollBack_replay : ∃ s uid u v w k j, unitOf s uid = some u ∧ u.twin = some v ∧ v ≠ uid ∧ unitOf s v = some w ∧ u.rollPhase = 1 ∧
    u.rollClk.2 ≤ clkOf s u.rollClk.1 ∧ startedEnded s uid = true ∧ startedEnded s v = true ∧ u.ckpt = some k ∧ w.ckpt = some j :=
  ⟨twins (fun u => { u with rollPhase := 1, rollClk := (0, 64), ckpt := some checkpoint }) (core (fun c => { c with clk := 64 }) resting), 1, _, 2, _, _, _, rfl, rfl, by decide, rfl, rfl,
    by decide +kernel, by decide +kernel, by decide +kernel, rfl, rfl⟩

theorem witness_UnitsStopAndRollBack_resume : ∃ s uid u, unitOf s uid = some u ∧ u.rollPhase = 2 ∧ u.rollClk.2 ≤ clkOf s u.rollClk.1 :=
  ⟨twins (fun u => { u with rollPhase := 2, rollClk := (0, 32) }) (core (fun c => { c with clk := 32 }) resting), 1, _, rfl, rfl, by decide +kernel⟩

theorem test_register_write : (after (.registerWrite (.brk 223 7 3) (2 ^ 64 - 1)) resting).map (fun t => rdReg t (.brk 223 7 3)) = some (2 ^ 63 + 2 ^ 56 - 4) ∧
    (after (.thermWrite 7 0) resting).map (fun t => fld (rdReg t (.therm 7)) 55 40) = some (60 * 256 + 70) ∧
    (after (.dpartWrite 1 2 (2 ^ 128 - 1)) resting).map (fun t => (dpRows (rdReg t (.dpart 1 2)), dpUreg (rdReg t (.dpart 1 2)), dpAcc (rdReg t (.dpart 1 2)), dpObuf (rdReg t (.dpart 1 2)))) =
      some (512, 8192, 8, 192) ∧
    (after (.injseedWrite 3 0) resting).map (fun t => rdReg t (.injseed 3)) = some 0x9E3779B97F4A7C15 := by decide +kernel

theorem witness_RegisterWrites : (∃ s r fs, PlainReg r fs ∧ deafReg s r = false ∧ r = .wintab 7 1023) ∧ (∃ r, FixedReg r ∧ r = .dbgqr 223 39) ∧ (∃ s r, deafReg s r = true ∧ r = .therm 7) ∧
    (∃ s c k v, domState v ≠ 1 ∧ (dieOf s (dieOfCore c)).safe = false ∧ slotState s c k = 0) ∧ (∃ s c k v, domState v ≠ 1 ∧ (dieOf s (dieOfCore c)).safe = false ∧ slotState s c k ≠ 0) ∧
    ∃ (s : State) (v : Nat), bitN v 0 = true ∧ rdReg s .mboxdb = 0 :=
  ⟨⟨resting, _, _, .wintab 7 1023, by decide +kernel, rfl⟩, ⟨_, .dbgqr 223 39, rfl⟩, ⟨modDie resting 7 (fun d => { d with safe := true }), _, by decide +kernel, rfl⟩,
    ⟨resting, 223, 7, 2 ^ 30, by decide +kernel⟩, ⟨resting, 0, 0, 2 ^ 30, by decide +kernel⟩, ⟨State.reset, 1, by decide⟩⟩

theorem witness_MonitorRegisterWrites : (∃ v, bitN v 127 = false ∧ fld v 120 117 = 15) ∧ (∃ (s : State) (d v : Nat), d ∈ s.hub.img.tests ∧ bitN v 63 = true ∧ chanBusy s d (fld v 61 56) = false ∧ bitN (rdReg s (.injctl d)) 63 = false) ∧
    ∃ (s : State) (d v : Nat), d ∈ s.hub.img.tests ∧ bitN v 63 = true ∧ chanBusy s d (fld v 61 56) = true :=
  ⟨⟨15 * 2 ^ 117, by decide⟩, ⟨hub (fun h => { h with img := { h.img with tests := [7] } }) State.reset, 7, 2 ^ 63, by decide +kernel⟩,
    ⟨modDie (hub (fun h => { h with img := { h.img with tests := [7] } }) State.reset) 7 (fun d => { d with wb := [63 * 1024] }), 7, 2 ^ 63 + 63 * 2 ^ 56, by decide +kernel⟩⟩

/-- The last page of the gibibyte that `tabled` maps. -/
def ringVa : Nat := 255 * 2 ^ 48 - 4096

/-- Domain slot 0 has address space 5, and the first word of the page holds 3. -/
def ringState : State := reg (.domtab 0 0) (2 ^ 125 + 2 ^ 92 * 5) { tabled with mem := tableCells ++ [(2 ^ 30 - 4096, 3)] }

theorem witness_MonitorRegisterWrites_ring : (∃ s c k v pa, bitN v 127 = true ∧ k < (coreOf s c).ringWr.length ∧ ringPa s c k (fld v 116 61) false = some pa ∧ fld v 116 61 % 4096 = 0) ∧
    ∃ s c k v, bitN v 127 = true ∧ k < (coreOf s c).ringWr.length ∧ ringPa s c k (fld v 116 61) false = none :=
  ⟨⟨ringState, 0, 0, 2 ^ 127 + 2 ^ 61 * ringVa, 2 ^ 30 - 4096, by decide +kernel⟩, ⟨ringState, 0, 0, 2 ^ 127, by decide +kernel⟩⟩

/-- A ring that is opened takes its WR from the header; one whose BASE does not translate is closed and reported (R263). -/
theorem test_ring_opened : (after (.sringWrite 0 0 (2 ^ 127 + 2 ^ 61 * ringVa)) ringState).map (fun t => ((coreOf t 0).ringWr[0]?, bitN (rdReg t (.sring 0 0)) 127)) = some (some 3, true) ∧
    (after (.sringWrite 0 0 (2 ^ 127)) ringState).map (fun t => (bitN (rdReg t (.sring 0 0)) 127, t.hub.reports)) = some (false, [(0, 5)]) := by decide +kernel

/-- A rebinding of domain slot 0 that still moves a name. -/
def moving : State := onGroup (fun x => { x with pause := some ⟨0, [(.uniform, 1)], 1, 0, 34, []⟩ }) resting

theorem witness_ControlRegisterWrites : (∃ s c k, rebinding s c k = false ∧ ∀ q ∈ (coreOf s c).dpartQ, q.1 ≠ k) ∧ (∃ s c k, rebinding s c k = true) ∧
    (∃ s d, bitN (rdReg s (.tlbinv d)) 63 = false) ∧ (∃ s d, bitN (rdReg s (.tlbinv d)) 63 = true ∧ bitN (rdReg s (.tlbinv d)) 62 = true) ∧ (∃ s d, bitN (rdReg s (.tlbinv d)) 63 = true ∧ bitN (rdReg s (.tlbinv d)) 62 = false) ∧
    (∃ s k, bitN (rdReg s (.flash k)) 63 = false ∧ k = 9) ∧ (∃ s k, bitN (rdReg s (.flash k)) 63 = true ∧ k = 9) ∧ (∃ s k, linkBusy s k = false ∧ k = 9) ∧
    ∃ s d c q, mget (dieOf s d).dvfs c = some q ∧ q / 2 ^ 12 < 16 ∧ c = 6 :=
  ⟨⟨resting, 0, 0, by decide +kernel⟩, ⟨moving, 0, 0, by decide +kernel⟩, ⟨resting, 7, by decide +kernel⟩, ⟨reg (.tlbinv 7) (3 * 2 ^ 62) resting, 7, by decide +kernel⟩, ⟨reg (.tlbinv 7) (2 ^ 63) resting, 7, by decide +kernel⟩,
    ⟨resting, 9, by decide +kernel⟩, ⟨reg (.flash 9) (2 ^ 63) resting, 9, by decide +kernel⟩, ⟨resting, 9, by decide +kernel⟩,
    ⟨modDie resting 7 (fun d => { d with dvfs := [(6, 8 * 2 ^ 12 + 700)] }), 7, 6, 8 * 2 ^ 12 + 700, by decide +kernel⟩⟩

/-- An invalidation with ALL = 0 drops the page that covers the VPN, of any size, in its address space (R75). -/
theorem test_page_invalidated :
    (after (.tlbInvalidateDone 7) (modDie (reg (.tlbinv 7) (2 ^ 63 + 5 * 2 ^ 40 + 2 ^ 14 + 7) resting) 7 (fun d =>
      { d with tlb := [⟨5, 1, 30, 0, true, true⟩, ⟨5, 2, 30, 0, true, true⟩, ⟨6, 1, 30, 0, true, true⟩, ⟨5, 2 ^ 14 + 7, 16, 0, true, true⟩] }))).map (fun t => (dieOf t 7).tlb) =
      some [⟨5, 2, 30, 0, true, true⟩, ⟨6, 1, 30, 0, true, true⟩] := by decide +kernel

/-- A step up raises the voltage first, a step down lowers the clock first (R288). -/
theorem test_clock_steps : (after (.dvfsRequest 0 0 (2 ^ 61 + 8 * 2 ^ 52 + 900 * 2 ^ 36)) (reg (.dvfs 0 0) (2 * 2 ^ 32 + 700 * 2 ^ 16) (hub (fun h => { h with img := { h.img with vc := 950, vt := List.replicate 9 500 } }) resting))).map
      (fun t => (fld (rdReg t (.dvfs 0 0)) 63 62, fld (rdReg t (.dvfs 0 0)) 35 32, fld (rdReg t (.dvfs 0 0)) 27 16)) = some (1, 2, 900) ∧
    (after (.dvfsRequest 0 0 (2 ^ 61 + 1 * 2 ^ 52 + 600 * 2 ^ 36)) (reg (.dvfs 0 0) (2 * 2 ^ 32 + 700 * 2 ^ 16) (hub (fun h => { h with img := { h.img with vc := 950, vt := List.replicate 9 500 } }) resting))).map
      (fun t => (fld (rdReg t (.dvfs 0 0)) 63 62, fld (rdReg t (.dvfs 0 0)) 35 32, fld (rdReg t (.dvfs 0 0)) 27 16)) = some (1, 1, 700) := by decide +kernel

theorem test_slot_states : (after (.domtabHalt 0 0) resting).map (fun t => slotState t 0 0) = some 3 ∧
    (after (.haltComplete 0 0) (core (fun c => { c with haltClk := [(0, 1)], clk := 65 }) (reg (.domtab 0 0) (3 * 2 ^ 125) resting))).map (fun t => slotState t 0 0) = some 2 ∧
    (after (.haltComplete 0 0) (core (fun c => { c with haltClk := [(0, 1)], clk := 64 }) (reg (.domtab 0 0) (3 * 2 ^ 125) resting))).map (fun t => slotState t 0 0) = some 3 := by decide +kernel

theorem witness_DomainSlotStates : (∃ s c k v, slotState s c k = 0 ∧ domState v = 1 ∧ (dieOf s (dieOfCore c)).safe = false ∧ k = 7) ∧
    (∃ s c k v, slotState s c k = 0 ∧ domState v ≠ 1 ∧ (dieOf s (dieOfCore c)).safe = false ∧ k = 7) ∧ (∃ s c k, slotState s c k = 1) ∧
    (∃ s c k, slotState s c k = 3 ∧ (mget (coreOf s c).haltClk k).getD 0 + 64 ≤ clkOf s c) ∧ (∃ s c k, slotState s c k = 3 ∧ clkOf s c < (mget (coreOf s c).haltClk k).getD 0 + 64) ∧
    (∃ s c k, slotState s c k = 2) ∧ ∃ s c k, slotState s c k = 2 ∧ slotHeld s c k = false :=
  let halting := fun (n : Nat) => core (fun c => { c with haltClk := [(0, 1)], clk := n }) (reg (.domtab 0 0) (3 * 2 ^ 125) resting)
  ⟨⟨resting, 223, 7, 2 ^ 125, by decide +kernel⟩, ⟨resting, 223, 7, 0, by decide +kernel⟩, ⟨resting, 0, 0, by decide +kernel⟩, ⟨halting 65, 0, 0, by decide +kernel⟩, ⟨halting 64, 0, 0, by decide +kernel⟩,
    ⟨reg (.domtab 0 0) (2 * 2 ^ 125) resting, 0, 0, by decide +kernel⟩, ⟨reg (.domtab 0 7) (2 * 2 ^ 125) resting, 0, 7, by decide +kernel⟩⟩

/-- A uniform entry that holds 7. -/
def seven : Entry := { noEntry .uniform with words := [7], full := true, held := true }

/-- Uniform name 1, spilled to slot 2 and still bound. -/
def name1 : NameSt := ⟨.uniform, 1, [4], true, false, false, false, some 2, false, 0, true, 0, false, 0, [seven]⟩

/-- The group has `name1` and a spill area at VA 2^21, pauses, and its threads stand at a word that reads `name1`. -/
def spilling (m : NameSt) (p : Option Pause) : State :=
  core (fun c => { c with clk := 40 }) (onGroup (fun x => { x with names := [m], pause := p })
    (unit (fun u => { u with spill := 2 ^ 21, spsz := 8 }) (State.reset.withFetchWord 32 ((encode (.uaAdd 2 1 1)).getD 0))))

theorem witness_SpillEngine_move : ∃ s uid g u x p c n rest level m va pa e w, unitOf s uid = some u ∧ groupOf s uid g = some x ∧ x.pause = some p ∧ p.moves = (c, n) :: rest ∧
    movingName x c n = some (level, m) ∧ levelName x level c n = some m ∧ p.start + 30 + 2 * (p.done + moveCost x c) ≤ clkOf s x.core ∧ moveBusy s x uid m = false ∧
    slotVa u x m = some va ∧ MemoryGood s ∧ slotFault s uid g level c n = none ∧ memCheck s x.core (levelAsid x (nameLevel x m)) .store false va 4 = .ok pa ∧ c = .uniform ∧ m.entries = [e] ∧ e.words = [w] ∧ e.held = true ∧ e.full = true := by
  obtain ⟨u, x, hu, hx, h⟩ := having_of (s := spilling name1 (some ⟨8, [(.uniform, 1)], 1, 0, 42, []⟩))
    (p := fun u x => decide (x.pause = some ⟨8, [(.uniform, 1)], 1, 0, 42, []⟩ ∧ movingName x .uniform 1 = some (0, name1) ∧ levelName x 0 .uniform 1 = some name1 ∧
      8 + 30 + 2 * (0 + moveCost x .uniform) ≤ clkOf (spilling name1 (some ⟨8, [(.uniform, 1)], 1, 0, 42, []⟩)) x.core ∧
      moveBusy (spilling name1 (some ⟨8, [(.uniform, 1)], 1, 0, 42, []⟩)) x 1 name1 = false ∧ slotVa u x name1 = some (2 ^ 21 + 256) ∧
      slotFault (spilling name1 (some ⟨8, [(.uniform, 1)], 1, 0, 42, []⟩)) 1 0 0 .uniform 1 = none) &&
      (match memCheck (spilling name1 (some ⟨8, [(.uniform, 1)], 1, 0, 42, []⟩)) x.core (levelAsid x (nameLevel x name1)) .store false (2 ^ 21 + 256) 4 with
        | .ok _ => true | .error _ => false)) (by decide +kernel)
  obtain ⟨a, b, c, d, e, f, i⟩ := of_decide_eq_true (and2 h).1
  have h := (and2 h).2
  split at h
  · next pa q => exact ⟨_, 1, 0, u, x, _, .uniform, 1, [], 0, name1, _, pa, seven, 7, hu, hx, a, rfl, b, c, d, e, f, memGood_of (by decide +kernel), i, q, rfl, rfl, rfl, rfl, rfl⟩
  · cases h

theorem witness_SpillEngine_end : ∃ s uid g u x p, unitOf s uid = some u ∧ groupOf s uid g = some x ∧ x.pause = some p ∧ p.moves = [] ∧ p.wants = [] ∧
    p.till ≤ clkOf s x.core ∧ (coreOf s x.core).dpartQ = [] := by
  obtain ⟨u, x, hu, hx, h⟩ := having_of (s := spilling name1 (some ⟨6, [], 1, 1, 40, []⟩))
    (p := fun _ x => decide (x.pause = some ⟨6, [], 1, 1, 40, []⟩ ∧ 40 ≤ clkOf (spilling name1 (some ⟨6, [], 1, 1, 40, []⟩)) x.core ∧
      (coreOf (spilling name1 (some ⟨6, [], 1, 1, 40, []⟩)) x.core).dpartQ = [])) (by decide +kernel)
  obtain ⟨a, b, c⟩ := of_decide_eq_true h
  exact ⟨_, 1, 0, u, x, _, hu, hx, a, rfl, rfl, b, c⟩

theorem witness_SpillEngine_through : ∃ s uid g u x c n level m va s', unitOf s uid = some u ∧ groupOf s uid g = some x ∧
    (levelNames x).find? (fun l => l.2.cls == c && l.2.num == n && l.2.slot.isSome && l.2.entries.any (fun e => e.wt != 0)) = some (level, m) ∧ levelName x level c n = some m ∧
    slotVa u x m = some va ∧ (coreOf s x.core).outQ = [] ∧
    spillPut x.core (levelDom x (nameLevel x m)) (levelAsid x (nameLevel x m)) (pendingWords va m (List.range m.entries.length)) s = .ok s' := by
  obtain ⟨u, x, hu, hx, h⟩ := having_of (s := spilling { name1 with entries := [{ seven with wt := 1 }] } none)
    (p := fun u x => decide ((levelNames x).find? (fun l => l.2.cls == .uniform && l.2.num == 1 && l.2.slot.isSome && l.2.entries.any (fun e => e.wt != 0)) =
        some (0, { name1 with entries := [{ seven with wt := 1 }] }) ∧ levelName x 0 .uniform 1 = some { name1 with entries := [{ seven with wt := 1 }] } ∧
        slotVa u x { name1 with entries := [{ seven with wt := 1 }] } = some (2 ^ 21 + 256) ∧ (coreOf (spilling { name1 with entries := [{ seven with wt := 1 }] } none) x.core).outQ = []) &&
      (match spillPut x.core (levelDom x (nameLevel x { name1 with entries := [{ seven with wt := 1 }] })) (levelAsid x (nameLevel x { name1 with entries := [{ seven with wt := 1 }] })) (pendingWords (2 ^ 21 + 256) { name1 with entries := [{ seven with wt := 1 }] } [0])
        (spilling { name1 with entries := [{ seven with wt := 1 }] } none) with | .ok _ => true | .error _ => false)) (by decide +kernel)
  obtain ⟨a, b, c, d⟩ := of_decide_eq_true (and2 h).1
  have h := (and2 h).2
  split at h
  · next s' q => exact ⟨_, 1, 0, u, x, .uniform, 1, 0, _, _, s', hu, hx, a, b, c, d, q⟩
  · cases h

theorem witness_SpillEngine_fill : ∃ s uid g u x c n m va, unitOf s uid = some u ∧ groupOf s uid g = some x ∧ nameOf x c n = some m ∧ tqHalted s u x = false ∧ x.pause = none ∧
    (∀ e ∈ m.entries, e.wt = 0) ∧ m.entries.any (fun e => e.inSlot && e.held) = true ∧ wantsName s x c n = true ∧ m.res ≠ [] ∧ slotVa u x m = some va ∧ MemoryGood s ∧
    ∀ e ∈ fillEntries va m, ∃ ws, spillGet x.core (levelAsid x (nameLevel x m)) s e.2 = .ok ws := by
  obtain ⟨u, x, hu, hx, h⟩ := having_of (s := spilling { name1 with entries := [{ seven with inSlot := true }] } none)
    (p := fun u x => decide (nameOf x .uniform 1 = some { name1 with entries := [{ seven with inSlot := true }] } ∧
        tqHalted (spilling { name1 with entries := [{ seven with inSlot := true }] } none) u x = false ∧ x.pause = none ∧
        wantsName (spilling { name1 with entries := [{ seven with inSlot := true }] } none) x .uniform 1 = true ∧
        slotVa u x { name1 with entries := [{ seven with inSlot := true }] } = some (2 ^ 21 + 256)) &&
      (fillEntries (2 ^ 21 + 256) { name1 with entries := [{ seven with inSlot := true }] }).all (fun e =>
        match spillGet x.core (levelAsid x (nameLevel x { name1 with entries := [{ seven with inSlot := true }] })) (spilling { name1 with entries := [{ seven with inSlot := true }] } none) e.2 with
        | .ok _ => true | .error _ => false)) (by decide +kernel)
  obtain ⟨a, b, c, d, e⟩ := of_decide_eq_true (and2 h).1
  refine ⟨_, 1, 0, u, x, .uniform, 1, _, _, hu, hx, a, b, c, by decide, by decide, d, by decide, e, memGood_of (by decide +kernel), fun e he => ?_⟩
  have h := List.all_eq_true.mp (and2 h).2 e he
  split at h
  · next ws q => exact ⟨ws, q⟩
  · cases h

/-- A launch record of kind `k` (R247): version 1.0, domain 0, launch identifier `lid`, graph `gid`, phase `ph`, units of 8 threads, one of them. -/
def launchRec (k lid gid ph : Nat) : List Byte :=
  bytesOfNat 2 0x100 ++ bytesOfNat 1 k ++ List.replicate 17 0 ++ bytesOfNat 4 8 ++ bytesOfNat 4 1 ++ List.replicate 44 0 ++ bytesOfNat 2 lid ++ bytesOfNat 2 gid ++ bytesOfNat 2 ph ++
    List.replicate 50 0

/-- A control record (R253): COP `cop` on level `lv`, identifier `n`. -/
def controlRec (cop lv n : Nat) : List Byte :=
  bytesOfNat 2 0x100 ++ bytesOfNat 1 3 ++ bytesOfNat 1 cop ++ bytesOfNat 2 0 ++ bytesOfNat 1 lv ++ bytesOfNat 1 0 ++ bytesOfNat 2 n ++ List.replicate 118 0

/-- The state with one record in the intake, of PASID 0. -/
def submitted (b : List Byte) (s : State) : State := hub (fun h => { h with intake := [⟨0, b⟩] }) s

/-- A live level entry of domain 0. -/
def entry0 (l : Level) (n : Nat) : LevelEntry :=
  { dom := 0, level := l, ident := n, count := 1, closed := true, parent := none, done := 0, donePasid := 0, doneKind := 0, state := 0, freeing := false, cycle := 0 }

/-- The record is the hub's next, and `p` holds. -/
theorem next_of {s : State} {b : List Byte} (h : (decide (s.hub.procCycle ≤ s.hub.cycle) &&
    decide ((waitingPasids s).find? (fun p => (headOf s p).any (fun b => !heldHead s p b)) = some 0) && decide (headOf s 0 = some b)) = true) : NextRecord s 0 b :=
  ⟨of_decide_eq_true (and2 (and2 h).1).1, of_decide_eq_true (and2 (and2 h).1).2, of_decide_eq_true (and2 h).2⟩

theorem test_queue_port : (after (.qportSubmit 7 0 (launchRec 0 1 0 0)) resting).map (fun t => (t.hub.intake.length, t.hub.answers)) = some (1, [0]) ∧
    (after (.qportUnsupportedDmwr none 0 128) resting).map (fun t => t.hub.answers) = some [2] := by decide +kernel
theorem test_record_processed : (after .processLaunch (submitted (launchRec 0 1 0 0) resting)).map (fun t => (t.hub.launches.map (fun l => (l.lid, l.usize)), t.hub.levels.length)) =
    some ([(1, 8)], 1) := by decide +kernel
theorem test_record_rejected : (after .processLaunch (submitted (launchRec 0 0 0 0) resting)).map (fun t => (mget t.hub.rejects 0).map (fun l => l.count)) = some (some 1) := by decide +kernel

theorem witness_QueuePort : (∃ (s : State) (p off : Nat) (bs : List Byte), bs.length = 128 ∧ off % 128 = 0 ∧ off < 4096 ∧ s.hub.intake.length < 512 ∧
      (s.hub.intake.filter (fun r => r.pasid == p)).length < 32 ∧ off = 3968) ∧
    (∃ (s : State) (p off : Nat) (bs : List Byte), bs.length = 128 ∧ off % 128 = 0 ∧ off < 4096 ∧ (512 ≤ s.hub.intake.length ∨ 32 ≤ (s.hub.intake.filter (fun r => r.pasid == p)).length)) ∧
    ∃ (p : Option Nat) (off n : Nat), n ≠ 128 ∨ off % 128 ≠ 0 ∨ p = none :=
  ⟨⟨resting, 0, 3968, List.replicate 128 0, by decide +kernel⟩, ⟨hub (fun h => { h with intake := List.replicate 32 ⟨0, []⟩ }) resting, 0, 0, List.replicate 128 0, by decide +kernel⟩,
    ⟨none, 0, 128, .inr (.inr rfl)⟩⟩

theorem witness_RecordsProcessed : (∃ s p b, NextRecord s p b ∧ recReason s p b ≠ 0) ∧ (∃ s p b, NextRecord s p b ∧ recReason s p b = 0 ∧ recKind b = 0 ∧ Hierarchical s) ∧
    (∃ s p b, NextRecord s p b ∧ recReason s p b = 0 ∧ recKind b = 1 ∧ Hierarchical s) ∧ (∃ s p b, NextRecord s p b ∧ recReason s p b = 0 ∧ recKind b = 2 ∧ Hierarchical s) ∧
    (∃ s p b e, NextRecord s p b ∧ recReason s p b = 0 ∧ recKind b = 3 ∧ numAt b 3 1 = 0 ∧ OnlyEntry s (recDom b) (recLevel b) (recCid b) e ∧ e.freeing = false) ∧
    ∃ s p b e, NextRecord s p b ∧ recReason s p b = 0 ∧ recKind b = 3 ∧ numAt b 3 1 = 1 ∧ OnlyEntry s (recDom b) (recLevel b) (recCid b) e ∧ e.freeing = false ∧ e.state = 0 := by
  have only : ∀ {s : State} {d n : Nat} {l : Level}, s.hub.levels = [entry0 l n] → d = 0 → OnlyEntry s d l n (entry0 l n) := fun h hd => by
    subst hd
    refine ⟨by simp [liveEntry, h, entry0, LevelEntry.is], fun e he _ => ?_⟩
    rw [h, List.mem_singleton] at he
    exact he
  have none_ : ∀ {b : List Byte}, Hierarchical (submitted b resting) := fun e he => nomatch he
  refine ⟨⟨submitted (launchRec 0 0 0 0) resting, 0, launchRec 0 0 0 0, next_of (by decide +kernel), by decide +kernel⟩, ⟨submitted (launchRec 0 1 0 0) resting, 0, launchRec 0 1 0 0, next_of (by decide +kernel), by decide +kernel, by decide +kernel, none_⟩,
    ⟨submitted (launchRec 1 1 1 0) resting, 0, launchRec 1 1 1 0, next_of (by decide +kernel), by decide +kernel, by decide +kernel, none_⟩,
    ⟨submitted (launchRec 2 1 0 1) resting, 0, launchRec 2 1 0 1, next_of (by decide +kernel), by decide +kernel, by decide +kernel, none_⟩,
    ⟨submitted (controlRec 0 3 65535) (hub (fun h => { h with levels := [entry0 .job 65535] }) resting), 0, controlRec 0 3 65535, entry0 .job 65535, next_of (by decide +kernel), by decide +kernel, by decide +kernel,
      by decide +kernel, ?_, rfl⟩,
    ⟨submitted (controlRec 1 0 3) (hub (fun h => { h with levels := [entry0 .launch 3] }) resting), 0, controlRec 1 0 3, entry0 .launch 3, next_of (by decide +kernel), by decide +kernel, by decide +kernel,
      by decide +kernel, ?_, rfl, rfl⟩⟩
  · exact only rfl (by decide +kernel)
  · exact only rfl (by decide +kernel)

/-- The state with a launch. -/
def launched (l : Launch) (s : State) : State := hub (fun h => { h with launches := [l] }) s

theorem witness_UnitsDispatched_rejected : ∃ s l r, s.hub.dispCycle ≤ s.hub.cycle ∧ turnOf s = some l ∧ dispatchCheck s l = .error r ∧
    s.hub.launches.find? (fun k => k.dom == l.dom && k.lid == l.lid) = some l := by
  have h : (match dispatchCheck (launched launch0 resting) launch0 with | .error r => r == 9 | .ok _ => false) = true := by decide +kernel
  split at h
  · next r q => exact ⟨launched launch0 resting, launch0, r, by decide, by decide +kernel, q, by decide +kernel⟩
  · cases h

theorem witness_UnitsDispatched_held : ∃ s l k, s.hub.dispCycle ≤ s.hub.cycle ∧ turnOf s = some l ∧ dispatchCheck s l = .ok k ∧ preferred s l l.nextUnit = none :=
  ⟨launched { launch0 with ucnt := 2, nextUnit := 1, dom := 4095 } resting, { launch0 with ucnt := 2, nextUnit := 1, dom := 4095 }, _, by decide, by decide +kernel,
    by simp only [dispatchCheck]; rw [if_pos (by decide)], by decide +kernel⟩

/-- The launch of the image's kernel in address space 5, its first unit placed. -/
def imageLaunch : Launch := { launch0 with kimg := lowVa + 2 ^ 20, aff := 0, ucnt := 2, nextUnit := 1 }

theorem witness_UnitsDispatched_placed : ∃ s l k d c s1, s.hub.dispCycle ≤ s.hub.cycle ∧ turnOf s = some l ∧ dispatchCheck s l = .ok k ∧ preferred s l l.nextUnit = some (d, c) ∧
    placeNext { s with hub := { s.hub with lastDom := some l.dom, dispCycle := s.hub.cycle + 1 } } l k d c = some s1 := by
  have h : (match dispatchCheck (launched imageLaunch imaged) imageLaunch with
    | .ok k => (placeNext { launched imageLaunch imaged with hub := { (launched imageLaunch imaged).hub with lastDom := some imageLaunch.dom, dispCycle := (launched imageLaunch imaged).hub.cycle + 1 } }
        imageLaunch k 0 1).isSome
    | .error _ => false) = true := by decide +kernel
  split at h
  · next k q =>
    obtain ⟨s1, e⟩ := Option.isSome_iff_exists.mp h
    exact ⟨launched imageLaunch imaged, imageLaunch, k, 0, 1, s1, by decide, by decide +kernel, q, by decide +kernel, e⟩
  · cases h

/-- The unit's group has ended, its launch has an entry, and a graph that the launch does not belong to has been cancelled in this hub cycle. -/
def done : State := hub (fun h => { h with levels := [entry0 .launch 0, { entry0 .graph 5 with state := 2 }] }) (onGroup (fun x => { x with ended := true }) resting)

theorem witness_UnitsCompleted : (∃ s uid u e, unitOf s uid = some u ∧ (∀ v ∈ pairOf s uid, ∃ w, unitOf s v = some w ∧ unitDone s w = true) ∧ OnlyEntry s u.dom .launch u.lid e ∧ Hierarchical s ∧
      (∀ k ∈ s.hub.levels, k.dom = u.dom → k.state = 2 → k.freeing = false → k.cycle = s.hub.cycle → isBelow s u.dom (k.level, k.ident) 4 (.launch, u.lid) = false) ∧
      (∃ k ∈ s.hub.levels, k.state = 2 ∧ k.freeing = false ∧ k.cycle = s.hub.cycle) ∧ e.count ≤ 1 ∧ e.closed = true ∧ e.freeing = false) ∧
    ∃ (s : State) (d n : Nat) (l : Launch), s.hub.launches.find? (fun l => l.dom == d && l.lid == n) = some l ∧ (l.ended ≠ 0 ∨ l.ucnt ≤ l.nextUnit) ∧
      ∀ u ∈ s.units, u.dom = d → u.lid = n → u.cancel = 0 → ∀ x ∈ u.groups, x.ended = true ∨ x.trigger = 1 := by
  constructor
  · obtain ⟨u, x, hu, hx, h⟩ := having_of (s := done)
      (p := fun u _ => decide (u.dom = 0 ∧ u.lid = 0 ∧ unitDone (done) u = true ∧
        pairOf (done) 1 = [1])) (by decide +kernel)
    obtain ⟨a, b, c, d⟩ := of_decide_eq_true h
    refine ⟨done, 1, u, entry0 .launch 0, hu, by rw [d]; intro v hv; rw [List.mem_singleton.mp hv]; exact ⟨u, hu, c⟩, ⟨by rw [a, b]; decide +kernel, ?_⟩, ?_, by rw [a, b]; decide +kernel,
      by decide +kernel, by decide, rfl, rfl⟩
    · rw [a, b]; decide +kernel
    · have : done.hub.levels.map (fun e => e.parent) = [none, none] := by decide +kernel
      intro e he p hp
      have m : e.parent ∈ done.hub.levels.map (fun e => e.parent) := List.mem_map_of_mem he
      rw [this, hp] at m
      simp at m
  · refine ⟨launched { launch0 with lid := 0, nextUnit := 1 } (onGroup (fun x => { x with trigger := 1 }) resting), 0, 0, { launch0 with lid := 0, nextUnit := 1 }, by decide +kernel, .inr (by decide), ?_⟩
    decide +kernel

/-- A message of a TYPE, SEQ 77, with its payload's first bytes. -/
def message (ty : Nat) (pl : List Byte) : List Byte := bytesOfNat 2 0x100 ++ bytesOfNat 2 ty ++ bytesOfNat 4 77 ++ pl ++ List.replicate (56 - pl.length) 0

/-- The state whose mailbox serves a message, in an agreed version. -/
def mailed (ver : Nat) (m : List Byte) (s : State) : State := hub (fun h => { h with msg := m, mboxVer := ver }) (reg .mboxdb 1 s)

theorem test_mailbox_busy : (after (.mboxAttestation true) (mailed 0x100 (message 2 []) resting)).map (fun t => (rdReg t .mboxdb, rdReg t (.mboxout 0))) =
    some (0, 0x0000004D00010100) := by decide +kernel
theorem test_mailbox_debug_read : (after (.mboxDebugAccess true) (mailed 0x100 (message 3 [7, 27, 7]) (reg (.tframe 223 0) (2 ^ 127 + 5) resting))).map (fun t => (rdReg t (.mboxout 1), rdReg t (.mboxout 2))) =
    some (5, 2 ^ 63) := by decide +kernel
theorem test_mailbox_rejects : (after .mboxRejectLog (mailed 0x100 (message 4 [9]) (hub (fun h => { h with rejects := [(9, ⟨3, [0xAB]⟩)] }) resting))).map
    (fun t => (rdReg t (.mboxout 1), rdReg t (.mboxout 2), rdReg t (.mboxout 3))) = some (3, 0xAB, 0) := by decide +kernel

theorem witness_MailboxMessages_version : (∃ s : State, s.hub.msg.length = 64 ∧ Serves s 1 ∧ numAt s.hub.msg 12 52 ≠ 0 ∧ s.hub.msg[63]? = some 1) ∧
    (∃ s : State, s.hub.msg.length = 64 ∧ Serves s 1 ∧ numAt s.hub.msg 12 52 = 0 ∧
      Nat.min (numAt s.hub.msg 10 2) Config.mboxHigh.toNat < Nat.max (numAt s.hub.msg 8 2) Config.mboxLow.toNat) ∧
    ∃ s : State, s.hub.msg.length = 64 ∧ Serves s 1 ∧ numAt s.hub.msg 12 52 = 0 ∧
      Nat.max (numAt s.hub.msg 8 2) Config.mboxLow.toNat ≤ Nat.min (numAt s.hub.msg 10 2) Config.mboxHigh.toNat := by
  refine ⟨⟨mailed 0 (message 1 (List.replicate 55 0 ++ [1])) resting, by decide +kernel, ⟨by decide +kernel, by decide +kernel⟩, by decide +kernel, by decide +kernel⟩,
    ⟨mailed 0 (message 1 [255, 255]) resting, by decide +kernel, ⟨by decide +kernel, by decide +kernel⟩, by decide +kernel, ?_⟩,
    ⟨mailed 0 (message 1 [0, 0, 255, 255]) resting, by decide +kernel, ⟨by decide +kernel, by decide +kernel⟩, by decide +kernel, ?_⟩⟩
  · rw [show numAt (mailed 0 (message 1 [255, 255]) resting).hub.msg 10 2 = 0 by decide +kernel, show numAt (mailed 0 (message 1 [255, 255]) resting).hub.msg 8 2 = 65535 by decide +kernel]
    exact Nat.lt_of_le_of_lt (Nat.min_le_left _ _) (Nat.lt_of_lt_of_le (by decide) (Nat.le_max_left _ _))
  · rw [show numAt (mailed 0 (message 1 [0, 0, 255, 255]) resting).hub.msg 10 2 = 65535 by decide +kernel,
      show numAt (mailed 0 (message 1 [0, 0, 255, 255]) resting).hub.msg 8 2 = 0 by decide +kernel]
    have h := Config.mboxLow.isLt
    have k : Config.mboxLow.toNat ≤ Config.mboxHigh.toNat := by
      unfold Config.mboxHigh
      split
      · exact Nat.le_refl _
      · omega
    exact Nat.max_le.mpr ⟨Nat.zero_le _, Nat.le_min.mpr ⟨by omega, k⟩⟩

theorem witness_MailboxMessages_unagreed : ∀ ty ∈ [2, 3, 4, 0, 5], ∃ s : State, s.hub.msg.length = 64 ∧ Serves s ty ∧ s.hub.mboxVer = 0 ∧ s.hub.report = none := fun ty h =>
  have k : ∀ ty ∈ [2, 3, 4, 0, 5], (mailed 0 (message ty []) resting).hub.msg.length = 64 ∧ rdReg (mailed 0 (message ty []) resting) .mboxdb = 1 ∧
    numAt (mailed 0 (message ty []) resting).hub.msg 2 2 = ty := by decide +kernel
  ⟨mailed 0 (message ty []) resting, (k ty h).1, (k ty h).2, rfl, rfl⟩

theorem witness_MailboxMessages_report : (∃ s : State, s.hub.msg.length = 64 ∧ Serves s 2 ∧ s.hub.mboxVer ≠ 0 ∧ s.hub.report = none ∧ attestOk s.hub.msg = false) ∧
    (∃ s : State, s.hub.msg.length = 64 ∧ Serves s 2 ∧ s.hub.mboxVer ≠ 0 ∧ s.hub.report = none ∧ attestOk s.hub.msg = true ∧ numAt s.hub.msg 40 8 = 2 ^ 50 - 8000) ∧
    ∃ (s : State) (r : List Byte), s.hub.msg.length = 64 ∧ s.hub.report = some r ∧ s.hub.mboxVer ≠ 0 :=
  ⟨⟨mailed 1 (message 2 (List.replicate 32 0 ++ [1])) resting, by decide +kernel, ⟨by decide +kernel, by decide +kernel⟩, by decide +kernel, rfl, by decide +kernel⟩,
    ⟨mailed 1 (message 2 (List.replicate 32 0 ++ bytesOfNat 8 (2 ^ 50 - 8000))) resting, by decide +kernel, ⟨by decide +kernel, by decide +kernel⟩, by decide +kernel, rfl, by decide +kernel, by decide +kernel⟩,
    ⟨hub (fun h => { h with report := some [] }) (mailed 1 (message 2 []) resting), [], by decide +kernel, rfl, by decide +kernel⟩⟩

/-- A TYPE 3 message of core 27 of die 7: register, slot 7, part, and 1 for a write of all ones. -/
def debugMessage (r ix op : Nat) : List Byte :=
  message 3 (bytesOfNat 1 7 ++ bytesOfNat 1 27 ++ bytesOfNat 1 r ++ bytesOfNat 1 7 ++ bytesOfNat 1 ix ++ bytesOfNat 1 op ++ List.replicate 10 0 ++ List.replicate 16 255)

theorem witness_MailboxMessages_debug : (∃ s : State, s.hub.msg.length = 64 ∧ Serves s 3 ∧ s.hub.mboxVer ≠ 0 ∧ numAt s.hub.msg 13 1 > 1) ∧
    (∃ s : State, s.hub.msg.length = 64 ∧ Serves s 3 ∧ s.hub.mboxVer ≠ 0 ∧ debugTarget s.hub.msg = none) ∧
    (∃ (s : State) (r : Reg), s.hub.msg.length = 64 ∧ Serves s 3 ∧ s.hub.mboxVer ≠ 0 ∧ debugTarget s.hub.msg = some (r, none) ∧ numAt s.hub.msg 13 1 = 1) ∧
    (∃ (s : State) (r : Reg) (w : Option (Nat → State → State)), s.hub.msg.length = 64 ∧ Serves s 3 ∧ s.hub.mboxVer ≠ 0 ∧ numAt s.hub.msg 13 1 = 0 ∧ numAt s.hub.msg 14 2 = 0 ∧ numAt s.hub.msg 16 4 < 2 ^ 20 ∧ numAt s.hub.msg 20 4 = 0 ∧
      numAt s.hub.msg 40 24 = 0 ∧ debugTarget s.hub.msg = some (r, w) ∧ deafReg s r = false) ∧
    (∃ s r, debugTarget s.hub.msg = some (r, none) ∧ deafReg s r = true ∧ Serves s 3) ∧
    ∃ (s : State) (r : Reg) (f : Nat → State → State), s.hub.msg.length = 64 ∧ Serves s 3 ∧ s.hub.mboxVer ≠ 0 ∧ numAt s.hub.msg 13 1 = 1 ∧ numAt s.hub.msg 14 2 = 0 ∧ numAt s.hub.msg 16 4 < 2 ^ 20 ∧ numAt s.hub.msg 20 4 = 0 ∧
      numAt s.hub.msg 40 24 = 0 ∧ debugTarget s.hub.msg = some (r, some f) ∧ deafReg s r = false :=
  let s := fun r ix op => mailed 1 (debugMessage r ix op) resting
  ⟨⟨s 0 0 2, by decide +kernel, ⟨by decide +kernel, by decide +kernel⟩, by decide +kernel, by decide +kernel⟩,
    ⟨s 1 4 0, by decide +kernel, ⟨by decide +kernel, by decide +kernel⟩, by decide +kernel, rfl⟩,
    ⟨s 5 19 1, .dbgqr 223 38, by decide +kernel, ⟨by decide +kernel, by decide +kernel⟩, by decide +kernel, rfl, by decide +kernel⟩,
    ⟨s 7 0 0, .tframe 223 7, none, by decide +kernel, ⟨by decide +kernel, by decide +kernel⟩, by decide +kernel, by decide +kernel, by decide +kernel, by decide +kernel, by decide +kernel, by decide +kernel, rfl, by decide +kernel⟩,
    ⟨modDie (s 7 0 0) 7 (fun d => { d with safe := true }), .tframe 223 7, rfl, by decide +kernel, ⟨by decide +kernel, by decide +kernel⟩⟩,
    ⟨s 6 7 1, .watch 7 7, fun v s => writeWatch s 7 7 v, by decide +kernel, ⟨by decide +kernel, by decide +kernel⟩, by decide +kernel, by decide +kernel, by decide +kernel, by decide +kernel, by decide +kernel, by decide +kernel, rfl, by decide +kernel⟩⟩

theorem witness_MailboxMessages_rejects : (∃ s : State, s.hub.msg.length = 64 ∧ Serves s 4 ∧ s.hub.mboxVer ≠ 0 ∧ numAt s.hub.msg 8 4 ≥ 2 ^ 20) ∧
    (∃ (s : State) (l : RejectLog), s.hub.msg.length = 64 ∧ Serves s 4 ∧ s.hub.mboxVer ≠ 0 ∧ numAt s.hub.msg 8 4 < 2 ^ 20 ∧ numAt s.hub.msg 12 52 = 0 ∧ mget s.hub.rejects (numAt s.hub.msg 8 4) = some l) ∧
    ∃ (s : State) (ty : Nat), s.hub.msg.length = 64 ∧ 4 < ty ∧ Serves s ty ∧ s.hub.mboxVer ≠ 0 :=
  ⟨⟨mailed 1 (message 4 [0, 0, 16]) resting, by decide +kernel, ⟨by decide +kernel, by decide +kernel⟩, by decide +kernel, by decide +kernel⟩,
    ⟨mailed 1 (message 4 [255, 255, 15]) (hub (fun h => { h with rejects := [(0xFFFFF, ⟨3, []⟩)] }) resting), ⟨3, []⟩, by decide +kernel, ⟨by decide +kernel, by decide +kernel⟩, by decide +kernel, by decide +kernel,
      by decide +kernel, rfl⟩,
    ⟨mailed 1 (message 65535 []) resting, 65535, by decide +kernel, by decide, ⟨by decide +kernel, by decide +kernel⟩, by decide +kernel⟩⟩

theorem test_sideband : (after (.sidebandStatus 7) resting).map (fun t => t.hub.sideband.map (fun r => (r.length, r[0]?, r[1]?))) = some [(16, some 7, some 0)] := by decide +kernel

theorem test_start_up : (after (.powerOn BootImage.none (List.replicate 8 5)) resting).map (fun t => (t.units.length, (List.range 8).map (fun d => (dieOf t d).safe), (dieOf t 0).code, bitN (rdReg t (.flash 9)) 63)) =
    some (0, List.replicate 8 true, 5, true) := by decide +kernel

/-- The state with die 7 changed. -/
def die7 (f : Die → Die) (s : State) : State := modDie s 7 f

/-- The state with the first partition changed. -/
def part0 (f : Part → Part) (s : State) : State := modPart s 0 0 f

/-- Core 0 samples every 1024 clocks, its partition 0 stands at clock 1024 with generator `g`. -/
def sampling (g : BitVec 64) : State :=
  reg (.sampctl 0) (2 ^ 63) (part0 (fun p => { p with gen := g, lastClk := some 1024 }) (core (fun c => { c with clk := 1024 }) resting))

/-- Slot 0 has an open ring of both kinds of sample at VA 2^21, of the private WR `w`. -/
def ringed (w : Nat) (s : State) : State := reg (.sring 0 0) (2 ^ 127 + 2 ^ 126 + 2 ^ 125 + 2 ^ 82) (core (fun c => { c with ringWr := setAt c.ringWr 0 w }) s)

/-- The generator whose next value draws lane 7 of thread slot 0. -/
def drawsSeven : BitVec 64 := 0x450000000000

theorem test_pc_sample : (after (.pcSample 0 0) (ringed 1 (sampling drawsSeven))).map (fun t => [0, 1, 6, 7, 8, 10].map (fun i => Memory.read t.mem (96 + i))) =
    some [1, 15, 7, 0, 0, 0x20] := by decide +kernel
theorem test_ring_full : (after (.pcSample 0 0) (ringed 64 (sampling drawsSeven))).map (fun t => (Memory.read t.mem 16, (coreOf t 0).ringRecs.length)) = some (1, 0) := by decide +kernel

/-- The thread drawn, of which `p` holds. -/
def drawn (s : State) (n : Nat) (p : DUnit → Group → Thread → Bool) : Bool :=
  match threadAt s 0 0 (n % 32) (n / 32) with
  | some (u, x, h) => p u x h
  | none => false

theorem drawn_of {s : State} {n : Nat} {p : DUnit → Group → Thread → Bool} (h : drawn s n p = true) : ∃ u x h, threadAt s 0 0 (n % 32) (n / 32) = some (u, x, h) ∧ p u x h = true := by
  unfold drawn at h
  split at h
  · next u x t e => exact ⟨u, x, t, e, h⟩
  · cases h

/-- A tagged request of slot 0. -/
def request : SampleReq := ⟨0, 3, 2 ^ 21, 9, 1, 2, 3, 4, 5⟩

/-- The request stands tagged at core 0, thread 0's load of its line still queued. -/
def tagging (fin : Bool) : State :=
  core (fun c => { c with tagged := [⟨0, 0, 3, 2 ^ 21, 9, 0, 50, scratch / 256, fin⟩] }) (queue [entry 9 (.load false) scratch 4 []] resting)

theorem witness_SamplesTaken_none : ∃ s core part, bitN (rdReg s (.sampctl core)) 63 = true ∧ (partOf (coreOf s core) part).genClk + 2 ^ (fld (rdReg s (.sampctl core)) 62 59 + 10) ≤ clkOf s core ∧
    settled s core part = true ∧ (dieOf s (dieOfCore core)).safe = false ∧
    threadAt s core part ((xorshift (partOf (coreOf s core) part).gen).toNat / 2 ^ 55 % 32) ((xorshift (partOf (coreOf s core) part).gen).toNat / 2 ^ 55 / 32) = none ∧ part = 11 :=
  ⟨sampling 0, 0, 11, by decide +kernel, by decide +kernel, by decide +kernel, by decide +kernel, by
    have h : (threadAt (sampling 0) 0 11 ((xorshift (partOf (coreOf (sampling 0) 0) 11).gen).toNat / 2 ^ 55 % 32) ((xorshift (partOf (coreOf (sampling 0) 0) 11).gen).toNat / 2 ^ 55 / 32)).isNone = true := by
      decide +kernel
    exact Option.isNone_iff_eq_none.mp h, rfl⟩

theorem witness_SamplesTaken_record : (∃ s u x h, bitN (rdReg s (.sampctl 0)) 63 = true ∧ (partOf (coreOf s 0) 0).genClk + 2 ^ (fld (rdReg s (.sampctl 0)) 62 59 + 10) ≤ clkOf s 0 ∧
      settled s 0 0 = true ∧ (dieOf s 0).safe = false ∧ (xorshift (partOf (coreOf s 0) 0).gen).toNat / 2 ^ 55 = 7 ∧ threadAt s 0 0 7 0 = some (u, x, h) ∧
      bitN (rdReg s (.sring 0 x.slot)) 127 = true ∧ bitN (rdReg s (.sring 0 x.slot)) 126 = true) ∧
    ∃ s u x h, bitN (rdReg s (.sampctl 0)) 63 = true ∧ (partOf (coreOf s 0) 0).genClk + 2 ^ (fld (rdReg s (.sampctl 0)) 62 59 + 10) ≤ clkOf s 0 ∧
      settled s 0 0 = true ∧ (dieOf s 0).safe = false ∧ (xorshift (partOf (coreOf s 0) 0).gen).toNat / 2 ^ 55 = 7 ∧ threadAt s 0 0 7 0 = some (u, x, h) ∧
      bitN (rdReg s (.sring 0 x.slot)) 127 = false := by
  obtain ⟨u, x, h, e, p⟩ := drawn_of (s := ringed 0 (sampling drawsSeven)) (n := 7)
    (p := fun _ x _ => decide (bitN (rdReg (ringed 0 (sampling drawsSeven)) (.sring 0 x.slot)) 127 = true ∧ bitN (rdReg (ringed 0 (sampling drawsSeven)) (.sring 0 x.slot)) 126 = true))
    (by decide +kernel)
  obtain ⟨v, y, k, f, q⟩ := drawn_of (s := sampling drawsSeven) (n := 7) (p := fun _ x _ => decide (bitN (rdReg (sampling drawsSeven) (.sring 0 x.slot)) 127 = false)) (by decide +kernel)
  exact ⟨⟨_, u, x, h, by decide +kernel, by decide +kernel, by decide +kernel, by decide +kernel, by decide +kernel, e, of_decide_eq_true p⟩,
    ⟨_, v, y, k, by decide +kernel, by decide +kernel, by decide +kernel, by decide +kernel, by decide +kernel, f, of_decide_eq_true q⟩⟩

theorem witness_Recorded : ∃ (s : State) (rd lost pa : Nat), MemoryGood s ∧ ringPa s 0 0 (fld (rdReg s (.sring 0 0)) 116 61 + 8) false = some rd ∧
    ringPa s 0 0 (fld (rdReg s (.sring 0 0)) 116 61 + 16) true = some lost ∧
    ringPa s 0 0 (fld (rdReg s (.sring 0 0)) 116 61 + 64 + 32 * (((coreOf s 0).ringWr[0]?).getD 0 % 2 ^ (fld (rdReg s (.sring 0 0)) 120 117 + 6))) true = some pa ∧
    ((coreOf s 0).ringWr[0]?).getD 0 - natOfBytes (homeRead s rd 8) < 2 ^ (fld (rdReg s (.sring 0 0)) 120 117 + 6) ∧ (coreOf s 0).ringRecs.length < 32 ∧
    ((coreOf s 0).ringWr[0]?).getD 0 = 63 :=
  ⟨ringed 63 resting, 8, 16, 64 + 32 * 63, memGood_of (by decide +kernel), by decide +kernel⟩

/-- Slot 0 has an open ring for marks at VA 2^21, of the private WR `w`, with `n` records on their way. -/
def marking (w n : Nat) (i : Instr) : State :=
  reg (.sring 0 0) (2 ^ 127 + 2 ^ 124 + 2 ^ 82) (core (fun c => { c with ringWr := setAt c.ringWr 0 w, ringRecs := List.replicate n ⟨0, 0⟩ }) (issuing i))

theorem witness_ModeAndCounterWords_ring : ∀ n ∈ [31, 32], ∃ s g x u, GroupIssue s (.ctrMark 2) g x ∧ x.core = 0 ∧ x.slot = 0 ∧ bitN (rdReg s (.sring 0 0)) 124 = true ∧ bitN (rdReg s (.sring 0 0)) 127 = true ∧
    unitOf s s.iss.uid = some u ∧ MemoryGood s ∧ 0 < (coreOf s 0).ringWr.length ∧ ringPa s 0 0 (fld (rdReg s (.sring 0 0)) 116 61 + 8) false = some 8 ∧
    ringPa s 0 0 (fld (rdReg s (.sring 0 0)) 116 61 + 16) true = some 16 ∧ ringPa s 0 0 (fld (rdReg s (.sring 0 0)) 116 61 + 64 + 32 * 63) true = some (64 + 32 * 63) ∧
    (coreOf s 0).ringWr[0]? = some 63 ∧ (coreOf s 0).ringRecs.length = n := by
  have h : ∀ n ∈ [31, 32], groupWith (marking 63 n (.ctrMark 2)) (.ctrMark 2) (fun x _ => decide (x.core = 0 ∧ x.slot = 0)) = true ∧ memGood (marking 63 n (.ctrMark 2)) = true := by decide +kernel
  intro n hn
  obtain ⟨x, u, l, hu, k⟩ := groupWith_issue (h n hn).1
  obtain ⟨a, b⟩ := of_decide_eq_true k
  simp only [List.mem_cons, List.not_mem_nil, or_false] at hn
  rcases hn with rfl | rfl
  · exact ⟨_, 0, x, u, l, a, b, by decide +kernel, by decide +kernel, hu, memGood_of (by decide +kernel), by decide +kernel⟩
  · exact ⟨_, 0, x, u, l, a, b, by decide +kernel, by decide +kernel, hu, memGood_of (by decide +kernel), by decide +kernel⟩

theorem witness_SamplesTaken_request : (∃ (s : State) (core : Nat) (q : SampleReq), (coreOf s core).tagged ≠ [] ∧
      ∀ r ∈ (coreOf s core).tagged, r.slot = q.slot → r.part = q.part → r.pc = q.pc → r.time = q.time → taggedDone s core r = false) ∧
    (∃ (s : State) (core : Nat) (q : SampleReq) (r : Tagged), taggedOf s core q = some r ∧ (dieOf s (dieOfCore core)).safe = false ∧
      bitN (rdReg s (.sring core r.slot)) 127 = true ∧ bitN (rdReg s (.sring core r.slot)) 125 = true) ∧
    (∃ (s : State) (core : Nat) (q : SampleReq) (r : Tagged), taggedOf s core q = some r ∧ (dieOf s (dieOfCore core)).safe = false ∧ bitN (rdReg s (.sring core r.slot)) 127 = false) ∧
    ∃ (s : State) (core slot : Nat) (r : RingRec) (pa : Nat), (dieOf s (dieOfCore core)).safe = false ∧ MemoryGood s ∧ (coreOf s core).ringRecs.find? (fun r => r.slot == slot) = some r ∧ ringPa s core slot (fld (rdReg s (.sring core slot)) 116 61) true = some pa ∧
      natOfBytes (homeRead s pa 8) = r.idx :=
  ⟨⟨tagging false, 0, request, by decide +kernel⟩, ⟨ringed 0 (tagging true), 0, request, ⟨0, 0, 3, 2 ^ 21, 9, 0, 50, scratch / 256, true⟩, by decide +kernel⟩,
    ⟨tagging true, 0, request, ⟨0, 0, 3, 2 ^ 21, 9, 0, 50, scratch / 256, true⟩, by decide +kernel⟩,
    ⟨ringed 1 (core (fun c => { c with ringRecs := [⟨0, 0x1E200000⟩] }) resting), 0, 0, ⟨0, 0x1E200000⟩, 0, by decide +kernel, memGood_of (by decide +kernel), by decide +kernel⟩⟩

theorem test_temperatures : (after (.thermalSample 7 (List.replicate 14 114) [104, 3]) resting).map (fun t => (fld (rdReg t (.therm 7)) 23 16, fld (rdReg t (.therm 7)) 31 24,
      fld (rdReg t (.therm 7)) 39 32, t.hub.reports)) = some (114, 104, 114, List.replicate 14 (7, 1)) ∧
    (after (.thermalSample 0 (List.replicate 14 115) [20, 3]) resting).map (fun t => ((dieOf t 0).safe, (dieOf t 0).code, t.units.length)) = some (true, 0xF0, 0) := by decide +kernel

theorem witness_TemperaturesHoldsAndTrips : (∃ (s : State) (js hs : List Nat), (dieOf s 7).safe = false ∧ maxOf ((js.take 14).map (Nat.min 255)) = 114 ∧ maxOf ((hs.take 2).map (Nat.min 255)) = 104) ∧
    (∃ (s : State) (js : List Nat), (dieOf s 7).safe = false ∧ maxOf ((js.take 14).map (Nat.min 255)) = 115) ∧
    (∃ (s : State) (hs : List Nat), (dieOf s 7).safe = false ∧ maxOf ((hs.take 2).map (Nat.min 255)) = 105) ∧
    (∃ s : State, (dieOf s 7).safe = false ∧ bitN (rdReg s (.therm 7)) 14 = false ∧ fld (rdReg s (.therm 7)) 47 40 ≤ junctionOf (dieOf s 7).readings 6 ∧ junctionOf (dieOf s 7).readings 6 = 100) ∧
    ∃ (s : State) (c : Nat), (dieOf s 7).safe = false ∧ mget (dieOf s 7).cool 6 = some c ∧ bitN (rdReg s (.therm 7)) 14 = true ∧ c + 1000000 ≤ (dieOf s 7).time :=
  ⟨⟨resting, [3, 114], [104], by decide +kernel⟩, ⟨resting, List.replicate 13 0 ++ [115], by decide +kernel⟩, ⟨resting, [0, 105], by decide +kernel⟩,
    ⟨die7 (fun d => { d with readings := List.replicate 13 0 ++ [100] }) resting, by decide +kernel⟩,
    ⟨die7 (fun d => { d with cool := [(6, 5)], time := 1000005 }) (reg (.therm 7) (2 ^ 14) resting), 5, by decide +kernel⟩⟩

/-- The last sector of die 7's HBM5, on channel 63. -/
def lastSector : Nat := 7 * 2 ^ 32 + (3 * 2 ^ 30 - 1)

/-- A read of it that failed on lanes `l` in attempt `n`, the last at time 60. -/
def retrying (n : Nat) (l : List Nat) (w : Bool) : Xfer := ⟨lastSector, w, n, 1, l, l, false, 0, 60, false⟩

/-- Die 7 with stuck lanes of channel 63, a transfer in retry, at time 90. -/
def stuckOn (l : List Nat) (x : List Xfer) : State := die7 (fun d => { d with stuck := l.map (fun n => (63, n)), xfers := x, time := 90 }) resting

/-- An access waits for the last sector, and a write-back of it waits. -/
def asking (s : State) : State := die7 (fun d => { d with wants := [(lastSector, 0)], wb := [lastSector] }) s

/-- The last sector has wrong bits. -/
def wrong (l : List Nat) : State := asking (die7 (fun d => { d with flips := l.map (fun n => (lastSector, n)) }) resting)

/-- A sector comes for an access that waits: one wrong bit is put right and logged, two are delivered poisoned; one that none asks for does not move (R359, R361). -/
theorem test_hbm : (after (.hbmTransfer 7 (3 * 2 ^ 30 - 1) false) (wrong [511])).map (fun t => ((dieOf t 7).flips, fld (rdReg t (.aelog 7 0)) 9 0, fld (rdReg t (.hbmlog 7)) 63 52)) = some ([], 511, 1) ∧
    (after (.hbmTransfer 7 (3 * 2 ^ 30 - 1) false) (wrong [0, 1])).map (fun t => (t.poison, (dieOf t 7).wants)) = some ([lastSector], []) ∧
    (after (.hbmTransfer 7 (3 * 2 ^ 30 - 1) false) (stuckOn [39] [])).map (fun t => (dieOf t 7).xfers) = some [] ∧
    (after (.hbmTransfer 7 (3 * 2 ^ 30 - 1) false) (asking (stuckOn [39] []))).map (fun t => (dieOf t 7).xfers.map (fun x => (x.attempts, x.lanes, x.tried))) = some [(1, [39], 90)] := by decide +kernel

theorem moves_of {s : State} {d c : Nat} (h : (!(dieOf s d).safe && ((mget (dieOf s d).swaps c).isNone && (!bitN (rdReg s (.lswap d c)) 63 && !bitN (rdReg s (.injctl d)) 63))) = true) : Moves s d c := by
  simp only [Bool.and_eq_true, Bool.not_eq_true', Option.isNone_iff_eq_none] at h
  exact ⟨h.1, h.2.1, h.2.2.1, h.2.2.2⟩

theorem asked_of {s : State} {sec : Nat} (h : decide ((∃ w ∈ (dieOf s 7).wants, w.1 = sec) ∧ l2Has s 7 sec = false ∧ ∀ x ∈ (dieOf s 7).xfers, x.sector ≠ sec) = true) : Asked s 7 sec :=
  by have k := of_decide_eq_true h; exact k

theorem witness_HbmTransfers_idle : ∃ s, Moves s 7 63 ∧ (∀ w ∈ (dieOf s 7).wants, w.1 ≠ lastSector) ∧ lastSector ∉ (dieOf s 7).wb := ⟨resting, moves_of (by decide +kernel), by decide +kernel⟩

theorem witness_HbmTransfers_sector : ∀ l ∈ [[], [511], [0, 511]], Moves (wrong l) 7 63 ∧ lastSector = 7 * 2 ^ 32 + (3 * 2 ^ 30 - 1) ∧ sectorChan lastSector = 63 ∧ badLanes (wrong l) 7 63 = [] ∧
    Asked (wrong l) 7 lastSector ∧ lastSector ∈ (dieOf (wrong l) 7).wb ∧ wrongBits (wrong l) 7 lastSector = l ∧ lastSector ∉ (dieOf (wrong l) 7).coded ∧ lastSector < 2 ^ 46 := by
  intro l h
  simp only [List.mem_cons, List.not_mem_nil, or_false] at h
  rcases h with rfl | rfl | rfl
  all_goals exact ⟨moves_of (by decide +kernel), rfl, by decide +kernel, by decide +kernel, asked_of (by decide +kernel), by decide +kernel⟩

theorem witness_HbmTransfers_faults : (∃ s, Moves s 7 63 ∧ badLanes s 7 63 = [] ∧ Asked s 7 lastSector ∧ lastSector ∈ (dieOf s 7).coded) ∧
    (∃ s, Moves s 7 63 ∧ badLanes s 7 63 ≠ [] ∧ Asked s 7 lastSector ∧ lastSector ∈ (dieOf s 7).wb) ∧
    ∃ s a v, Moves s 7 63 ∧ a = { s with regs := mset s.regs (regKey (.lswap 7 63)) v } ∧ bitN v 63 = true ∧ Asked s 7 lastSector ∧ lastSector ∈ (dieOf s 7).wb :=
  ⟨⟨die7 (fun d => { d with coded := [lastSector] }) (wrong []), moves_of (by decide +kernel), by decide +kernel, asked_of (by decide +kernel), by decide +kernel⟩,
    ⟨asking (stuckOn [39] []), moves_of (by decide +kernel), by decide +kernel, asked_of (by decide +kernel), by decide +kernel⟩,
    ⟨wrong [], _, 2 ^ 63, moves_of (by decide +kernel), rfl, by decide +kernel, asked_of (by decide +kernel), by decide +kernel⟩⟩

theorem witness_HbmTransfers_retry : ∀ (l : List Nat) (n : Nat) (w : Bool), (l, n, w) ∈ [([], 1, false), ([39], 1, false), ([39], 2, true), ([0, 39], 3, false), ([0, 1, 39], 3, false)] →
    Moves (stuckOn l [retrying n l w]) 7 63 ∧ (dieOf (stuckOn l [retrying n l w]) 7).xfers.find? (fun x => sectorChan x.sector == 63 && !x.swapping &&
      decide (x.tried + 30 ≤ (dieOf (stuckOn l [retrying n l w]) 7).time)) = some (retrying n l w) ∧ badLanes (stuckOn l [retrying n l w]) 7 63 = l ∧
      (retrying n l w).lanes.filter (fun k => l.contains k) = l ∧ wrongBits (stuckOn l [retrying n l w]) 7 lastSector = [] ∧
      lastSector ∉ (dieOf (stuckOn l [retrying n l w]) 7).coded ∧ (swappedLanes (rdReg (stuckOn l [retrying n l w]) (.lswap 7 63))).length = 0 := by
  have k : ∀ p ∈ [(([] : List Nat), 1, false), ([39], 1, false), ([39], 2, true), ([0, 39], 3, false), ([0, 1, 39], 3, false)],
      (!(dieOf (stuckOn p.1 [retrying p.2.1 p.1 p.2.2]) 7).safe && ((mget (dieOf (stuckOn p.1 [retrying p.2.1 p.1 p.2.2]) 7).swaps 63).isNone &&
        (!bitN (rdReg (stuckOn p.1 [retrying p.2.1 p.1 p.2.2]) (.lswap 7 63)) 63 && !bitN (rdReg (stuckOn p.1 [retrying p.2.1 p.1 p.2.2]) (.injctl 7)) 63))) = true ∧
      (dieOf (stuckOn p.1 [retrying p.2.1 p.1 p.2.2]) 7).xfers.find? (fun x => sectorChan x.sector == 63 && !x.swapping &&
        decide (x.tried + 30 ≤ (dieOf (stuckOn p.1 [retrying p.2.1 p.1 p.2.2]) 7).time)) = some (retrying p.2.1 p.1 p.2.2) ∧
      badLanes (stuckOn p.1 [retrying p.2.1 p.1 p.2.2]) 7 63 = p.1 ∧ (retrying p.2.1 p.1 p.2.2).lanes.filter (fun k => p.1.contains k) = p.1 ∧
      wrongBits (stuckOn p.1 [retrying p.2.1 p.1 p.2.2]) 7 lastSector = [] ∧ lastSector ∉ (dieOf (stuckOn p.1 [retrying p.2.1 p.1 p.2.2]) 7).coded ∧ (swappedLanes (rdReg (stuckOn p.1 [retrying p.2.1 p.1 p.2.2]) (.lswap 7 63))).length = 0 := by decide +kernel
  intro l n w h
  exact ⟨moves_of (k _ h).1, (k _ h).2⟩

theorem witness_HbmTransfers_swap : ∃ s a c, Moves s 7 63 ∧ a = { s with dies := mset s.dies 7 { dieOf s 7 with swaps := [(63, c)] } } ∧ c + 2000 ≤ (dieOf s 7).time :=
  ⟨die7 (fun d => { d with time := 2000 }) resting, _, 0, moves_of (by decide +kernel), rfl, by decide +kernel⟩

/-- A command of CORE.DBGCMD for the unit of `resting`. -/
def command (op : Nat) : Nat := 2 ^ 127 + op * 2 ^ 124

/-- The unit is stopped, its group in debug mode `m`. -/
def stopped (m : Nat) (s : State) : State := onGroup (fun x => { x with dbg := { x.dbg with mode := m } }) (unit (fun u => { u with dbgSrc := 1 }) s)

theorem test_debug_resume : (after (.dbgResume 0 0 (command 1)) (stopped 2 resting)).map (fun t => (fld (rdReg t (.dbgcmd 0 0)) 62 61, (groupOf t 1 0).map (fun x => x.dbg.mode))) = some (1, some 0) ∧
    (after (.dbgResume 0 0 (command 1)) resting).map (fun t => fld (rdReg t (.dbgcmd 0 0)) 62 61) = some 2 := by decide +kernel
theorem test_debug_step : (after (.dbgStep 0 0 (command 2 + 255 * 2 ^ 116)) (stopped 2 resting)).map (fun t => (groupOf t 1 0).map (fun x => (x.dbg.mode, x.threads.map (fun h => h.stepLeft)))) =
    some (some (3, List.replicate 8 255)) := by decide +kernel
theorem test_debug_query : (after (.dbgQuery 0 (2 ^ 127 + 2 ^ 108 + 3 * 2 ^ 97)) (uni 3 7 (issuing (.uaAdd 1 3 3)))).map (fun t => ((coreOf t 0).dbgqr.length, (coreOf t 0).dbgqr[64]?)) = some (320, some 7) := by decide +kernel

theorem witness_DebuggerCommands_none : ∀ op ∈ [1, 2, 3], bitN (command op) 127 = true ∧ fld (command op) 126 124 = op ∧ dbgUnit State.reset 0 0 (command op) = none := by decide +kernel

/-- The command's unit, of which `p` holds. -/
def commanded (s : State) (v : Nat) (p : DUnit → Bool) : Bool :=
  match dbgUnit s 0 0 v with
  | some u => decide (unitOf s u.uid = some u) && p u
  | none => false

theorem commanded_of {s : State} {v : Nat} {p : DUnit → Bool} (h : commanded s v p = true) : ∃ u, dbgUnit s 0 0 v = some u ∧ unitOf s u.uid = some u ∧ p u = true := by
  unfold commanded at h
  split at h
  · next u e => exact ⟨u, e, of_decide_eq_true (and2 h).1, (and2 h).2⟩
  · cases h

theorem witness_DebuggerCommands_resume : (∃ s v u, bitN v 127 = true ∧ dbgUnit s 0 0 v = some u ∧ unitOf s u.uid = some u ∧ fld v 126 124 = 1 ∧ dbgAllStopped u = false) ∧
    ∃ s v u, bitN v 127 = true ∧ dbgUnit s 0 0 v = some u ∧ unitOf s u.uid = some u ∧ fld v 126 124 = 1 ∧ dbgAllStopped u = true ∧ (∀ x ∈ u.groups, x.dbg.swapped = false) ∧ slotOfDom s 0 u.dom = some 0 := by
  obtain ⟨u, a, b, c⟩ := commanded_of (s := stopped 3 resting) (v := command 1) (p := fun u => !dbgAllStopped u) (by decide +kernel)
  obtain ⟨w, d, e, f⟩ := commanded_of (s := stopped 2 resting) (v := command 1) (p := fun u => decide (dbgAllStopped u = true ∧ (∀ x ∈ u.groups, x.dbg.swapped = false) ∧ slotOfDom (stopped 2 resting) 0 u.dom = some 0)) (by decide +kernel)
  exact ⟨⟨_, command 1, u, by decide, a, b, by decide, by simpa using c⟩, ⟨_, command 1, w, by decide, d, e, by decide, of_decide_eq_true f⟩⟩

/-- The group is swapped out, and its reservation's slot is taken: the swap area's header is the code's word. -/
def swappedOut : State := reg (.dbgctl 0 0) (2 ^ 21) (part0 (fun p => { p with rsvs := [⟨1, 0, 1, 9, 0, 0, 0, 0⟩] })
  (onGroup (fun x => { x with dbg := ⟨1, 1, 0, [], true, none⟩ }) (unit (fun u => { u with dbgSrc := 1 }) resting)))

theorem witness_DebuggerCommands_waits : (∃ s v u, bitN v 127 = true ∧ dbgUnit s 0 0 v = some u ∧ unitOf s u.uid = some u ∧ fld v 126 124 = 1 ∧ dbgAllStopped u = true ∧
      ∃ x ∈ u.groups, x.dbg.mode = 1 ∧ x.dbg.swapped = true ∧ swapFree (fetchAll s u.groups).1 x = false) ∧
    ∃ s v u, bitN v 127 = true ∧ dbgUnit s 0 0 v = some u ∧ unitOf s u.uid = some u ∧ fld v 126 124 = 1 ∧ dbgAllStopped u = true ∧ (fetchAll s u.groups).2 = false := by
  obtain ⟨u, a, b, c⟩ := commanded_of (s := swappedOut) (v := command 1) (p := fun u => dbgAllStopped u && u.groups.any (fun x => decide (x.dbg.mode = 1 ∧ x.dbg.swapped = true ∧
    swapFree (fetchAll swappedOut u.groups).1 x = false))) (by decide +kernel)
  obtain ⟨x, hx, h⟩ := List.any_eq_true.mp (and2 c).2
  obtain ⟨w, d, e, f⟩ := commanded_of (s := modDie swappedOut 0 (fun d => { d with swaps := (List.range 64).map (fun c => (c, 0)) })) (v := command 1)
    (p := fun u => dbgAllStopped u && !(fetchAll (modDie swappedOut 0 (fun d => { d with swaps := (List.range 64).map (fun c => (c, 0)) })) u.groups).2) (by decide +kernel)
  exact ⟨⟨_, command 1, u, by decide, a, b, by decide, (and2 c).1, x, hx, of_decide_eq_true h⟩, ⟨_, command 1, w, by decide, d, e, by decide, (and2 f).1, by simpa using (and2 f).2⟩⟩

theorem witness_DebuggerCommands_step : (∃ s v u x, bitN v 127 = true ∧ dbgUnit s 0 0 v = some u ∧ unitOf s u.uid = some u ∧ fld v 126 124 = 2 ∧ groupOf s u.uid (fld v 75 63) = some x ∧
      dbgAllStopped u = true ∧ fld v 123 116 ≠ 0 ∧ x.ended = false ∧ x.dbg.swapped = false) ∧
    (∃ s v u, bitN v 127 = true ∧ dbgUnit s 0 0 v = some u ∧ unitOf s u.uid = some u ∧ fld v 126 124 = 2 ∧ groupIn u (fld v 75 63) = none ∧ fld v 75 63 = 8191) ∧
    ∃ s v u, bitN v 127 = true ∧ dbgUnit s 0 0 v = some u ∧ unitOf s u.uid = some u ∧ fld v 126 124 = 2 ∧ fld v 123 116 = 0 := by
  obtain ⟨u, a, b, c⟩ := commanded_of (s := stopped 2 resting) (v := command 2 + 255 * 2 ^ 116) (p := fun u => match groupOf (stopped 2 resting) u.uid 0 with
    | some x => decide (dbgAllStopped u = true ∧ x.ended = false ∧ x.dbg.swapped = false) | none => false) (by decide +kernel)
  obtain ⟨w, d, e, f⟩ := commanded_of (s := stopped 2 resting) (v := command 2 + 8191 * 2 ^ 63) (p := fun u => (groupIn u 8191).isNone) (by decide +kernel)
  obtain ⟨y, g, h, -⟩ := commanded_of (s := stopped 2 resting) (v := command 2) (p := fun _ => true) (by decide +kernel)
  refine ⟨?_, ⟨_, _, w, by decide, d, e, by decide, Option.isNone_iff_eq_none.mp f, by decide⟩, ⟨_, _, y, by decide, g, h, by decide, by decide⟩⟩
  split at c
  · next x q =>
    obtain ⟨c1, c2, c3⟩ := of_decide_eq_true c
    exact ⟨_, _, u, x, by decide, a, b, by decide, q, c1, by decide, c2, c3⟩
  · cases c

theorem witness_DebuggerCommands_stop : (∃ s v u, bitN v 127 = true ∧ dbgUnit s 0 0 v = some u ∧ unitOf s u.uid = some u ∧ fld v 126 124 = 3 ∧ u.dbgSrc ≠ 0) ∧
    ∃ s v u, bitN v 127 = true ∧ dbgUnit s 0 0 v = some u ∧ unitOf s u.uid = some u ∧ fld v 126 124 = 3 ∧ u.dbgSrc = 0 := by
  obtain ⟨u, a, b, c⟩ := commanded_of (s := stopped 2 resting) (v := command 3) (p := fun u => decide (u.dbgSrc ≠ 0)) (by decide +kernel)
  obtain ⟨w, d, e, f⟩ := commanded_of (s := resting) (v := command 3) (p := fun u => decide (u.dbgSrc = 0)) (by decide +kernel)
  exact ⟨⟨_, _, u, by decide, a, b, by decide, of_decide_eq_true c⟩, ⟨_, _, w, by decide, d, e, by decide, of_decide_eq_true f⟩⟩

/-- The state with every thread's step count. -/
def stepping (n : Nat) (s : State) : State := onGroup (fun x => { x with threads := x.threads.map (fun h => { h with stepLeft := n }) }) (stopped 3 s)

theorem witness_DebuggerCommands_stepEnd : (∃ s u x, unitOf s 1 = some u ∧ groupOf s 1 0 = some x ∧ x.dbg.mode = 3 ∧ x.trap = none ∧ ∀ h ∈ liveThreads x, h.stepLeft = 0) ∧
    (∃ s u x r, unitOf s 1 = some u ∧ groupOf s 1 0 = some x ∧ x.dbg.mode = 3 ∧ x.trap = some r ∧ r.dbg = 0 ∧ r.frame = 0) ∧
    (∃ s u x, unitOf s 1 = some u ∧ groupOf s 1 0 = some x ∧ x.dbg.mode = 3 ∧ x.trap = none ∧ standsWaiting s u x = true) ∧
    ∃ s u x, unitOf s 1 = some u ∧ groupOf s 1 0 = some x ∧ x.dbg.mode = 3 ∧ x.trap = none ∧ (∃ h ∈ liveThreads x, h.stepLeft ≠ 0) ∧ standsWaiting s u x = false := by
  obtain ⟨u, x, hu, hx, h⟩ := having_of (s := stepping 0 resting) (p := fun _ x => decide (x.dbg.mode = 3 ∧ x.trap = none ∧ ∀ h ∈ liveThreads x, h.stepLeft = 0)) (by decide +kernel)
  obtain ⟨v, y, hv, hy, k⟩ := having_of (s := trapped ⟨cond7, false, 0, false, 0, 0, none, 0, true, false⟩ (stepping 5 resting))
    (p := fun _ x => decide (x.dbg.mode = 3 ∧ x.trap = some ⟨cond7, false, 0, false, 0, 0, none, 0, true, false⟩)) (by decide +kernel)
  obtain ⟨w, z, hw, hz, l⟩ := having_of (s := stepping 1 resting) (p := fun u x => decide (x.dbg.mode = 3 ∧ x.trap = none ∧ (∃ h ∈ liveThreads x, h.stepLeft ≠ 0) ∧
    standsWaiting (stepping 1 resting) u x = false)) (by decide +kernel)
  obtain ⟨a, b, ha, hb, m⟩ := having_of (s := onGroup (fun x => { x with oc := [0, 0, 0, 1, 0] }) (waiting (.oc 3 0) (stepping 1 resting))) (p := fun u x => decide (x.dbg.mode = 3 ∧ x.trap = none ∧
    standsWaiting (onGroup (fun x => { x with oc := [0, 0, 0, 1, 0] }) (waiting (.oc 3 0) (stepping 1 resting))) u x = true)) (by decide +kernel)
  exact ⟨⟨_, u, x, hu, hx, of_decide_eq_true h⟩, ⟨_, v, y, _, hv, hy, (of_decide_eq_true k).1, (of_decide_eq_true k).2, rfl, rfl⟩, ⟨_, a, b, ha, hb, of_decide_eq_true m⟩, ⟨_, w, z, hw, hz, of_decide_eq_true l⟩⟩

/-- A watch hit of register 7 for the group. -/
def hit : Report := ⟨5, 1, 0, 0, 7, 2 ^ 21, 4, 1, [], [], 0, 0x1E200000, 0⟩

theorem witness_DebuggerCommands_watch : (∃ s r u x, s.reports.find? (fun q => q.id == r.id) = some r ∧ unitOf s r.uid = some u ∧ groupOf s r.uid r.g = some x ∧
      bitN (rdReg s (.dbgctl x.core x.slot)) 63 = false) ∧
    ∃ s r u x, s.reports.find? (fun q => q.id == r.id) = some r ∧ unitOf s r.uid = some u ∧ groupOf s r.uid r.g = some x ∧
      bitN (rdReg s (.dbgctl x.core x.slot)) 63 = true ∧ u.chk = false ∧ u.cancel = 0 ∧ x.ended = false ∧ x.dbg.mode = 0 ∧ x.trap = none := by
  obtain ⟨u, x, hu, hx, h⟩ := having_of (s := { resting with reports := [hit] }) (p := fun _ x => decide (bitN (rdReg { resting with reports := [hit] } (.dbgctl x.core x.slot)) 63 = false)) (by decide +kernel)
  obtain ⟨v, y, hv, hy, k⟩ := having_of (s := reg (.dbgctl 0 0) (2 ^ 63) { resting with reports := [hit] }) (p := fun u x => decide (
    bitN (rdReg (reg (.dbgctl 0 0) (2 ^ 63) { resting with reports := [hit] }) (.dbgctl x.core x.slot)) 63 = true ∧ u.chk = false ∧ u.cancel = 0 ∧ x.ended = false ∧ x.dbg.mode = 0 ∧ x.trap = none))
    (by decide +kernel)
  exact ⟨⟨_, hit, u, x, rfl, hu, hx, of_decide_eq_true h⟩, ⟨_, hit, v, y, rfl, hv, hy, of_decide_eq_true k⟩⟩

theorem witness_DebuggerCommands_query : ∀ k ∈ [0, 1, 2, 3], ∃ (s : State) (v : Nat) (u : DUnit) (x : Group) (c : NClass), bitN v 127 = true ∧
    s.units.findSome? (fun u => (u.groups.find? (fun x => x.core == 0 && x.part == fld v 123 120 && x.tslot == fld v 119 116 &&
      x.base == fld v 115 111)).map (fun x => (u, x))) = some (u, x) ∧ fld v 110 108 = k ∧ (k, c) ∈ [(0, NClass.lane), (1, .uniform), (2, .perm), (3, .acc)] := by
  intro k hk
  have f : ∀ k ∈ [0, 1, 2, 3], bitN (2 ^ 127 + k * 2 ^ 108) 127 = true ∧ fld (2 ^ 127 + k * 2 ^ 108) 110 108 = k ∧
    (resting.units.findSome? (fun u => (u.groups.find? (fun x => x.core == 0 && x.part == fld (2 ^ 127 + k * 2 ^ 108) 123 120 && x.tslot == fld (2 ^ 127 + k * 2 ^ 108) 119 116 &&
      x.base == fld (2 ^ 127 + k * 2 ^ 108) 115 111)).map (fun x => (u, x)))).isSome = true := by decide +kernel
  obtain ⟨a, b, h⟩ := f k hk
  obtain ⟨⟨u, x⟩, e⟩ := Option.isSome_iff_exists.mp h
  have c : ∃ c, (k, c) ∈ [(0, NClass.lane), (1, .uniform), (2, .perm), (3, .acc)] := by
    simp only [List.mem_cons, List.not_mem_nil, or_false] at hk
    rcases hk with rfl | rfl | rfl | rfl <;> simp
  obtain ⟨c, hc⟩ := c
  exact ⟨resting, _, u, x, c, a, e, b, hc⟩

/-- The unit has a buffer of 64 KiB on core 0, and its group an operation of a class. -/
def engaged (cls : Nat) (fin : Bool) (s : State) : State :=
  onGroup (fun x => { x with oc := setAt x.oc cls 1, eq := setAt x.eq cls [⟨9, true, fin, [], 0, 0, false, 0, 0, 0, 0⟩] })
    (unit (fun u => { u with bufs := [⟨0, 0, 0, 2 ^ 16⟩] }) s)

/-- A chain at entry `e` of the head at offset 0. -/
def chainAt (e : Nat) (ent : List Byte) : ChainRun := ⟨⟨1, 0, 9, 0, 0, 0⟩, e, ent, [], 0, [], none, 0, false⟩

/-- A channel of core 0 runs a chain. -/
def chained (ch : Nat) (r : ChainRun) (s : State) : State := modChan (engaged (if ch = 4 then 2 else 0) false s) 0 ch (fun c => { c with run := some r })

/-- The 32 bytes of a loop entry (R239). -/
def loopBytes (count back : Nat) : List Byte := bytesOfNat 4 2 ++ bytesOfNat 4 count ++ bytesOfNat 2 back ++ List.replicate 22 0
/-- The 32 bytes of a skip entry: flags, SKIP, the offset of its word, and the value. -/
def skipBytes (f n off v : Nat) : List Byte := bytesOfNat 1 3 ++ bytesOfNat 1 f ++ bytesOfNat 2 n ++ bytesOfNat 4 0 ++ bytesOfNat 8 off ++ bytesOfNat 8 v ++ List.replicate 8 0
/-- The 32 bytes of a signal entry. -/
def signalBytes (k n by_ : Nat) : List Byte := bytesOfNat 1 4 ++ bytesOfNat 1 k ++ bytesOfNat 2 n ++ bytesOfNat 4 by_ ++ List.replicate 24 0
/-- The 32 bytes of a move from scratchpad offset 128 to offset 8192 (R235). -/
def moveBytes (mode aux rowlen rows dstr : Nat) : List Byte :=
  bytesOfNat 1 1 ++ bytesOfNat 1 mode ++ bytesOfNat 1 0 ++ bytesOfNat 1 aux ++ bytesOfNat 2 rowlen ++ bytesOfNat 2 rows ++ bytesOfNat 8 (scratch + 128) ++ bytesOfNat 8 (scratch + 8192) ++
    bytesOfNat 4 rowlen ++ bytesOfNat 4 dstr

theorem test_loop_goes_back : (after (.loopEntry 0 3) (chained 3 (chainAt 5 (loopBytes 1 5)) resting)).map (fun t => (chanOf t 0 3).run.map (fun r => (r.e, r.its.map (fun l => (l.1, l.2.1))))) = some (some (0, [(5, 1)])) := by decide +kernel
theorem test_skip_passes : (after (.skipEntry 0 0) (chained 0 (chainAt 1 (skipBytes 0 3 8192 0)) { resting with mem := Memory.writeAll resting.mem (scratchPa 0 64) (List.replicate 100 1) })).map
    (fun t => (chanOf t 0 0).run.map (fun r => r.e)) = some (some 5) ∧
    (after (.skipEntry 0 0) (chained 0 (chainAt 1 (skipBytes 10 0 8192 0)) resting)).map (fun t => (chanOf t 0 0).run.map (fun r => (r.e, r.since))) = some (some (1, some 0)) := by decide +kernel
theorem test_move : (after (.movePlain 0 1) (chained 1 (chainAt 0 (moveBytes 0 0 3 2 100)) { resting with mem := Memory.writeAll resting.mem (scratchPa 0 128) [1, 2, 3, 4, 5, 6] })).map
    (fun t => ([8192, 8194, 8195, 8292, 8294].map (fun o => Memory.read t.mem (scratchPa 0 o)), (coreOf t 0).cpwp)) = some ([1, 3, 0, 4, 6], [0, 6, 0, 0]) := by decide +kernel

/-- The chain of channel `ch` of core 0 has reached its entry, and `p` holds. -/
def reaching (s : State) (ch : Nat) (r : ChainRun) (p : DUnit → Group → EqEntry → Bool) : Bool :=
  decide ((chanOf s 0 ch).run = some r ∧ r.req.uid = 1 ∧ r.req.g = 0 ∧ r.ended = false ∧ r.since = none ∧ r.due ≤ clkOf s 0 ∧ r.ent ≠ []) &&
  having s (fun u x => match eqOf x (if ch = 4 then 2 else 0) r.req.eq with
    | some q => decide (entryCond s u x r (ch == 4) r.ent = none) && p u x q
    | none => false)

theorem reaching_of {s : State} {ch : Nat} {r : ChainRun} {p : DUnit → Group → EqEntry → Bool} (h : reaching s ch r p = true) :
    ∃ u x q, Reached s 0 ch r u x q r.ent ∧ p u x q = true := by
  obtain ⟨a, b⟩ := and2 h
  obtain ⟨a, b1, b2, c, d, e, f⟩ := of_decide_eq_true a
  obtain ⟨u, x, hu, hx, k⟩ := having_of b
  split at k
  · next q hq => exact ⟨u, x, q, ⟨a, b1 ▸ hu, by rw [b1, b2]; exact hx, hq, ⟨c, d, e⟩, .inr ⟨f, rfl⟩, of_decide_eq_true (and2 k).1⟩, (and2 k).2⟩
  · cases k

/-- The chain waits at channel `ch`. -/
def chainWaits (ch : Nat) : State :=
  modChan (engaged (if ch = 4 then 2 else 0) false resting) 0 ch (fun c => { c with waiting := [⟨1, 0, 9, 0, 0, 0⟩] })

theorem witness_ChainEntries_start : ∀ ch ∈ [0, 3, 4], (chanOf (chainWaits ch) 0 ch).run = none ∧ nextChain (chainWaits ch) 0 ch = some ⟨1, 0, 9, 0, 0, 0⟩ ∧
    mayStart (chainWaits ch) 1 0 (if ch = 4 then 2 else 0) 9 = true := by decide +kernel

theorem witness_ChainEntries_unread : ∃ s r u x q b, Reached s 0 3 r u x q b ∧ r.ent = [] ∧ numAt b 0 1 = 0 := by
  obtain ⟨u, x, hu, hx, k⟩ := having_of (s := chained 3 (chainAt 1 []) resting) (p := fun u x => decide (inBuf u 0 32 32 = true ∧
    entryCond (chained 3 (chainAt 1 []) resting) u x (chainAt 1 []) false (homeRead (chained 3 (chainAt 1 []) resting) (scratchPa 0 32) 32) = none ∧
    eqOf x 0 9 = some ⟨9, true, false, [], 0, 0, false, 0, 0, 0, 0⟩)) (by decide +kernel)
  obtain ⟨a, b, c⟩ := of_decide_eq_true k
  exact ⟨_, chainAt 1 [], u, x, _, _, ⟨by decide +kernel, hu, hx, c, ⟨rfl, rfl, by decide +kernel⟩, .inl ⟨rfl, a, rfl⟩, b⟩, rfl, by decide +kernel⟩

theorem witness_ChainEntries_loop : (∃ s r u x q, Reached s 0 3 r u x q r.ent ∧ numAt r.ent 0 1 = 2 ∧ ((mget r.its r.e).map (fun k => k.1)).getD 0 < numAt r.ent 4 4) ∧
    ∃ s r u x q, Reached s 0 3 r u x q r.ent ∧ numAt r.ent 0 1 = 2 ∧ ((mget r.its r.e).map (fun k => k.1)).getD 0 = numAt r.ent 4 4 := by
  obtain ⟨u, x, q, h, -⟩ := reaching_of (s := chained 3 (chainAt 1023 (loopBytes (2 ^ 32 - 1) 1023)) resting) (ch := 3) (r := chainAt 1023 (loopBytes (2 ^ 32 - 1) 1023))
    (p := fun _ _ _ => true) (by decide +kernel)
  obtain ⟨v, y, p, k, -⟩ := reaching_of (s := chained 3 { chainAt 1 (loopBytes 1 1) with its := [(1, 1, 1, 0, 0)] } resting) (ch := 3) (r := { chainAt 1 (loopBytes 1 1) with its := [(1, 1, 1, 0, 0)] })
    (p := fun _ _ _ => true) (by decide +kernel)
  exact ⟨⟨_, _, u, x, q, h, by decide +kernel⟩, ⟨_, _, v, y, p, k, by decide +kernel⟩⟩

theorem witness_ChainEntries_skip : (∃ s r u x q, Reached s 0 0 r u x q r.ent ∧ numAt r.ent 0 1 = 3 ∧ r.req.slot < 8 ∧ bitN (numAt r.ent 1 1) 3 = true ∧
      SkipRel (numAt r.ent 1 1 / 2 % 4) (skipValue s 0 r r.ent) (numAt r.ent 16 8)) ∧
    (∃ s r u x q, Reached s 0 0 r u x q r.ent ∧ numAt r.ent 0 1 = 3 ∧ r.req.slot < 8 ∧ bitN (numAt r.ent 1 1) 3 = true ∧
      ¬ SkipRel (numAt r.ent 1 1 / 2 % 4) (skipValue s 0 r r.ent) (numAt r.ent 16 8)) ∧
    (∃ s r u x q, Reached s 0 0 r u x q r.ent ∧ numAt r.ent 0 1 = 3 ∧ r.req.slot < 8 ∧ bitN (numAt r.ent 1 1) 3 = false ∧
      ¬ SkipRel (numAt r.ent 1 1 / 2 % 4) (skipValue s 0 r r.ent) (numAt r.ent 16 8)) ∧
    ∃ s r u x q, Reached s 0 0 r u x q r.ent ∧ numAt r.ent 0 1 = 3 ∧ r.req.slot < 8 ∧ bitN (numAt r.ent 1 1) 3 = false ∧
      SkipRel (numAt r.ent 1 1 / 2 % 4) (skipValue s 0 r r.ent) (numAt r.ent 16 8) ∧ skipPassesEnd s u 0 r (numAt r.ent 2 2) = false := by
  obtain ⟨u, x, q, h, -⟩ := reaching_of (s := chained 0 (chainAt 0 (skipBytes 14 0 0x2FFFF8 0)) resting) (ch := 0) (r := chainAt 0 (skipBytes 14 0 0x2FFFF8 0)) (p := fun _ _ _ => true) (by decide +kernel)
  obtain ⟨v, y, p, k, -⟩ := reaching_of (s := chained 0 (chainAt 0 (skipBytes 12 0 0 0)) resting) (ch := 0) (r := chainAt 0 (skipBytes 12 0 0 0)) (p := fun _ _ _ => true) (by decide +kernel)
  obtain ⟨w, z, o, l, -⟩ := reaching_of (s := chained 0 (chainAt 0 (skipBytes 2 1 0 0)) resting) (ch := 0) (r := chainAt 0 (skipBytes 2 1 0 0)) (p := fun _ _ _ => true) (by decide +kernel)
  let s4 : State := chained 0 (chainAt 1 (skipBytes 0 3 8192 0)) { resting with mem := Memory.writeAll resting.mem (scratchPa 0 64) (List.replicate 100 1) }
  obtain ⟨a, b, c, m, f⟩ := reaching_of (s := s4) (ch := 0) (r := chainAt 1 (skipBytes 0 3 8192 0)) (p := fun u _ _ => !skipPassesEnd s4 u 0 (chainAt 1 (skipBytes 0 3 8192 0)) 3) (by decide +kernel)
  exact ⟨⟨_, _, u, x, q, h, by decide +kernel, by decide, by decide +kernel, .inr (.inr (.inr (by decide +kernel)))⟩,
    ⟨_, _, v, y, p, k, by decide +kernel, by decide, by decide +kernel, by unfold SkipRel; decide +kernel⟩,
    ⟨_, _, w, z, o, l, by decide +kernel, by decide, by decide +kernel, by unfold SkipRel; decide +kernel⟩,
    ⟨_, _, a, b, c, m, by decide +kernel, by decide, by decide +kernel, .inl (by decide +kernel), by rw [show numAt (chainAt 1 (skipBytes 0 3 8192 0)).ent 2 2 = 3 by decide +kernel]; simpa using f⟩⟩

/-- The unit has a barrier cell 63 of many arrivals. -/
def celled (s : State) : State := unit (fun u => { u with bars := [⟨63, 0, 0, 0, 5, false, [], []⟩] }) s

theorem witness_ChainEntries_signal : (∃ s r u x q c, Reached s 0 4 r u x q r.ent ∧ numAt r.ent 0 1 = 4 ∧ numAt r.ent 1 1 = 0 ∧ u.chk = false ∧ cellOf u (numAt r.ent 2 1) = some c ∧ u.cancel = 0 ∧
      c.cnt + 1 ≠ c.tgt) ∧
    (∃ s r u x q, Reached s 0 3 r u x q r.ent ∧ numAt r.ent 0 1 = 4 ∧ numAt r.ent 1 1 = 1) ∧ ∃ s r u x q, Reached s 0 3 r u x q r.ent ∧ numAt r.ent 0 1 = 0 := by
  obtain ⟨u, x, q, h, f⟩ := reaching_of (s := chained 4 (chainAt 0 (signalBytes 0 63 0)) (celled resting)) (ch := 4) (r := chainAt 0 (signalBytes 0 63 0))
    (p := fun u _ _ => decide (u.chk = false ∧ cellOf u 63 = some ⟨63, 0, 0, 0, 5, false, [], []⟩ ∧ u.cancel = 0)) (by decide +kernel)
  obtain ⟨f1, f2, f3⟩ := of_decide_eq_true f
  obtain ⟨v, y, p, k, -⟩ := reaching_of (s := chained 3 (chainAt 0 (signalBytes 1 0 (2 ^ 32 - 1))) resting) (ch := 3) (r := chainAt 0 (signalBytes 1 0 (2 ^ 32 - 1))) (p := fun _ _ _ => true) (by decide +kernel)
  obtain ⟨w, z, o, l, -⟩ := reaching_of (s := chained 3 (chainAt 0 (List.replicate 32 0)) resting) (ch := 3) (r := chainAt 0 (List.replicate 32 0)) (p := fun _ _ _ => true) (by decide +kernel)
  exact ⟨⟨_, _, u, x, q, ⟨63, 0, 0, 0, 5, false, [], []⟩, h, by decide +kernel, by decide +kernel, f1, f2, f3, by decide⟩, ⟨_, _, v, y, p, k, by decide +kernel, by decide +kernel⟩,
    ⟨_, _, w, z, o, l, by decide +kernel⟩⟩

/-- A skip of relation `f` waits since clock 0. -/
def waitingSkip (f : Nat) : ChainRun := { chainAt 7 (skipBytes (8 + 2 * f) 0 0x2FFFF8 0) with since := some 0 }

theorem witness_ChainEntries_wait : (∃ s r u, (chanOf s 0 0).run = some r ∧ r.since ≠ none ∧ unitOf s r.req.uid = some u ∧ u.cancel ≠ 0) ∧
    (∃ s r u, (chanOf s 0 0).run = some r ∧ r.since ≠ none ∧ unitOf s r.req.uid = some u ∧ u.cancel = 0 ∧ r.due ≤ clkOf s 0 ∧ r.ended = false ∧
      SkipRel (numAt r.ent 1 1 / 2 % 4) (skipValue s 0 r r.ent) (numAt r.ent 16 8)) ∧
    ∃ s r u, (chanOf s 0 0).run = some r ∧ r.since ≠ none ∧ unitOf s r.req.uid = some u ∧ u.cancel = 0 ∧
      ¬ SkipRel (numAt r.ent 1 1 / 2 % 4) (skipValue s 0 r r.ent) (numAt r.ent 16 8) := by
  obtain ⟨u, x, hu, -, h⟩ := having_of (s := unit (fun u => { u with cancel := 1 }) (chained 0 (waitingSkip 1) resting)) (p := fun u _ => decide (u.cancel ≠ 0)) (by decide +kernel)
  obtain ⟨v, y, hv, -, k⟩ := having_of (s := chained 0 (waitingSkip 3) resting) (p := fun u _ => decide (u.cancel = 0)) (by decide +kernel)
  obtain ⟨w, z, hw, -, l⟩ := having_of (s := chained 0 (waitingSkip 1) resting) (p := fun u _ => decide (u.cancel = 0)) (by decide +kernel)
  exact ⟨⟨_, waitingSkip 1, u, by decide +kernel, by decide, hu, of_decide_eq_true h⟩,
    ⟨_, waitingSkip 3, v, by decide +kernel, by decide, hv, of_decide_eq_true k, by decide +kernel, rfl, .inr (.inr (.inr (by decide +kernel)))⟩,
    ⟨_, waitingSkip 1, w, by decide +kernel, by decide, hw, of_decide_eq_true l, by unfold SkipRel; decide +kernel⟩⟩

theorem witness_ChainEntries_limit : ∃ s r u x q, (chanOf s 0 4).run = some r ∧ r.since = some 0 ∧ 0 + 2 ^ 24 ≤ clkOf s 0 ∧
    ¬ SkipRel (numAt r.ent 1 1 / 2 % 4) (skipValue s 0 r r.ent) (numAt r.ent 16 8) ∧ unitOf s r.req.uid = some u ∧ u.cancel = 0 ∧ groupOf s r.req.uid r.req.g = some x ∧
    eqOf x 2 r.req.eq = some q ∧ x.trap = none ∧ x.ended = false ∧ inHandler x = false := by
  obtain ⟨u, x, hu, hx, h⟩ := having_of (s := core (fun c => { c with clk := 2 ^ 24 }) (chained 4 (waitingSkip 2) resting))
    (p := fun u x => decide (u.cancel = 0 ∧ eqOf x 2 9 = some ⟨9, true, false, [], 0, 0, false, 0, 0, 0, 0⟩ ∧ x.trap = none ∧ x.ended = false ∧ inHandler x = false)) (by decide +kernel)
  obtain ⟨a, b, c⟩ := of_decide_eq_true h
  exact ⟨_, waitingSkip 2, u, x, _, by decide +kernel, rfl, by decide +kernel, by unfold SkipRel; decide +kernel, hu, a, hx, b, c⟩

theorem witness_ChainEntries_finish : (∃ s r x q, (chanOf s 0 4).run = some r ∧ r.ended = true ∧ groupOf s r.req.uid r.req.g = some x ∧ eqOf x 2 r.req.eq = some q) ∧
    ∃ (s : State) (x : Group) (e : EqEntry) (l : List EqEntry), groupOf s 1 0 = some x ∧ (x.eq[4]?).getD [] = e :: l ∧ e.fin = true ∧ ∀ r ∈ s.reports, e.id = 0 ∨ r.eq ≠ e.id := by
  obtain ⟨u, x, -, hx, h⟩ := having_of (s := chained 4 { chainAt 1 [] with ended := true } resting) (p := fun _ x => decide (eqOf x 2 9 = some ⟨9, true, false, [], 0, 0, false, 0, 0, 0, 0⟩)) (by decide +kernel)
  obtain ⟨v, y, -, hy, k⟩ := having_of (s := engaged 4 true resting) (p := fun _ x => decide ((x.eq[4]?).getD [] = [(⟨9, true, true, [], 0, 0, false, 0, 0, 0, 0⟩ : EqEntry)])) (by decide +kernel)
  exact ⟨⟨_, { chainAt 1 [] with ended := true }, x, _, by decide +kernel, rfl, hx, of_decide_eq_true h⟩, ⟨_, y, _, [], hy, of_decide_eq_true k, rfl, fun r hr => nomatch hr⟩⟩

theorem mget_absent {α : Type} {m : NMap α} {k : Nat} (h : ∀ p ∈ m, p.1 ≠ k) : mget m k = none := by
  induction m with
  | nil => rfl
  | cons p m ih => rw [mget, if_neg (h p (List.mem_cons_self ..)), ih fun q hq => h q (List.mem_cons_of_mem _ hq)]

theorem noWatch_of {s : State} (h : s.regs.all (fun p => decide (p.1 < 2 ^ 32 * 24)) = true) : NoWatch s := fun d n => by
  have e : mget s.regs (regKey (.watch d n)) = none := mget_absent fun p hp => by
    have := of_decide_eq_true (List.all_eq_true.mp h p hp)
    simp only [regKey]
    omega
  rw [rdReg, e]
  exact (by decide : bitN 0 127 = false)

/-- The next bytes of a move can be read and written. -/
def movable (s : State) (ch : Nat) (r : ChainRun) : Bool :=
  reaching s ch r (fun u x q =>
    let m := moveOf { r with ent := r.ent } r.ent
    match readSegs s (chainCmd s x 0 ch r q) m r.prog
      (segsFrom m (if numAt r.ent 1 1 = 1 then permMap (if r.perm.isEmpty then permNow s u x m.aux else r.perm) else []) 64 r.prog (Nat.min 64 (m.total - r.prog))) with
    | (.bytes _, parts) => (runsCond s (chainCmd s x 0 ch r q) m (joinRuns parts)).isNone && (permFails s u x (numAt r.ent 3 1)).isNone
    | _ => false)

/-- Channel, run and state of a move of each mode: the last bytes of a plain move and the first of one, a permuting move, a transposing one and a quantising one. -/
def moves : List (Nat × ChainRun × State) :=
  [(3, { chainAt 0 (moveBytes 0 0 100 1 0) with prog := 64 }, resting), (3, chainAt 0 (moveBytes 0 0 65535 1 0), resting),
   (0, chainAt 0 (moveBytes 1 0 8 8 8), perm 0 (oneSwitch 0) (issuing (.plIdx 1 0))),
   (1, chainAt 0 (moveBytes 2 3 128 32 4096), resting), (4, chainAt 0 (moveBytes 3 1 128 1 33), resting)]

theorem moves_movable : moves.all (fun m => movable (chained m.1 m.2.1 m.2.2) m.1 m.2.1) = true := by decide +kernel

theorem witness_MoveEntries : ∀ p ∈ moves, ∃ u x q z parts, Reached (chained p.1 p.2.1 p.2.2) 0 p.1 p.2.1 u x q p.2.1.ent ∧ numAt p.2.1.ent 0 1 = 1 ∧ numAt p.2.1.ent 1 1 < 4 ∧
    NoWatch (chained p.1 p.2.1 p.2.2) ∧ MemoryGood (chained p.1 p.2.1 p.2.2) ∧ permFails (chained p.1 p.2.1 p.2.2) u x (numAt p.2.1.ent 3 1) = none ∧
    let s := chained p.1 p.2.1 p.2.2
    let r := p.2.1
    let m := moveOf { r with ent := r.ent } r.ent
    let c := chainCmd s x 0 p.1 r q
    readSegs s c m r.prog (segsFrom m (if numAt r.ent 1 1 = 1 then permMap (if r.perm.isEmpty then permNow s u x m.aux else r.perm) else []) 64 r.prog (Nat.min 64 (m.total - r.prog))) =
      (.bytes z, parts) ∧ runsCond s c m (joinRuns parts) = none := by
  intro p hp
  obtain ⟨u, x, q, h, k⟩ := reaching_of (List.all_eq_true.mp moves_movable p hp)
  have e : moves.all (fun p => decide (numAt p.2.1.ent 0 1 = 1 ∧ numAt p.2.1.ent 1 1 < 4 ∧ (chained p.1 p.2.1 p.2.2).regs.all (fun p => decide (p.1 < 2 ^ 32 * 24)) = true ∧ memGood (chained p.1 p.2.1 p.2.2) = true)) = true := by decide +kernel
  obtain ⟨e1, e2, e3, e4⟩ := of_decide_eq_true (List.all_eq_true.mp e p hp)
  dsimp only at k
  split at k
  · next z parts f => exact ⟨u, x, q, z, parts, h, e1, e2, noWatch_of e3, memGood_of e4, Option.isNone_iff_eq_none.mp (and2 k).2, f, Option.isNone_iff_eq_none.mp (and2 k).1⟩
  · cases k

/-- A quantising move of one block of f32 in lt8, R115's own example: 40.0, -3.3 and 0.001, which give 0x74, 0xBD and 0x08, and the scale byte 0x81. -/
theorem test_quantise : (after (.moveQuantise 0 4) (chained 4 (chainAt 0 (moveBytes 3 1 128 1 33))
      { resting with mem := Memory.writeAll resting.mem (scratchPa 0 128) (bytesOfWords [0x42200000, 0xC0533333, 0x3A83126F]) })).map
    (fun t => [0, 1, 2, 3, 31, 32].map (fun o => Memory.read t.mem (scratchPa 0 (8192 + o)))) = some [0x74, 0xBD, 0x08, 0, 0, 0x81] := by decide +kernel

/-- A block of one value that is 0. -/
theorem quantised_zero (n : Nat) (x : Fl) (h : x.finite = true) (h0 : flQ x = 0) : Quantised 1 (List.replicate n x) ((List.replicate n x).map (fun x => toLt8 1 (shiftFl 0 x))) 127 := by
  refine ⟨fun ⟨y, hy, k⟩ => ?_, fun _ => ⟨0, by decide, by decide, by decide, rfl, fun _ => rfl, fun ⟨y, hy, k⟩ => ?_⟩⟩
  · rw [List.eq_of_mem_replicate hy, h] at k
    cases k
  · rw [List.eq_of_mem_replicate hy] at k
    exact absurd h0 k

/-- The 33 bytes of a quantised block of zeros. -/
def zeroBlock : List Byte := (List.range 33).map (fun o => if o < 32 then codeByte 1 ((List.replicate 32 (f32.val 0)).map (fun x => toLt8 1 (shiftFl 0 x))) o else 127)

/-- The move that makes it. -/
def quantRun : ChainRun := chainAt 0 (moveBytes 3 1 128 1 33)

theorem witness_MoveEntries_quantise : ∃ s u x q w, Reached s 0 4 quantRun u x q quantRun.ent ∧ NoWatch s ∧ MemoryGood s ∧ (moveOf quantRun quantRun.ent).mcast = 0 ∧ (moveOf quantRun quantRun.ent).rowDst = 33 ∧
    Nat.min 64 ((moveOf quantRun quantRun.ent).total - quantRun.prog) = 33 ∧ zeroBlock.length = 33 ∧
    (∀ j v, zeroBlock[j]? = some v → QuantByte s (chainCmd s x 0 4 quantRun q) (moveOf quantRun quantRun.ent) 0 (0 + j) v) ∧
    engWrite s (chainCmd s x 0 4 quantRun q) [(((moveOf quantRun quantRun.ent).dst + 0 * (moveOf quantRun quantRun.ent).dstr + 0) % 2 ^ 64, zeroBlock)] = .ok w := by
  obtain ⟨u, x, q, h, k⟩ := reaching_of (s := chained 4 quantRun resting) (ch := 4) (r := quantRun) (p := fun _ x q =>
    (match engRead (chained 4 quantRun resting) (chainCmd (chained 4 quantRun resting) x 0 4 quantRun q) (scratch + 128) 128 with | .bytes bs => decide (bs = List.replicate 128 0) | _ => false) &&
    (match engWrite (chained 4 quantRun resting) (chainCmd (chained 4 quantRun resting) x 0 4 quantRun q) [(scratch + 8192, zeroBlock)] with | .ok _ => true | .error _ => false)) (by decide +kernel)
  obtain ⟨k1, k2⟩ := and2 k
  split at k1
  · next bs e =>
    rw [of_decide_eq_true k1] at e
    split at k2
    · next w g =>
      refine ⟨_, u, x, q, w, h, noWatch_of (by decide +kernel), memGood_of (by decide +kernel), by decide +kernel, by decide +kernel, by decide +kernel, by decide +kernel, fun j v hj => ?_, g⟩
      have z : (List.range 32).map (fun i => f32.val (numAt (List.replicate 128 0) (4 * i) 4)) = List.replicate 32 (f32.val 0) := by decide +kernel
      have fz : f32.val 0 = .fin false 0 (-149) := by decide +kernel
      have lt : j < 33 := by
        have := (List.getElem?_eq_some_iff.mp hj).1
        simpa [zeroBlock] using this
      rw [Nat.zero_add]
      refine ⟨List.replicate 128 0, (List.replicate 32 (f32.val 0)).map (fun x => toLt8 1 (shiftFl 0 x)), 127, ?_, ?_, ?_⟩
      · rw [show ((moveOf quantRun quantRun.ent).src + 0 * (moveOf quantRun quantRun.ent).sstr + _ * _) % 2 ^ 64 = scratch + 128 from ?_]
        · exact e
        · have a : ∀ j < 33, ((moveOf quantRun quantRun.ent).src + 0 * (moveOf quantRun quantRun.ent).sstr + (if j < 1 * 32 then j / 32 else j - 1 * 32) * 128) % 2 ^ 64 = scratch + 128 := by decide +kernel
          exact a j lt
      · show Quantised 1 ((List.range 32).map (fun i => f32.val (numAt (List.replicate 128 0) (4 * i) 4))) _ 127
        rw [z]
        exact quantised_zero 32 _ (by rw [fz]; rfl) (by rw [fz]; simp [flQ])
      · have b : zeroBlock[j]? = some (if j < 32 then codeByte 1 ((List.replicate 32 (f32.val 0)).map (fun x => toLt8 1 (shiftFl 0 x))) j else 127) := by
          simp [zeroBlock, List.getElem?_map, List.getElem?_range lt]
        rw [b] at hj
        cases hj
        show _ = if j < 1 * 32 then codeByte 1 _ (j % 32) else _
        by_cases c : j < 32
        · rw [if_pos c, if_pos (by omega), Nat.mod_eq_of_lt c]
        · rw [if_neg c, if_neg (by omega)]
          rfl
    · cases k2
  · cases k1

/-- A transposing move of a panel of 16-bit elements. -/
def transRun : ChainRun := chainAt 0 (moveBytes 2 3 128 32 4096)

theorem witness_MoveEntries_transpose : ∃ s u x q w, Reached s 0 1 transRun u x q transRun.ent ∧ NoWatch s ∧ MemoryGood s ∧ (moveOf transRun transRun.ent).mcast = 0 ∧
    Nat.min 64 ((moveOf transRun transRun.ent).total - transRun.prog) = 64 ∧
    (∀ j v, (List.replicate 64 (0 : Byte))[j]? = some v → TransposedByte s (chainCmd s x 0 1 transRun q) (moveOf transRun transRun.ent) (0 + j) (0 + j) v) ∧
    engWrite s (chainCmd s x 0 1 transRun q) [(((moveOf transRun transRun.ent).dst + 0) % 2 ^ 64, List.replicate 64 0)] = .ok w := by
  obtain ⟨u, x, q, h, k⟩ := reaching_of (s := chained 1 transRun resting) (ch := 1) (r := transRun) (p := fun _ x q =>
    (List.range 64).all (fun j => match engRead (chained 1 transRun resting) (chainCmd (chained 1 transRun resting) x 0 1 transRun q)
      (((moveOf transRun transRun.ent).src + (32 * (j / 4096) + j % 64 / 2) * (moveOf transRun transRun.ent).sstr + 2 * (j % 4096 / 64)) % 2 ^ 64) 2 with | .bytes bs => decide (bs = [0, 0]) | _ => false) &&
    (match engWrite (chained 1 transRun resting) (chainCmd (chained 1 transRun resting) x 0 1 transRun q) [(scratch + 8192, List.replicate 64 0)] with | .ok _ => true | .error _ => false)) (by decide +kernel)
  obtain ⟨k1, k2⟩ := and2 k
  split at k2
  · next w g =>
    refine ⟨_, u, x, q, w, h, noWatch_of (by decide +kernel), memGood_of (by decide +kernel), by decide +kernel, by decide +kernel, fun j v hj => ?_, g⟩
    obtain ⟨lt, rfl⟩ := List.getElem?_eq_some_iff.mp hj
    simp only [List.length_replicate] at lt
    have k := List.all_eq_true.mp k1 j (List.mem_range.mpr lt)
    split at k
    · next bs e =>
      rw [of_decide_eq_true k] at e
      rw [Nat.zero_add, List.getElem_replicate]
      show if j < 1 * 4096 then _ else _
      rw [if_pos (by omega)]
      refine ⟨rfl, [0, 0], ?_, ?_⟩
      · exact e
      · have two : ∀ n, (([0, 0] : List Byte)[n % 2]?).getD 0 = 0 := fun n => by rcases Nat.mod_two_eq_zero_or_one n with c | c <;> rw [c] <;> rfl
        exact (two _).symm
    · cases k
  · cases k2

/-- The last 36 bytes of a plain move. -/
def lastRow : ChainRun := { chainAt 0 (moveBytes 0 0 100 1 0) with prog := 64 }

theorem witness_MoveEntries_row : ∃ s u x q bs w, Reached s 0 3 lastRow u x q lastRow.ent ∧ (moveOf lastRow lastRow.ent).mcast = 0 ∧
    lastRow.prog % (moveOf lastRow lastRow.ent).rowlen + 36 ≤ (moveOf lastRow lastRow.ent).rowlen ∧ Nat.min 64 ((moveOf lastRow lastRow.ent).total - lastRow.prog) = 36 ∧
    ((moveOf lastRow lastRow.ent).src + lastRow.prog / (moveOf lastRow lastRow.ent).rowlen * (moveOf lastRow lastRow.ent).sstr + lastRow.prog % (moveOf lastRow lastRow.ent).rowlen) % 2 ^ 64 = scratch + 192 ∧
    ((moveOf lastRow lastRow.ent).dst + lastRow.prog / (moveOf lastRow lastRow.ent).rowlen * (moveOf lastRow lastRow.ent).dstr + lastRow.prog % (moveOf lastRow lastRow.ent).rowlen) % 2 ^ 64 = scratch + 8256 ∧
    engRead s (chainCmd s x 0 3 lastRow q) (scratch + 192) 36 = .bytes bs ∧ bs.length = 36 ∧ engWrite s (chainCmd s x 0 3 lastRow q) [(scratch + 8256, bs)] = .ok w := by
  obtain ⟨u, x, q, h, k⟩ := reaching_of (s := chained 3 lastRow resting) (ch := 3) (r := lastRow) (p := fun _ x q =>
    match engRead (chained 3 lastRow resting) (chainCmd (chained 3 lastRow resting) x 0 3 lastRow q) (scratch + 192) 36 with
    | .bytes bs => bs.length == 36 && (match engWrite (chained 3 lastRow resting) (chainCmd (chained 3 lastRow resting) x 0 3 lastRow q) [(scratch + 8256, bs)] with | .ok _ => true | .error _ => false)
    | _ => false) (by decide +kernel)
  have f : (moveOf lastRow lastRow.ent).mcast = 0 ∧
    lastRow.prog % (moveOf lastRow lastRow.ent).rowlen + 36 ≤ (moveOf lastRow lastRow.ent).rowlen ∧ Nat.min 64 ((moveOf lastRow lastRow.ent).total - lastRow.prog) = 36 ∧
    ((moveOf lastRow lastRow.ent).src + lastRow.prog / (moveOf lastRow lastRow.ent).rowlen * (moveOf lastRow lastRow.ent).sstr + lastRow.prog % (moveOf lastRow lastRow.ent).rowlen) % 2 ^ 64 = scratch + 192 ∧
    ((moveOf lastRow lastRow.ent).dst + lastRow.prog / (moveOf lastRow lastRow.ent).rowlen * (moveOf lastRow lastRow.ent).dstr + lastRow.prog % (moveOf lastRow lastRow.ent).rowlen) % 2 ^ 64 = scratch + 8256 := by
    decide +kernel
  split at k
  · next bs e =>
    obtain ⟨k1, k2⟩ := and2 k
    split at k2
    · next w g => exact ⟨_, u, x, q, bs, w, h, f.1, f.2.1, f.2.2.1, f.2.2.2.1, f.2.2.2.2, e, beq_iff_eq.mp k1, g⟩
    · cases k2
  · cases k

/-- An operation of the window port of the group. -/
def porting (arg stage : Nat) (s : State) : State :=
  onGroup (fun x => { x with oc := setAt x.oc 4 1, eq := setAt x.eq 4 [⟨9, stage != 0, false, [], stage, arg, false, 0, 0, 0, 0⟩] })
    (unit (fun u => { u with bufs := [⟨0, 0, 0, 2 ^ 16⟩] }) s)

/-- The window's table entry. -/
def windowEntry : Nat := 2 ^ 255 + 5 * 2 ^ 188 + (lowVa + 2 ^ 16) * 2 ^ 132 + 64 * 2 ^ 92 + (lowVa + 2 ^ 17) * 2 ^ 36

/-- Window 1023 of die 0: domain 0 to its own, in address space 5, of 64 bytes at PA 2^16, its arrived cell at PA 2^17. -/
def windowed : State :=
  reg (.wintab 0 1023) windowEntry tabled

/-- A descriptor of 16 bytes to or from the window's last 16, at scratchpad offset 64 (R243). -/
def described (loc ack : Nat) : List Byte :=
  bytesOfNat 2 1023 ++ List.replicate 6 0 ++ bytesOfNat 8 loc ++ bytesOfNat 8 48 ++ bytesOfNat 4 16 ++ bytesOfNat 4 0 ++ bytesOfNat 8 ack ++ List.replicate 24 0

/-- The state with a descriptor, and the group's operation on it. -/
def portingAt (get : Bool) (loc ack : Nat) : State :=
  let s := porting (64 + if get then 2 ^ 32 else 0) 0 windowed
  { s with mem := Memory.writeAll s.mem (scratchPa 0 64) (described loc ack) }

theorem test_window_put : (after (.windowPut 1 0) { portingAt false (2 ^ 21 + 256) (2 ^ 21 + 512) with mem := Memory.writeAll (portingAt false (2 ^ 21 + 256) (2 ^ 21 + 512)).mem 256 [1, 2, 3] }).map
    (fun t => [47, 48, 49, 50, 51].map (fun o => Memory.read t.mem (2 ^ 16 + o))) = some [0, 1, 2, 3, 0] := by decide +kernel
theorem test_window_cells : (after (.putArrivedAdvance 1 0) (porting (windowArg 300 (2 ^ 21 + 512) 0 windowEntry 64) 1 windowed)).map (fun t => [0, 1].map (fun o => Memory.read t.mem (2 ^ 17 + o))) = some [44, 1] ∧
    (after (.putAckedAdvance 1 0) (porting (windowArg 300 (2 ^ 21 + 512) 0 windowEntry 64) 2 windowed)).map (fun t => [0, 1].map (fun o => Memory.read t.mem (512 + o))) = some [44, 1] := by decide +kernel

/-- The group's next window operation, of which `p` holds. -/
def porters (s : State) (o : Option (Group × EqEntry)) (p : Group → EqEntry → Bool) : Bool :=
  (s.regs.all (fun p => decide (p.1 < 2 ^ 32 * 24))) && o.any (fun k => p k.1 k.2)

theorem porters_of {s : State} {o : Option (Group × EqEntry)} {p : Group → EqEntry → Bool} (h : porters s o p = true) : NoWatch s ∧ ∃ x e, o = some (x, e) ∧ p x e = true := by
  obtain ⟨a, b⟩ := and2 h
  obtain ⟨⟨x, e⟩, q, k⟩ := (Option.any_eq_true _ _).mp b
  exact ⟨noWatch_of a, x, e, q, k⟩

/-- A check answers one piece. -/
def onePiece (r : Except ((Nat × Nat) × Nat) (List (Nat × Nat × Nat))) (l : List (Nat × Nat × Nat)) : Bool := match r with | .ok k => decide (k = l) | .error _ => false

theorem onePiece_of {r : Except ((Nat × Nat) × Nat) (List (Nat × Nat × Nat))} {l : List (Nat × Nat × Nat)} (h : onePiece r l = true) : r = .ok l := by
  unfold onePiece at h
  split at h
  · next k => rw [of_decide_eq_true h]
  · cases h

/-- A piece's check answers an address. -/
def pieceAt (r : Except (Nat × Nat) Nat) (pa : Nat) : Bool := match r with | .ok k => decide (k = pa) | .error _ => false

theorem pieceAt_of {r : Except (Nat × Nat) Nat} {pa : Nat} (h : pieceAt r pa = true) : r = .ok pa := by
  unfold pieceAt at h
  split at h
  · next k => rw [of_decide_eq_true h]
  · cases h

theorem plain_hbm {pa : Nat} (h : (match plocOf pa with | .hbm _ => true | _ => false) = true) : Plain pa := by
  split at h
  · next d e => exact .inl ⟨d, e⟩
  · cases h

theorem witness_WindowOperations_put : ∃ s x e w d bs va pa a, nextWindow s 1 0 false = some (x, e) ∧ windowCond s x e false = none ∧ d = wdescOf (descBytes s x e) ∧
    w = windowOf s (dieOfCore x.core) d.widx ∧ w.far s = false ∧ engCheck s x.core x.asid x.dom true [(d.acka, 8)] = .ok a ∧
    engRead s (winCmd 1 x e) d.loc d.len = .bytes bs ∧ NoWatch s ∧ MemoryGood s ∧
    targetCheck s w.tdie w.tasid w.tdom true (pieces (bs.length + 1) (w.base + d.toff) bs.length) = .ok [(va, pa, bs.length)] ∧ va = w.base + d.toff ∧ Plain pa := by
  let s := portingAt false (2 ^ 21 + 256) (2 ^ 21 + 512)
  obtain ⟨n, x, e, q, k⟩ := porters_of (s := s) (o := nextWindow s 1 0 false) (p := fun x e =>
    decide (windowCond s x e false = none ∧ x.core = 0) && (match engCheck s x.core x.asid x.dom true [(2 ^ 21 + 512, 8)] with | .ok _ => true | .error _ => false) &&
    (match engRead s (winCmd 1 x e) (2 ^ 21 + 256) 16 with | .bytes bs => decide (bs = List.replicate 16 0) | _ => false) &&
    decide (wdescOf (descBytes s x e) = ⟨1023, 2 ^ 21 + 256, 48, 16, 2 ^ 21 + 512⟩)) (by decide +kernel)
  obtain ⟨k, k4⟩ := and2 k
  obtain ⟨k, k3⟩ := and2 k
  obtain ⟨k1, k2⟩ := and2 k
  have k4 := of_decide_eq_true k4
  have k1 := of_decide_eq_true k1
  split at k2
  · next a ha =>
    split at k3
    · next bs hb =>
      have k3 := of_decide_eq_true k3
      subst k3
      refine ⟨s, x, e, windowOf s 0 1023, ⟨1023, 2 ^ 21 + 256, 48, 16, 2 ^ 21 + 512⟩, _, lowVa + 2 ^ 16 + 48, 2 ^ 16 + 48, a, q, k1.1, k4.symm, by rw [k1.2]; rfl, by decide +kernel, ha, hb, n, memGood_of (by decide +kernel), ?_, by decide +kernel,
        plain_hbm (by decide +kernel)⟩
      exact onePiece_of (by decide +kernel)
    · cases k3
  · cases k2

/-- The argument of an operation under way: window 1023, 16 bytes, a cell or place, the window's last 16 bytes. -/
def portArg (va : Nat) : Nat := windowArg 16 va 48 windowEntry 64

theorem witness_WindowOperations_arrived : ∃ s x e w pa, windowAt s 1 0 1 = some (x, e) ∧ w = argWindow e.arg ∧ w.far s = false ∧ (dieOf s w.tdie).safe = false ∧
    targetPiece s w.tdie w.tasid w.tdom true w.arrv 8 = .ok pa ∧ Plain pa ∧ poisoned s pa 8 = none ∧ MemoryGood s ∧ ∀ p ∈ (coreOf s x.core).pool, p.buffered = false := by
  let s := porting (portArg 0) 1 windowed
  obtain ⟨-, x, e, q, k⟩ := porters_of (s := s) (o := windowAt s 1 0 1) (p := fun x e => decide (x.core = 0 ∧ e.arg = portArg 0 ∧ ∀ p ∈ (coreOf s x.core).pool, p.buffered = false)) (by decide +kernel)
  obtain ⟨k1, k2, k3⟩ := of_decide_eq_true k
  exact ⟨s, x, e, argWindow (portArg 0), 2 ^ 17, q, by rw [k2], by decide +kernel, by decide +kernel, pieceAt_of (by decide +kernel), plain_hbm (by decide +kernel), by decide +kernel,
    memGood_of (by decide +kernel), k3⟩

theorem witness_WindowOperations_acked : ∃ s x e pa, windowAt s 1 0 2 = some (x, e) ∧ ((argWindow e.arg).far s = true ∨ (dieOf s (argWindow e.arg).tdie).safe = false) ∧ engCheck s x.core x.asid x.dom true [(argLoc e.arg, 8)] = .ok [(argLoc e.arg, pa, 8)] ∧ Plain pa ∧ poisoned s pa 8 = none ∧ MemoryGood s ∧
    (∀ p ∈ (coreOf s x.core).pool, p.buffered = false) ∧ ∀ r ∈ s.reports, e.id = 0 ∨ r.eq ≠ e.id := by
  let s := porting (portArg (2 ^ 21 + 512)) 2 windowed
  obtain ⟨-, x, e, q, k⟩ := porters_of (s := s) (o := windowAt s 1 0 2) (p := fun x e => onePiece (engCheck s x.core x.asid x.dom true [(argLoc e.arg, 8)]) [(argLoc e.arg, 512, 8)] &&
    decide ((∀ p ∈ (coreOf s x.core).pool, p.buffered = false) ∧ (dieOf s (argWindow e.arg).tdie).safe = false)) (by decide +kernel)
  have h := of_decide_eq_true (and2 k).2
  exact ⟨s, x, e, 512, q, .inr h.2, onePiece_of (and2 k).1, plain_hbm (by decide +kernel), by decide +kernel, memGood_of (by decide +kernel), h.1, fun r hr => nomatch hr⟩

theorem witness_WindowOperations_get : ∃ s x e d l, nextWindow s 1 0 true = some (x, e) ∧ windowCond s x e true = none ∧ d = wdescOf (descBytes s x e) ∧
    engCheck s x.core x.asid x.dom true (pieces (d.len + 1) d.loc d.len) = .ok l := by
  let s := portingAt true (2 ^ 21 + 256) 0
  obtain ⟨-, x, e, q, k⟩ := porters_of (s := s) (o := nextWindow s 1 0 true) (p := fun x e => decide (windowCond s x e true = none) &&
    onePiece (engCheck s x.core x.asid x.dom true (pieces ((wdescOf (descBytes s x e)).len + 1) (wdescOf (descBytes s x e)).loc (wdescOf (descBytes s x e)).len)) [(2 ^ 21 + 256, 256, 16)]) (by decide +kernel)
  exact ⟨s, x, e, _, _, q, of_decide_eq_true (and2 k).1, rfl, onePiece_of (and2 k).2⟩

theorem witness_WindowOperations_perform : ∃ s x e w va pa n u v, windowAt s 1 0 3 = some (x, e) ∧ w = argWindow e.arg ∧ w.far s = false ∧ (dieOf s w.tdie).safe = false ∧ n = argLen e.arg ∧ MemoryGood s ∧
    targetCheck s w.tdie w.tasid w.tdom false (pieces (n + 1) (w.base + argOff e.arg) n) = .ok [(va, pa, n)] ∧ Plain pa ∧ poisoned s pa n = none ∧
    (∀ p ∈ (coreOf s x.core).pool, p.buffered = false) ∧ NoWatch s ∧
    engCheck s x.core x.asid x.dom true (pieces (n + 1) (argLoc e.arg) n) = .ok [(argLoc e.arg, v, n)] ∧ Plain v ∧ unitOf s 1 = some u ∧ u.chk = false := by
  let s := porting (portArg (2 ^ 21 + 256)) 3 windowed
  obtain ⟨n, x, e, q, k⟩ := porters_of (s := s) (o := windowAt s 1 0 3) (p := fun x e => decide (x.core = 0 ∧ e.arg = portArg (2 ^ 21 + 256) ∧ ∀ p ∈ (coreOf s x.core).pool, p.buffered = false) &&
    onePiece (engCheck s x.core x.asid x.dom true (pieces 17 (2 ^ 21 + 256) 16)) [(2 ^ 21 + 256, 256, 16)]) (by decide +kernel)
  obtain ⟨u, y, hu, -, h⟩ := having_of (s := s) (p := fun u _ => decide (u.chk = false)) (by decide +kernel)
  obtain ⟨k1, k2, k3⟩ := of_decide_eq_true (and2 k).1
  have a : argLen (portArg (2 ^ 21 + 256)) = 16 ∧ argOff (portArg (2 ^ 21 + 256)) = 48 ∧ argLoc (portArg (2 ^ 21 + 256)) = 2 ^ 21 + 256 := by decide +kernel
  refine ⟨s, x, e, argWindow (portArg (2 ^ 21 + 256)), lowVa + 2 ^ 16 + 48, 2 ^ 16 + 48, 16, u, 256, q, by rw [k2], by decide +kernel, by decide +kernel, by rw [k2, a.1], memGood_of (by decide +kernel), ?_,
    plain_hbm (by decide +kernel), by decide +kernel, k3, n, ?_, plain_hbm (by decide +kernel), hu, of_decide_eq_true h⟩
  · rw [k2, a.2.1]
    exact onePiece_of (by decide +kernel)
  · rw [k2, a.2.2]
    exact onePiece_of (and2 k).2

theorem witness_WindowOperations_remote : ∀ put ∈ [true, false], ∃ (s : State) (acc : RemAccess) (w : Window) (va pa cell : Nat), acc.put = put ∧ w = windowOf s acc.die acc.win ∧ w.v = true ∧ acc.toff + acc.len = w.size ∧
    acc.len ≠ 0 ∧ windowPlaced w = true ∧ bitN (rdReg s (.therm acc.die)) 63 = false ∧ (dieOf s acc.die).safe = false ∧ MemoryGood s ∧
    targetCheck s acc.die w.tasid w.tdom acc.put (pieces (acc.len + 1) (w.base + acc.toff) acc.len) = .ok [(va, pa, acc.len)] ∧ va = w.base + acc.toff ∧ Plain pa ∧
    acc.bytes.length = acc.len ∧ targetPiece s acc.die w.tasid w.tdom true w.arrv 8 = .ok cell ∧ Plain cell ∧ (cell + 8 ≤ pa ∨ pa + acc.len ≤ cell) ∧
    (∀ p ∈ (coreOf s (28 * acc.die)).pool, p.buffered = false) ∧ poisoned s pa acc.len = none := by
  intro put hp
  cases put <;>
  exact ⟨windowed, ⟨0, 1023, _, 48, 16, List.replicate 16 7⟩, _, lowVa + 2 ^ 16 + 48, 2 ^ 16 + 48, 2 ^ 17, rfl, rfl, by decide +kernel, by decide +kernel, by decide, by decide +kernel, by decide +kernel, by decide +kernel, memGood_of (by decide +kernel),
    onePiece_of (by decide +kernel), by decide +kernel, plain_hbm (by decide +kernel), rfl, pieceAt_of (by decide +kernel), plain_hbm (by decide +kernel), .inr (by decide), by decide +kernel, by decide +kernel⟩

/-- Name `n` of a class is bound and thread `k`'s entry is held. -/
def boundAt (x : Group) (c : NClass) (n k : Nat) : Bool :=
  (nameOf x c n).any (fun m => decide (m.res ≠ []) && decide (entIx c k < m.entries.length)) && (entryOf x c n k).held && !(entryOf x c n k).drop

theorem boundAt_of {x : Group} {c : NClass} {n k : Nat} (h : boundAt x c n k = true) : Bound x c n k := by
  simp only [boundAt, Bool.and_eq_true, Option.any_eq_true, decide_eq_true_eq, Bool.not_eq_true'] at h
  obtain ⟨⟨⟨m, hm, a, b⟩, c⟩, d⟩ := h
  exact ⟨⟨m, hm, a, b⟩, c, d⟩

/-- The group has an operation of a class outstanding. -/
def operating (cls stage arg : Nat) (s : State) : State :=
  onGroup (fun x => { x with oc := setAt x.oc cls 1, eq := setAt x.eq cls [⟨9, false, false, [], stage, arg, false, 0, 0, 0, 0⟩] })
    (unit (fun u => { u with bufs := [⟨0, 0, 0, 2 ^ 16⟩] }) s)

/-- An `mx` word of the group's tile 2. -/
def arrayWord (op : MxOp) : MxEntry := ⟨1, 0, 9, 2, octet, op, 0⟩

/-- It heads the array's queue at clock 6. -/
def arrayQueued (op : MxOp) (s : State) : State := part0 (fun p => { p with mxq := [arrayWord op] }) (core (fun c => { c with clk := 6 }) (operating 1 0 0 s))

theorem test_array_get : (after (.mxStart 0 0) (arrayQueued (.get 1 (octet.map (fun k => (k, 63)))) (onGroup (fun x => modName x .acc 2 (fun m => { m with entries := m.entries.map (fun e =>
      { e with words := List.replicate 63 0 ++ [0x3F800000] }) })) (issuing (.mxGet 1 2 3))))).map (fun t => (partOf (coreOf t 0) 0).mxrun.map (fun r => runLanes r)) =
    some [octet.map (fun k => (k, 0x3F800000))] := by decide +kernel
theorem test_array_zero : (after (.mxStart 0 0) (arrayQueued .zero (issuing (.mxZero 2)))).map (fun t => (partOf (coreOf t 0) 0).mxrun.map (fun r => ((runRows 0 0 r).length, r.endClk - r.start))) = some [(8, 11)] := by
  decide +kernel

/-- `lastRsv` with a record: panels of lt8, their scales from byte 2048 on (R203). -/
def panelRsv : Rsv := { lastRsv with record := 0x10020000 }

/-- Words of the array, and whether they run without a condition: zero, two of `mma` (A of lt8 at offset 0, its scales at 4096), three of `mmag`, `mcv`, `get`, `rmax`, `sto`. -/
def starts : List (MxOp × Bool) :=
  [(.zero, true), (.mma [0, 0x10020, 4096, 1] lastHandle 0, true), (.mma [0, 0, 0, 0] 0 0, false), (.mmag 0x20000000 lastHandle 0, true), (.mmag 0 lastHandle 0, false),
   (.mcv [0, 0, 0, 0, 0, 0] 0 0, false), (.get 1 (octet.map (fun k => (k, 63))), true), (.rmax 1, true), (.sto [2 ^ 21 + 256, 0, 256], true)]

/-- They head the array's queue. -/
def starting (op : MxOp) : State := arrayQueued op (reserved panelRsv (issuing (.mxZero 2)))

/-- What the claim asks of one, and whether it meets a condition. -/
def startOk (op : MxOp) (clean : Bool) : Bool :=
  having (starting op) (fun u x => match eqOf x 1 9, nameOf x .acc 2 with
    | some _, some m => decide (m.spilled = false ∧ (∀ k ∈ m.entries, k.held = true → k.inSlot = false) ∧ x.core = 0 ∧ x.part = 0 ∧ (mxConds (starting op) u x (arrayWord op) = [] ↔ clean = true) ∧
        ∀ k ∈ octet, (oldRow (starting op) u x 2 k).length = 64) && (opPerm (arrayWord op)).all (fun n => (permFails (starting op) u x n).isNone)
    | _, _ => false) &&
  decide (mxHead (starting op) 0 0 = some (arrayWord op) ∧ 6 ≤ clkOf (starting op) 0 ∧ (partOf (coreOf (starting op) 0) 0).mxBusy ≤ clkOf (starting op) 0 ∧
    mayStart (starting op) 1 0 1 9 = true ∧ (starting op).regs.all (fun p => decide (p.1 < 2 ^ 32 * 24)) = true ∧ memGood (starting op) = true)

theorem witness_ArrayAndSolverRuns_start : ∀ p ∈ starts, ∃ s e u x q m, mxHead s 0 0 = some e ∧ unitOf s e.uid = some u ∧ groupOf s e.uid e.g = some x ∧
    eqOf x 1 e.eq = some q ∧ nameOf x .acc e.tile = some m ∧ m.spilled = false ∧ (∀ k ∈ m.entries, k.held = true → k.inSlot = false) ∧ x.core = 0 ∧ x.part = 0 ∧ NoWatch s ∧ MemoryGood s ∧ (∀ n, opPerm e = some n → permFails s u x n = none) ∧
    e.clk + 6 ≤ clkOf s 0 ∧ (partOf (coreOf s 0) 0).mxBusy ≤ clkOf s 0 ∧ mayStart s e.uid e.g 1 e.eq = true ∧ (∀ k ∈ e.tids, (oldRow s u x e.tile k).length = 64) ∧ e.op = p.1 ∧
    (mxConds s u x e = [] ↔ p.2 = true) := by
  have h : starts.all (fun p => startOk p.1 p.2) = true := by decide +kernel
  rintro ⟨op, clean⟩ ho
  obtain ⟨k, j⟩ := and2 (List.all_eq_true.mp h _ ho)
  obtain ⟨a, b, c, d, n, g⟩ := of_decide_eq_true j
  obtain ⟨u, x, hu, hx, k⟩ := having_of k
  split at k
  · next q m hq hm =>
    obtain ⟨k, f⟩ := and2 k
    obtain ⟨k1, k0, k2, k3, k4, k5⟩ := of_decide_eq_true k
    exact ⟨_, _, u, x, q, m, a, hu, hx, hq, hm, k1, k0, k2, k3, noWatch_of n, memGood_of g, fun n e => by rw [e] at f; simpa using f, b, c, d, k5, rfl, k4⟩
  · cases k

/-- `mx.mma` on rows of zeros with a panel column of ones (0x40, scale 127: R107, R110) and one A row of threes (0x58): the element is 96 (R112, R206). -/
theorem test_array_mma : (after (.mxStart 0 0) { starting (.mma [0, 0x10020, 4096, 1] lastHandle 0) with
      mem := Memory.writeAll (Memory.writeAll (Memory.writeAll (Memory.writeAll (starting .zero).mem (scratchPa 0 64) (List.replicate 32 0x58)) (scratchPa 0 4098) [127])
        (obufPa 0 0 (1024 * 184 + 32)) (List.replicate 32 0x40)) (obufPa 0 0 (1024 * 184 + 2048)) [127, 127] }).map
    (fun t => (partOf (coreOf t 0) 0).mxrun.map (fun r => ((runRows 0 0 r).map (fun k => (k.2[1]?).getD 0)))) = some [[0, 0, 0x42C00000, 0, 0, 0, 0, 0]] := by decide +kernel

/-- The array has run a word until clock 18, from the rows it read. -/
def arrayRan (e : MxEntry) (olds : NMap (List Word)) (s : State) : State :=
  part0 (fun p => { p with mxrun := [⟨e, 0, 8, 18, [], olds, none, [], 0, none⟩] }) (core (fun c => { c with clk := 18 }) (operating 1 0 0 s))

theorem witness_ArrayAndSolverRuns_done : ∀ op ∈ [MxOp.zero, .rmax 1], ∃ s r x q, doneRun s 0 0 = some r ∧ r.endClk ≤ clkOf s 0 ∧ r.cond = none ∧
    groupOf s r.ent.uid r.ent.g = some x ∧ eqOf x 1 r.ent.eq = some q ∧ ((runRows 0 0 r).map (fun k => k.1)).Nodup ∧ ((runLanes r).map (fun k => k.1)).Nodup ∧
    (∀ k ∈ runRows 0 0 r, Bound x .acc r.ent.tile k.1) ∧ (∀ m, nameOf x .acc r.ent.tile = some m → m.spilled = false) ∧
    (∀ d, r.ent.op.lane = some d → nextWrite x .lane (r.ent.tids.map (fun k => (k, d))) r.ent.eq = true ∧ ∀ k ∈ runLanes r, Bound x .lane d k.1) ∧
    (runRows 0 0 r).length + (runLanes r).length = 8 := by
  have h : ∀ op ∈ [MxOp.zero, .rmax 1], having (arrayRan (arrayWord op) [] (issuing (.mxRmax 1 2))) (fun _ x => decide (eqOf x 1 9 = some ⟨9, false, false, [], 0, 0, false, 0, 0, 0, 0⟩) &&
      octet.all (fun k => boundAt x .acc 2 k && boundAt x .lane 1 k) && (nameOf x .acc 2).all (fun m => !m.spilled) && nextWrite x .lane (octet.map (fun k => (k, 1))) 9) = true := by decide +kernel
  intro op ho
  obtain ⟨-, x, -, hx, k⟩ := having_of (h op ho)
  obtain ⟨k, k4⟩ := and2 k
  obtain ⟨k, k3⟩ := and2 k
  obtain ⟨k1, k2⟩ := and2 k
  have b := fun k (m : k ∈ octet) => and2 (List.all_eq_true.mp k2 k m)
  have sp : ∀ m, nameOf x .acc 2 = some m → m.spilled = false := fun m e => by rw [e] at k3; simpa using k3
  simp only [List.mem_cons, List.not_mem_nil, or_false] at ho
  rcases ho with rfl | rfl
  · refine ⟨arrayRan (arrayWord .zero) [] (issuing (.mxRmax 1 2)), ⟨arrayWord .zero, 0, 8, 18, [], [], none, [], 0, none⟩, x, _, by decide +kernel, by decide +kernel, rfl, hx, of_decide_eq_true k1, ?_, ?_, ?_, sp, ?_, ?_⟩
    · decide +kernel
    · decide +kernel
    · intro r hr
      obtain ⟨t, ht, rfl⟩ := List.mem_map.mp (show r ∈ octet.map (fun t => (t, zeroRow)) from hr)
      exact boundAt_of (b t ht).1
    · intro d e
      cases e
    · decide +kernel
  · refine ⟨arrayRan (arrayWord (.rmax 1)) [] (issuing (.mxRmax 1 2)), ⟨arrayWord (.rmax 1), 0, 8, 18, [], [], none, [], 0, none⟩, x, _, by decide +kernel, by decide +kernel, rfl, hx, of_decide_eq_true k1, ?_, ?_, ?_, sp, ?_, ?_⟩
    · decide +kernel
    · decide +kernel
    · intro r hr
      exact nomatch hr
    · intro d e
      cases e
      refine ⟨k4, fun r hr => ?_⟩
      obtain ⟨t, ht, rfl⟩ := List.mem_map.mp (show r ∈ octet.map (fun t => (t, rowMax zeroRow)) from hr)
      exact boundAt_of (b t ht).2
    · decide +kernel

theorem witness_ArrayAndSolverRuns_store : ∃ s u x q r k va bs pa, unitOf s 1 = some u ∧ groupOf s 1 0 = some x ∧ u.chk = false ∧ MemoryGood s ∧
    (partOf (coreOf s x.core) x.part).mxrun.find? (fun r => r.ent.uid == 1 && r.ent.g == 0 && r.ent.op.isSto && r.cond.isNone) = some r ∧ eqOf x 1 r.ent.eq = some q ∧ r.endClk ≤ clkOf s x.core ∧
    runStores r = [(k, va, bs)] ∧ stoPa s u x va bs.length = some pa ∧ Plain pa := by
  let s := arrayRan { arrayWord (.sto [2 ^ 21 + 256, 0, 0]) with tids := [7] } [(7, List.replicate 64 0x3F800000)] (issuing (.mxZero 2))
  obtain ⟨u, x, hu, hx, h⟩ := having_of (s := s) (p := fun u x => decide (u.chk = false ∧ eqOf x 1 9 = some ⟨9, false, false, [], 0, 0, false, 0, 0, 0, 0⟩ ∧ x.core = 0 ∧ x.part = 0 ∧
    stoPa s u x (2 ^ 21 + 256) 256 = some 256)) (by decide +kernel)
  obtain ⟨a, b, c, d, e⟩ := of_decide_eq_true h
  have k : runStores ⟨{ arrayWord (.sto [2 ^ 21 + 256, 0, 0]) with tids := [7] }, 0, 8, 18, [], [(7, List.replicate 64 0x3F800000)], none, [], 0, none⟩ =
    [(7, 2 ^ 21 + 256, bytesOfWords (List.replicate 64 0x3F800000))] := by decide +kernel
  have n : (bytesOfWords (List.replicate 64 0x3F800000)).length = 256 := by decide +kernel
  exact ⟨s, u, x, _, _, 7, 2 ^ 21 + 256, _, 256, hu, hx, a, memGood_of (by decide +kernel), by rw [c, d]; rfl, b, by rw [c]; decide +kernel, k, by rw [n]; exact e, plain_hbm (by decide +kernel)⟩

/-- An operation of the route solver of the group, into register 1. -/
def solve (op : RtOp) : RtEntry := ⟨1, 0, 9, 1, false, op, 0, 0, 0, []⟩

/-- The operations of the solver. -/
def solves : List RtOp := [.load (octet.map (fun k => (k, 7 - BitVec.ofNat 32 k))) [], .comp (oneSwitch 0) (oneSwitch 0), .rand 7 3 0, .save 48 (oneSwitch 0), .rest 48]

theorem test_solver_start : solves.map (fun op => (after (.solverStart 0) (core (fun c => { c with clk := 2, solverQ := [solve op] }) (operating 3 0 0 (issuing (.pmComp 1 2 3))))).map
    (fun t => (coreOf t 0).solver.isSome)) = List.replicate 5 (some true) := by decide +kernel

theorem witness_ArrayAndSolverRuns_solverStart : ∀ op ∈ solves, ∃ s o u x q, (coreOf s 0).solver = none ∧ solverHead s 0 = some o ∧ o.op = op ∧ unitOf s o.uid = some u ∧ groupOf s o.uid o.g = some x ∧ eqOf x 3 o.eq = some q ∧
    o.clk + 2 ≤ clkOf s 0 ∧ mayStart s o.uid o.g 3 o.eq = true ∧
    ∀ bs, bs = (match o.op with | .rest f => if f % 16 = 0 ∧ inBuf u 0 f 48 = true then homeRead s (scratchPa 0 f) 48 else [] | _ => []) → rtCond u x bs o.op = none := by
  let st := fun (op : RtOp) => core (fun c => { c with clk := 2, solverQ := [solve op] }) (operating 3 0 0 (issuing (.pmComp 1 2 3)))
  have h : ∀ op ∈ solves, having (st op) (fun u x => decide (eqOf x 3 9 = some ⟨9, false, false, [], 0, 0, false, 0, 0, 0, 0⟩ ∧
      rtCond u x (match op with | .rest f => if f % 16 = 0 ∧ inBuf u 0 f 48 = true then homeRead (st op) (scratchPa 0 f) 48 else [] | _ => []) op = none)) = true ∧
      (coreOf (st op) 0).solver = none ∧ solverHead (st op) 0 = some (solve op) ∧ 2 ≤ clkOf (st op) 0 ∧ mayStart (st op) 1 0 3 9 = true := by decide +kernel
  intro op ho
  obtain ⟨k, a, b, c, d⟩ := h op ho
  obtain ⟨u, x, hu, hx, k⟩ := having_of k
  obtain ⟨k1, k2⟩ := of_decide_eq_true k
  exact ⟨st op, solve op, u, x, _, a, b, rfl, hu, hx, k1, c, d, fun bs e => by rw [e]; exact k2⟩

theorem witness_ArrayAndSolverRuns_solverDone : ∀ op ∈ solves, ∃ s o x q, (coreOf s 0).solver = some o ∧ o.op = op ∧ groupOf s o.uid o.g = some x ∧ eqOf x 3 o.eq = some q ∧ o.start + solverD x.width o.op ≤ clkOf s 0 ∧
    (o.op.writes = true → nextWrite x .perm [(0, o.dst)] o.eq = true ∧ Bound x .perm o.dst 0) := by
  let st := fun (op : RtOp) => core (fun c => { c with clk := 2000, solver := some (solve op) }) (operating 3 0 0 (issuing (.pmComp 1 2 3)))
  have h : ∀ op ∈ solves, having (st op) (fun _ x => decide (eqOf x 3 9 = some ⟨9, false, false, [], 0, 0, false, 0, 0, 0, 0⟩ ∧ 0 + solverD x.width op ≤ clkOf (st op) 0 ∧
      nextWrite x .perm [(0, 1)] 9 = true ∧ boundAt x .perm 1 0 = true)) = true := by decide +kernel
  intro op ho
  obtain ⟨u, x, -, hx, k⟩ := having_of (h op ho)
  obtain ⟨k1, k2, k3, k4⟩ := of_decide_eq_true k
  exact ⟨st op, solve op, x, _, rfl, rfl, hx, k1, k2, fun _ => ⟨k3, boundAt_of k4⟩⟩

theorem witness_ArrayAndSolverRuns_save : ∃ s x e, groupOf s 1 0 = some x ∧ ((x.eq[3]?).getD []).find? (fun e => e.stage == 1 && !e.fin) = some e ∧ e.arg % 2 ^ 32 + 48 = 0x300000 ∧ e.arg / 2 ^ 416 < clkOf s x.core ∧ x.core < 224 := by
  obtain ⟨-, x, -, hx, h⟩ := having_of (s := core (fun c => { c with clk := 1 }) (operating 3 1 (0x300000 - 48) resting))
    (p := fun _ x => decide (((x.eq[3]?).getD []).find? (fun e : EqEntry => e.stage == 1 && !e.fin) = some ⟨9, false, false, [], 1, 0x300000 - 48, false, 0, 0, 0, 0⟩ ∧
      0 < clkOf (core (fun c => { c with clk := 1 }) (operating 3 1 (0x300000 - 48) resting)) x.core ∧ x.core < 224)) (by decide +kernel)
  obtain ⟨a, c, b⟩ := of_decide_eq_true h
  exact ⟨_, x, _, hx, a, by decide, Nat.lt_of_le_of_lt (show (0x300000 - 48) / 2 ^ 416 ≤ 0 by decide) c, b⟩

/-- Partition 0 of core 0 has arbitrated, and its issue is the next step. -/
def arbitratedOf (s : State) : State := { arbitratePart s 0 0 with sched := [.issue 0 0] }

/-- The partition's next pick is of a word, or of a spar and a word, that decodes to an instruction, and no debugger is on. -/
def decoded (s : State) (pair : Bool) : Bool :=
  match (partOf (coreOf s 0) 0).picks with
  | [] => false
  | c :: l =>
    let a := pickTaken s 0 0 [] l
    match stillThere a c with
    | [] => false
    | (g, ts) :: more => match groupOf a c.uid g with
      | none => false
      | some x =>
        let va := entryVa x.kernel + c.off
        ((g, ts) :: more).all (fun q => (groupOf a c.uid q.1).all (fun y => !dbgEnabled a y)) && decide (c.off < 4 * x.kernel.nwords) &&
        (match fetchWord a x.core x.asid va, fetchWord a x.core x.asid (va + 4) with
          | .ok w, .ok v => match decode w.toNat, decode v.toNat with
            | .ok _, .ok _ => isSpar w == pair && (!pair || (decide (c.off + 4 < 4 * x.kernel.nwords) && !isSpar v))
            | _, _ => false
          | _, _ => false)

theorem decoded_of {s : State} {pair : Bool} (hs : s.sched = [.issue 0 0]) (hd : (dieOf s 0).safe = false) (ha : arbitrated s 0 0 = true) (h : decoded s pair = true) :
    ∃ c l g ts more x w v i j, PickNext s 0 0 [] c l ∧ stillThere (pickTaken s 0 0 [] l) c = (g, ts) :: more ∧ groupOf (pickTaken s 0 0 [] l) c.uid g = some x ∧
      (∀ q ∈ (g, ts) :: more, ∀ y, groupOf (pickTaken s 0 0 [] l) c.uid q.1 = some y → dbgEnabled (pickTaken s 0 0 [] l) y = false) ∧ c.off < 4 * x.kernel.nwords ∧
      fetchWord (pickTaken s 0 0 [] l) x.core x.asid (entryVa x.kernel + c.off) = .ok w ∧ isSpar w = pair ∧ decode w.toNat = .ok i ∧
      fetchWord (pickTaken s 0 0 [] l) x.core x.asid (entryVa x.kernel + c.off + 4) = .ok v ∧ decode v.toNat = .ok j ∧ (pair = true → c.off + 4 < 4 * x.kernel.nwords ∧ isSpar v = false) := by
  unfold decoded at h
  split at h
  · cases h
  next c l hp =>
  dsimp only at h
  split at h
  · cases h
  next g ts more ht =>
  split at h
  · cases h
  next x hx =>
  obtain ⟨h, h3⟩ := and2 h
  obtain ⟨h1, h2⟩ := and2 h
  split at h3
  next w v hw hv =>
    split at h3
    next i j hi hj =>
      obtain ⟨h4, h5⟩ := and2 h3
      refine ⟨c, l, g, ts, more, x, w, v, i, j, ⟨hs, by decide, hd, ha, hp⟩, ht, hx, fun q hq y hy => ?_, of_decide_eq_true h2, hw, beq_iff_eq.mp h4, hi, hv, hj, fun e => ?_⟩
      · have k := List.all_eq_true.mp h1 q hq
        rw [hy] at k
        simpa using k
      · rw [e] at h5
        obtain ⟨h6, h7⟩ := and2 h5
        exact ⟨of_decide_eq_true h6, by simpa using h7⟩
    · cases h3
  · cases h3

theorem witness_StepRunsTheDecodedInstruction : (∀ pair ∈ [false, true], ∃ s c l g ts more x w v i j, PickNext s 0 0 [] c l ∧ stillThere (pickTaken s 0 0 [] l) c = (g, ts) :: more ∧
      groupOf (pickTaken s 0 0 [] l) c.uid g = some x ∧
      (∀ q ∈ (g, ts) :: more, ∀ y, groupOf (pickTaken s 0 0 [] l) c.uid q.1 = some y → dbgEnabled (pickTaken s 0 0 [] l) y = false) ∧ c.off < 4 * x.kernel.nwords ∧
      fetchWord (pickTaken s 0 0 [] l) x.core x.asid (entryVa x.kernel + c.off) = .ok w ∧ isSpar w = pair ∧ decode w.toNat = .ok i ∧
      fetchWord (pickTaken s 0 0 [] l) x.core x.asid (entryVa x.kernel + c.off + 4) = .ok v ∧ decode v.toNat = .ok j ∧ (pair = true → c.off + 4 < 4 * x.kernel.nwords ∧ isSpar v = false)) ∧
    ∃ (s : State) (i : Instr) (rest : List Choice), s.sched = .event i :: rest ∧ WellFormed i = true ∧ encode i = none := by
  refine ⟨fun pair _ => ?_, ⟨{ resting with sched := [.event .mboxVersion] }, .mboxVersion, [], rfl, by decide, by decide⟩⟩
  cases pair
  · exact ⟨_, decoded_of (s := arbitratedOf resting) rfl (by decide +kernel) (by decide +kernel) (by decide +kernel)⟩
  · exact ⟨_, decoded_of (s := arbitratedOf (State.reset.withFetchWord 64 ((encode (.spar 1 2 3 4 1 0 5 2)).getD 0 + 2 ^ 32 * (encode (.iaAdd 1 2 3)).getD 0))) rfl (by decide +kernel) (by decide +kernel)
      (by decide +kernel)⟩

/-- The partition's next pick is of a word that does not decode, and no debugger is on. -/
def undecoded (s : State) : Bool :=
  match (partOf (coreOf s 0) 0).picks with
  | [] => false
  | c :: l =>
    let a := pickTaken s 0 0 [] l
    match stillThere a c with
    | [] => false
    | (g, ts) :: more => match groupOf a c.uid g with
      | none => false
      | some x => ((g, ts) :: more).all (fun q => (groupOf a c.uid q.1).all (fun y => !dbgEnabled a y)) && decide (c.off < 4 * x.kernel.nwords) &&
          (match fetchWord a x.core x.asid (entryVa x.kernel + c.off) with
            | .ok w => !isSpar w && (match decode w.toNat with | .error _ => true | .ok _ => false)
            | .error _ => false)

theorem test_step_undecoded : [0x30000000, 0xC0000000].all (fun w => undecoded (arbitratedOf (State.reset.withFetchWord 32 w))) = true := by decide +kernel

theorem test_step_illegal_traps : (match step (arbitratedOf (State.reset.withFetchWord 32 0x30000000)) with
    | .next t => (groupOf t 1 0).bind (fun x => x.trap.map (fun r => (r.cond.cause, r.cond.word)))
    | _ => none) = some (1, 0x30000000) := by decide +kernel

theorem test_safe_die_deaf : deaf { resting with dies := [(7, { Die.reset with safe := true })] } (.dvfsRequest 7 0 0) = true := by decide +kernel

theorem witness_DecodeEncodeAgree : (∃ i w, WellFormed i = true ∧ encode i = some w ∧ i = .fcF32lt8 127 127 3) ∧ ∃ i w, w < 2 ^ 32 ∧ decode w = .ok i ∧ w = 0x8EA00206 :=
  ⟨⟨.fcF32lt8 127 127 3, _, by decide, rfl, rfl⟩, ⟨.syncMwait 4 6, 0x8EA00206, by decide, rfl, rfl⟩⟩

theorem test_reset : Memory.wf State.reset.mem = true ∧ fld (rdReg State.reset (.therm 7)) 55 48 = 90 := by decide +kernel

theorem witness_EveryStepKeepsSound : ∃ s t : State, Sound s ∧ step s = .next t :=
  ⟨{ resting with sched := [.dieTime 0 1] }, (match step { resting with sched := [.dieTime 0 1] } with | .next t => t | _ => resting), by unfold Sound; decide +kernel, by
    have h : (match step { resting with sched := [.dieTime 0 1] } with | .next _ => true | _ => false) = true := by decide +kernel
    split at h
    · next t e => rw [e]
    · cases h⟩

/-- An issue answers a next state, and `p` holds of both. -/
def going (i : Instr) (p : State → State → Bool) : Bool := match encode i, exec i (issuing i) with | some _, .next t => p (issuing i) t | _, _ => false

theorem going_of {i : Instr} {p : State → State → Bool} (h : going i p = true) : ∃ s t w, encode i = some w ∧ exec i s = .next t ∧ p s t = true := by
  unfold going at h
  split at h
  · next w t e f => exact ⟨issuing i, t, w, e, f, h⟩
  · cases h

theorem witness_WordsFrame : (∃ s t w, encode (.iaAdd 1 2 3) = some w ∧ exec (.iaAdd 1 2 3) s = .next t ∧ w < 2 ^ 31 ∧
      ∃ x, groupOf s 1 0 = some x ∧ (entryOf x .lane 2 7).full = true ∧ (NClass.lane, 2) ∉ outsOf s.iss.spar (.iaAdd 1 2 3)) ∧
    (∃ s t w, encode .ctlExit = some w ∧ exec .ctlExit s = .next t ∧ ∀ u, unitOf s s.iss.uid = some u → u.chk = false) ∧ ∃ s t w, encode (.sysBrk 3) = some w ∧ exec (.sysBrk 3) s = .next t := by
  obtain ⟨s, t, w, e, f, h⟩ := going_of (i := .iaAdd 1 2 3) (p := fun s _ => (groupOf s 1 0).any (fun x => (entryOf x .lane 2 7).full && decide ((NClass.lane, 2) ∉ outsOf s.iss.spar (.iaAdd 1 2 3)))) (by decide +kernel)
  obtain ⟨s', t', w', e', f', h'⟩ := going_of (i := .ctlExit) (p := fun s _ => (unitOf s s.iss.uid).all (fun u => !u.chk)) (by decide +kernel)
  obtain ⟨s2, t2, w2, e2, f2, -⟩ := going_of (i := .sysBrk 3) (p := fun _ _ => true) (by decide +kernel)
  obtain ⟨x, hx, k⟩ := (Option.any_eq_true _ _).mp h
  have lt : w < 2 ^ 31 := by
    have : encode (.iaAdd 1 2 3) = some w := e
    cases this
    decide
  exact ⟨⟨s, t, w, e, f, lt, x, hx, (and2 k).1, of_decide_eq_true (and2 k).2⟩, ⟨s', t', w', e', f', fun u hu => by rw [hu] at h'; simpa using h'⟩, ⟨s2, t2, w2, e2, f2⟩⟩

end Sys2Proof.Tests
end

/-! PROOFS. The selection word (R175). A `LaneIssue` does not say that the groups of a unit have different numbers (as
`CalleeFits.units` does), nor that the sources of its word are full (R34). In a state with neither, a claim for one group of
the set can zero a source of another before that is read. -/

namespace Sys2Proof.Selection

open Sys2Proof Sys2Proof.Machine

/-- `sel` answers the state of the shared lane word (R150, R175). -/
theorem exec_sel (d a b : BitVec 7) (s : State) :
    exec (.sel d a b) s = .next (laneDAB (.sel d a b) 2 (fun _ _ D A B => if D ≠ 0 then A else B) s) := rfl

/-- A result that sends out stands among those in flight, with the values it was given. -/
theorem values_mem_of_sends {s t : State} {core : Nat} {p : Pend} (h : Sends s t core p) :
    (p.g, p.vals) ∈ (coreOf t core).pend.map (fun q => (q.g, q.vals)) := by
  obtain ⟨pre, post, n, hpend, -, -⟩ := h
  rw [hpend]
  exact List.mem_map.mpr ⟨{ p with id := p.id + n }, by simp, rfl⟩

/-- A lane name whose eight entries hold a value that is not full (R54), and which has no row. -/
def emptyName (n : Nat) (v : Word) : NameSt :=
  { givenName 0 (.lane, n) with res := [], entries := List.replicate 8 { noEntry .lane with words := [v], held := true } }

/-- A lane name 1 that holds every row of the partition, charged to domain slot 1. -/
def rowsTaken : NameSt := { givenName 0 (.lane, 1) with res := List.range 512, owner := 1, entries := [] }

/-- Group 0: D is 1, A is 2 and B is 3. -/
def chooser : Group := { givenGroup 0x24004103 with names := [emptyName 1 1, emptyName 2 2, emptyName 3 3] }

/-- The unit holds group 0, a group 1 like it, and a second group numbered 0, which has all rows. Its spill area is in the
scratchpad (R69). -/
def twofoldUnit : DUnit :=
  { givenUnit 1 0x24004103 with
    spill := 255 * 2 ^ 48, spsz := 8
    groups := [chooser, { chooser with gidx := 1 }, { chooser with names := [rowsTaken] }] }

/-- `sel 1 2 3` issues for thread 0 of group 1, then of group 0, while domain slot 1 is halted (R46). -/
def twofold : State :=
  let s := State.reset.withFetchWord 32 0x24004103
  { s with
    regs := mset s.regs (regKey (.domtab 0 1)) (2 * 2 ^ 125)
    units := [twofoldUnit]
    iss := ⟨0, 0, 1, 0, noSpar, 0, 0x24004103, [(1, [0]), (0, [0])], 0⟩ }

/-- The issue meets every hypothesis of the claim. -/
theorem twofold_issue : LaneIssue twofold (.sel 1 2 3) 0 chooser [0] where
  sets := by decide
  groups := by decide
  kept := .inr (by decide +kernel)
  group := by decide +kernel
  present := by decide
  names := by decide +kernel

/-- D of group 0 is 1 before the issue, so R175 selects A, which is 2. -/
theorem twofold_selected :
    (if laneVal chooser 0 1 0 = 0 then laneVal chooser 0 3 0 else laneVal chooser 0 2 0) = (2 : Word) := by decide +kernel

/-- What sets out: group 1's write of name 1 finds no free row and claims one from the second group 0 (R47), the write-out
reaches both groups of that number and zeroes D of the first, and so group 0 sends B, which is 3. -/
theorem twofold_sent :
    (coreOf (laneDAB (.sel 1 2 3) 2 (fun _ _ D A B => if D ≠ 0 then A else B) twofold) 0).pend.map (fun p => (p.g, p.vals)) =
      [(1, [(0, 1, [2])]), (0, [(0, 1, [3])])] := by decide +kernel

/-- `sel` does not select by the value D has at the issue where another group of its set spoils D first. -/
theorem not_laneResults_selOp : ¬ LaneResults SelOp := by
  intro h
  obtain ⟨t, hexec, hsends, -⟩ := h twofold (.sel 1 2 3) _ 0 chooser [0] (.sel 1 2 3) twofold_issue
  obtain rfl := Host.Outcome.next.inj ((exec_sel 1 2 3 twofold).symm.trans hexec)
  have hsent := values_mem_of_sends hsends
  rw [show chooser.core = 0 from rfl, twofold_sent] at hsent
  change (0, [(0, 1, [if laneVal chooser 0 1 0 = 0 then laneVal chooser 0 3 0 else laneVal chooser 0 2 0])]) ∈ _ at hsent
  rw [twofold_selected] at hsent
  revert hsent
  decide

/-- Refutes O6 by its first clause: in `twofold`, whose unit has two groups numbered 0, D of group 0 is 1 and not full, the
write of group 1 zeroes it, and `sel` writes B and not A. -/
theorem not_selectAndIdentityWordResults : ¬ Obligations.SelectAndIdentityWordResults := by
  unfold Obligations.SelectAndIdentityWordResults
  rintro ⟨hsel, -, -⟩
  exact not_laneResults_selOp hsel

end Sys2Proof.Selection

/-! PROOFS. The uniform branches (R183): the group decides once, and all its threads that have not exited move by that decision. -/

namespace Sys2Proof.UniformBranch

open Sys2Proof Sys2Proof.Machine

/-- The model's target of a J word is the one that the claims name (R119). -/
theorem jTarget_eq_jumpTo (s : State) (off : BitVec 18) : jTarget s off = jumpTo s off := by
  unfold jTarget jumpTo wordOff
  split <;> rfl

/-- A target inside the kernel meets no CTRL 1 (R292). -/
theorem outside_eq_false_of_inside {x : Group} {o : Int} (h : Inside x o) : outside x o = false := by
  obtain ⟨nonneg, lt⟩ := h
  simp [outside, nonneg, lt]

@[simp] theorem gA_ubrz (s : State) (x : Group) (a : BitVec 7) (off : BitVec 18) : gA s x (.ubrz a off) = uniVal x s.iss.spar.ax a := rfl

@[simp] theorem gA_ubrnz (s : State) (x : Group) (a : BitVec 7) (off : BitVec 18) : gA s x (.ubrnz a off) = uniVal x s.iss.spar.ax a := rfl

/-- After the bindings of a word with no destination and an advance: nothing sets out, and where the threads stand. -/
theorem begin_and_go {s : State} {uid g : Nat} {x : Group} (hx : groupOf s uid g = some x) (i : Instr) (ts : List Nat) (off : Nat → Nat)
    (tr : Nat → Bool) (c : Nat) :
    (coreOf (advance (beginWord s i uid g ts true [] s.seq) uid g ts off tr) c).pend = (coreOf s c).pend ∧
      GoesOn s (advance (beginWord s i uid g ts true [] s.seq) uid g ts off tr) uid g ts off := by
  have quiet := beginWord_quiet s i uid g ts true [] s.seq
  obtain ⟨y, hy, hplaces, -⟩ := quiet_places quiet hx
  obtain ⟨z, hz, hgone⟩ := advance_group (ts := ts) (off := off) (tr := tr) hy
  exact ⟨quiet.pend c, x, z, hx, hz, hplaces ▸ hgone⟩

/-- A uniform branch whose target, where it is taken, lies in the kernel: no result sets out, and every non-exited thread of the
group continues at the target or at the next word (R183). -/
theorem groupBranch_spec {s : State} {i : Instr} {g : Nat} {x : Group} {off : BitVec 18} {taken : Word → Bool} (h : GroupIssue s i g x)
    (inside : taken (gA s x i) = true → Inside x (jumpTo s off)) :
    (coreOf (groupBranch i off taken s) x.core).pend = (coreOf s x.core).pend ∧
      GoesOn s (groupBranch i off taken s) s.iss.uid g (liveTids x)
        (fun _ => if taken (gA s x i) then (jumpTo s off).toNat else nextOff s) := by
  obtain ⟨⟨ts, hsets⟩, hgroup, hnames⟩ := h
  have noTrap : (if taken (gA s x i) && outside x (jTarget s off) then [(0x05, 1)] else []) = ([] : List (Nat × Nat)) := by
    cases htaken : taken (gA s x i) with
    | false => rfl
    | true => rw [jTarget_eq_jumpTo, outside_eq_false_of_inside (inside htaken)]; rfl
  unfold groupBranch
  rw [groupWord_clean (by rw [hsets]; rfl) hgroup hnames noTrap, groupOf_gidx hgroup, jTarget_eq_jumpTo]
  exact begin_and_go hgroup _ _ _ _ _

/-- `ubrz` takes its branch where A is 0. -/
theorem exec_ubrz (a : BitVec 7) (off : BitVec 18) (s : State) :
    exec (.ubrz a off) s = .next (groupBranch (.ubrz a off) off (fun v => v == 0) s) := rfl

/-- `ubrnz` takes its branch where A is not 0. -/
theorem exec_ubrnz (a : BitVec 7) (off : BitVec 18) (s : State) :
    exec (.ubrnz a off) s = .next (groupBranch (.ubrnz a off) off (fun v => v != 0) s) := rfl

/-- Settles O20: both words are `groupBranch`, with A = 0 and with A ≠ 0 as the decision. -/
theorem uniformBranchWords : Obligations.UniformBranchWords := by
  unfold Obligations.UniformBranchWords
  refine ⟨⟨by decide, by decide⟩, fun s a off g x => ⟨fun issue inside => ?_, fun issue inside => ?_⟩⟩
  · have spec := groupBranch_spec (off := off) (taken := fun v => v == 0) issue (by simpa using inside)
    exact ⟨_, exec_ubrz a off s, by simpa only [gA_ubrz, beq_iff_eq] using spec⟩
  · have spec := groupBranch_spec (off := off) (taken := fun v => v != 0) issue (by simpa using inside)
    exact ⟨_, exec_ubrnz a off s, by simpa only [gA_ubrnz, bne_iff_ne] using spec⟩

end Sys2Proof.UniformBranch

/-! PROOFS. The queue port (R245, R310): a submission is taken while intake has room for its PASID, and every other transaction is
answered Unsupported Request or, where it is posted, dropped and counted. -/

namespace Sys2Proof.QueuePort

open Sys2Proof Sys2Proof.Machine

/-- Intake has no room for a record of the PASID (R245): it holds 512 records, or 32 of the PASID. -/
def IntakeFull (s : State) (p : Nat) : Prop :=
  512 ≤ s.hub.intake.length ∨ 32 ≤ (s.hub.intake.filter (fun r => r.pasid == p)).length

/-- A submission in the form of R245: 128 bytes to a 128-byte-aligned address of the page. -/
structure Submission (off : Nat) (bs : List Byte) : Prop where
  size : bs.length = 128
  aligned : off % 128 = 0
  inPage : off < 4096

/-- A submission passes the model's check of its form. -/
theorem Submission.accepted {off : Nat} {bs : List Byte} (h : Submission off bs) :
    ¬ (bs.length ≠ 128 ∨ off % 128 ≠ 0 ∨ off ≥ 4096) := by
  obtain ⟨size, aligned, inPage⟩ := h
  omega

/-- A submission that finds room joins the end of intake and is answered Successful (0). -/
theorem exec_qportSubmit_of_room {s : State} {p off : Nat} {bs : List Byte} (sub : Submission off bs) (room : ¬ IntakeFull s p) :
    exec (.qportSubmit p off bs) s =
      .next (modHub s (fun h => { h with intake := h.intake ++ [⟨p, bs⟩], answers := h.answers ++ [0] })) := by
  change execQportSubmit p off bs s = _
  rw [execQportSubmit, if_neg sub.accepted]
  exact congrArg _ (if_neg room)

/-- A submission that finds no room is answered Retry (1) and leaves no record. -/
theorem exec_qportSubmit_of_full {s : State} {p off : Nat} {bs : List Byte} (sub : Submission off bs) (full : IntakeFull s p) :
    exec (.qportSubmit p off bs) s = .next (modHub s (fun h => { h with answers := h.answers ++ [1] })) := by
  change execQportSubmit p off bs s = _
  rw [execQportSubmit, if_neg sub.accepted]
  exact congrArg _ (if_pos full)

/-- A deferrable write of another size, unaligned or without a PASID is answered Unsupported Request (2). -/
theorem exec_qportUnsupportedDmwr_of_bad {p : Option Nat} {off n : Nat} (s : State) (bad : n ≠ 128 ∨ off % 128 ≠ 0 ∨ p = none) :
    exec (.qportUnsupportedDmwr p off n) s = .next (modHub s (fun h => { h with answers := h.answers ++ [2] })) := by
  change execQportUnsupportedDmwr p off n s = _
  rw [execQportUnsupportedDmwr, if_pos (by simpa only [Option.isNone_iff_eq_none] using bad)]

/-- A read is answered Unsupported Request (2). -/
theorem exec_qportMemoryRead (p : Option Nat) (s : State) :
    exec (.qportMemoryRead p) s = .next (modHub s (fun h => { h with answers := h.answers ++ [2] })) := rfl

/-- A posted write is one reject without an entry, of its PASID or of PASID 0. -/
theorem exec_qportMemoryWrite (p : Option Nat) (s : State) :
    exec (.qportMemoryWrite p) s = .next (logReject s (p.getD 0) 1 none) := rfl

/-- A counted reject writes nothing but the reject logs. -/
theorem logReject_frame (s : State) (p n : Nat) (e : Option Nat) :
    { logReject s p n e with hub := { (logReject s p n e).hub with rejects := s.hub.rejects } } = s := rfl

/-- A reject without an entry adds to the count of its PASID's log, which keeps its entries. -/
theorem logReject_none_same (s : State) (p n : Nat) :
    mget (logReject s p n none).hub.rejects p =
      some ⟨((mget s.hub.rejects p).getD ⟨0, []⟩).count + n, ((mget s.hub.rejects p).getD ⟨0, []⟩).entries⟩ :=
  mget_mset_same _ _ _

/-- The log of another PASID is as before. -/
theorem logReject_other (s : State) {p q : Nat} (n : Nat) (e : Option Nat) (h : q ≠ p) :
    mget (logReject s p n e).hub.rejects q = mget s.hub.rejects q :=
  mget_mset_other _ _ h

/-- Settles O42: a lemma for each transaction, the submission split by whether intake has room for the PASID. -/
theorem queuePort : Obligations.QueuePort := by
  unfold Obligations.QueuePort
  refine fun s => ⟨?taken, ?retry, ?unsupported, ?read, ?write⟩
  case taken =>
    intro p off bs size aligned inPage few fewOfPasid
    exact exec_qportSubmit_of_room ⟨size, aligned, inPage⟩ (not_or.mpr ⟨few.not_ge, fewOfPasid.not_ge⟩)
  case retry =>
    intro p off bs size aligned inPage full
    exact exec_qportSubmit_of_full ⟨size, aligned, inPage⟩ full
  case unsupported => exact fun p off n bad => exec_qportUnsupportedDmwr_of_bad s bad
  case read => exact fun p => exec_qportMemoryRead p s
  case write =>
    exact fun p => ⟨_, exec_qportMemoryWrite p s, logReject_frame s _ 1 none, logReject_none_same s _ 1,
      fun q other => logReject_other s 1 none other⟩

end Sys2Proof.QueuePort
